-- ==== Sys2Proof/Word.lean ====
section
/-!
DEFINITION. Word.lean: the words of the module. Byte, dword and register word are bit vectors; counts, addresses
and identifiers are natural numbers.
-/
namespace Sys2Proof

/-- One byte (00 R6: the module is little-endian). -/
abbrev Byte := BitVec 8

/-- One dword: an instruction word of a core program, a packet dword, an index register. -/
abbrev Word := BitVec 32

/-- One 64-bit register or signal cell. -/
abbrev DWord := BitVec 64

end Sys2Proof
end

