-- ==== Sys2Proof/Machine/Bits.lean ====
section
/-!
DEFINITION. Bits.lean: bit fields, byte order (00 R6), and small list operations that every unit uses.
-/
namespace Sys2Proof.Machine

/-- Bits `[lo + len - 1 : lo]` of `x`. -/
def bits (x lo len : Nat) : Nat := x / 2 ^ lo % 2 ^ len

/-- Bit `i` of `x`. -/
def bit (x i : Nat) : Bool := x.testBit i

/-- 1 for true, 0 for false. -/
def b2n (b : Bool) : Nat := if b then 1 else 0

/-- `x` with bit `i` set. -/
def setBit (x i : Nat) : Nat := x ||| 2 ^ i

/-- `x` with the bits of `m` cleared. -/
def clearBits (x m : Nat) : Nat := x - (x &&& m)

/-- The natural number of a little-endian byte string (00 R6). -/
def leNat : List Byte → Nat
  | [] => 0
  | b :: bs => b.toNat + 256 * leNat bs

/-- The `n` little-endian bytes of `x`, modulo 256 ^ n (00 R6). -/
def leBytes : Nat → Nat → List Byte
  | 0, _ => []
  | n + 1, x => BitVec.ofNat 8 x :: leBytes n (x / 256)

/-- The little-endian dwords of a byte string; an incomplete last dword is completed with zeros. -/
def dwordsOf (bs : List Byte) (n : Nat) : List Word :=
  (List.range n).map fun i => BitVec.ofNat 32 (leNat ((bs.drop (4 * i)).take 4))

/-- Dword `i` of a byte string as a number. -/
def dwordAt (bs : List Byte) (i : Nat) : Nat := leNat ((bs.drop (4 * i)).take 4)

/-- The 64-bit value in dwords `i` and `i + 1`. -/
def qwordAt (bs : List Byte) (i : Nat) : Nat := leNat ((bs.drop (4 * i)).take 8)

/-- The value of `x`, `w` bits wide, read as two's complement. -/
def signed (w x : Nat) : Int := if x % 2 ^ w < 2 ^ (w - 1) then (x % 2 ^ w : Nat) else (x % 2 ^ w : Nat) - (2 ^ w : Nat)

/-- The low `w` bits of an integer, as two's complement. -/
def unsigned (w : Nat) (i : Int) : Nat := (i % ((2 ^ w : Nat) : Int)).toNat

/-- `a / b` rounded up. -/
def ceilDiv (a b : Nat) : Nat := (a + b - 1) / b

/-- Saturating 64-bit counter (20 R582). -/
def sat64 (x : Nat) : Nat := min x (2 ^ 64 - 1)

/-- Saturating 32-bit counter. -/
def sat32 (x : Nat) : Nat := min x (2 ^ 32 - 1)

/-- The least number below `n` that `used` does not take (DEDUCED, log 98). -/
def lowestFree (n : Nat) (used : Nat → Bool) : Option Nat := (List.range n).find? fun i => !used i

/-- The list with element `i` changed by `f` (unchanged where there is no element `i`). -/
def modifyAt {α : Type} (l : List α) (i : Nat) (f : α → α) : List α :=
  match l, i with
  | [], _ => []
  | a :: t, 0 => f a :: t
  | a :: t, k + 1 => a :: modifyAt t k f

/-- Every element that satisfies `p` changed by `f`. -/
def mapIf {α : Type} (p : α → Bool) (f : α → α) (l : List α) : List α := l.map fun a => if p a then f a else a

/-- Two half-open ranges overlap. -/
def overlap (a b c d : Nat) : Bool := a < d && c < b && a < b && c < d

/-- Every number from `a` up to `b` lies in one of `l`'s half-open ranges; `n` bounds the ranges that it takes. -/
def spanned : Nat → Nat → Nat → List (Nat × Nat) → Bool
  | 0, a, b, _ => decide (b ≤ a)
  | n + 1, a, b, l => decide (b ≤ a) || match l.find? fun r => decide (r.1 ≤ a ∧ a < r.2) with
    | some r => spanned n r.2 b l
    | none => false

/-- No element occurs twice. -/
def noDup (l : List Nat) : Bool :=
  match l with
  | [] => true
  | a :: t => !t.contains a && noDup t

/-- All-ones where `n` lies below `lim`. -/
def allBelow (n : Nat) (p : Nat → Bool) : Bool := (List.range n).all p

/-- An element put before the first that it precedes. -/
def insertBy {α : Type} (before : α → α → Bool) (a : α) : List α → List α
  | [] => [a]
  | b :: t => if before a b then a :: b :: t else b :: insertBy before a t

/-- A list in the order of `before`; elements that it does not order keep their places. -/
def sortBy {α : Type} (before : α → α → Bool) (l : List α) : List α := l.foldr (insertBy before) []

end Sys2Proof.Machine
end

