-- ==== Sys2Proof/Machine/Sparse.lean ====
section
/-!
DEFINITION. Sparse.lean: sparse data by key, in ONE canonical form: keys strictly rising, no entry equal to what an
unlisted key reads as. `Sparse Byte` is a list of Host.Cell; the device range, the scratchpads, the zones' data and
the system-flash host area are such maps.
-/
namespace Sys2Proof.Machine

/-- Data by key, keys strictly rising. -/
abbrev Sparse (α : Type) := List (Nat × α)

/-- What key `k` reads as; `d` where nothing is listed. -/
def Sparse.get {α : Type} (d : α) : Sparse α → Nat → α
  | [], _ => d
  | (k, v) :: t, i => if i = k then v else if i < k then d else Sparse.get d t i

/-- The value listed at key `i`. -/
def Sparse.find {α : Type} : Sparse α → Nat → Option α
  | [], _ => none
  | (k, v) :: t, i => if i = k then some v else if i < k then none else Sparse.find t i

/-- The map with key `i` listed as `v`, whatever `v` is. -/
def Sparse.put {α : Type} : Sparse α → Nat → α → Sparse α
  | [], i, v => [(i, v)]
  | (k, w) :: t, i, v =>
    if i < k then (i, v) :: (k, w) :: t
    else if i = k then (k, v) :: t
    else (k, w) :: Sparse.put t i v

/-- The map without key `i`. -/
def Sparse.drop {α : Type} : Sparse α → Nat → Sparse α
  | [], _ => []
  | (k, w) :: t, i =>
    if i < k then (k, w) :: t
    else if i = k then t
    else (k, w) :: Sparse.drop t i

/-- A write: the value an unlisted key reads as removes the entry, so that equal maps are equal data. -/
def Sparse.set {α : Type} [DecidableEq α] (d : α) (m : Sparse α) (i : Nat) (v : α) : Sparse α :=
  if v = d then Sparse.drop m i else Sparse.put m i v

/-- The map without the keys of `[lo, hi)`. -/
def Sparse.clear {α : Type} (m : Sparse α) (lo hi : Nat) : Sparse α :=
  m.filter fun e => e.1 < lo || hi ≤ e.1

/-- The map with the listed value of key `i` changed by `f`. -/
def Sparse.adjust {α : Type} (m : Sparse α) (i : Nat) (f : α → α) : Sparse α :=
  m.map fun e => if e.1 = i then (e.1, f e.2) else e

/-- Consecutive values written from key `i` on. -/
def Sparse.setList {α : Type} [DecidableEq α] (d : α) (m : Sparse α) (i : Nat) : List α → Sparse α
  | [] => m
  | v :: vs => Sparse.setList d (Sparse.set d m i v) (i + 1) vs

/-- `n` consecutive values from key `i` on. -/
def Sparse.getList {α : Type} (d : α) (m : Sparse α) (i n : Nat) : List α :=
  (List.range n).map fun j => Sparse.get d m (i + j)

/-- All keys of the tail lie above `lo`, strictly rising, and no value equals `d`. -/
def Sparse.wfFrom {α : Type} [DecidableEq α] (d : α) (lo : Option Nat) : Sparse α → Bool
  | [] => true
  | (k, v) :: t => (match lo with | none => true | some l => decide (l < k)) && !decide (v = d) && Sparse.wfFrom d (some k) t

/-- The canonical form holds. -/
def Sparse.wf {α : Type} [DecidableEq α] (d : α) (m : Sparse α) : Bool := Sparse.wfFrom d none m

/-- Byte memory. -/
abbrev Memory := List Host.Cell

/-- The canonical form of a byte memory whose unlisted bytes read `d`. -/
abbrev Memory.wf (d : Byte) (m : Memory) : Bool := Sparse.wf d m

end Sys2Proof.Machine
end

