-- ==== Sys2Proof/Machine/StateHost.lean ====
section
/-!
DEFINITION. StateHost.lean: the state of the host link: queue pairs, fetched commands, the error log, MSI-X, the event
controller and antenna, the signal cells, the GEN block and the features (spec/14, 15, 16, 18).
-/
namespace Sys2Proof.Machine

/-- The command of queue `qid` that bears identifier `cid` (14 R407, R408). -/
structure CmdRef where
  qid : Nat
  cid : Nat
  deriving DecidableEq, Repr

/-- One write into host memory, in the order the module posts them (14 R401). -/
inductive HostWrite where
  /-- Bytes into buffer `buf` of a command, at host address `addr` of one of its descriptors; `ro`: with Relaxed Ordering. -/
  | data (cmd : CmdRef) (buf addr : Nat) (ro : Bool) (bytes : List Byte)
  /-- The 16-byte reply of 14 R411, at completion entry `index` of the ring at `base`. -/
  | reply (base index : Nat) (result sqHead cid status qid : Nat) (phase : Bool)
  /-- A token record at a host address (08 R233). -/
  | token (addr : Nat) (bytes : List Byte)
  /-- An MSI-X write: vector, address and data of its table entry (18 R535). -/
  | msix (vector addr data : Nat)
  deriving DecidableEq, Repr

/-- A data descriptor (14 R409): buffer, host address, length. -/
structure Desc where
  buf : Nat
  addr : Nat
  len : Nat
  deriving DecidableEq, Repr

/-- What the function logs through AER (14 R400, R410; 10 R282): a read of host memory for a command of queue `qid` that failed, a failed
read of the packet at ring index `index` or of the consumer word at a host address, a completion that it sent poisoned, a poisoned
write that it received. -/
inductive AerEvent where
  | read (qid : Nat) | packet (qid index : Nat) | word (addr : Nat) | poisoned | posted
  deriving DecidableEq, Repr

/-- The address spaces of the range-lock table (14 R419). -/
inductive LockSpace where
  | zone | device | sysflash
  deriving DecidableEq, Repr

/-- One range-lock entry: a half-open range (14 R419). -/
structure RangeLock where
  space : LockSpace
  lo : Nat
  hi : Nat
  write : Bool
  deriving DecidableEq, Repr

/-- A bundle verification key (21 R601). -/
structure BundleKey where
  id : Nat
  point : List Byte
  deriving DecidableEq, Repr

/-- A fetched command that has not replied. `seq`: its place in the fetch order, which tells it from every other command; `begun`:
R416; `descs`: its data descriptors, in order (R409); `started`: its own row has executed and it is pending;
`pnr`: its point of no return has passed (R432); `abortBy`: the ABORT that waits for its reply (R431);
`job`: of a JOB_END, JOB_PARK or JOB_ABORT, the `seq` of the JOB_START whose job bore the number when it began (07 R204);
`keys` and `level`: of a BUNDLE_LOAD, the bundle verification keys and the protection level in force when it began (15 R461; 21 R601). -/
structure Cmd where
  seq : Nat := 0
  qid : Nat
  cid : Nat
  index : Nat
  dwords : List Word
  descs : List Desc := []
  lock : Option RangeLock := none
  begun : Bool := false
  started : Bool := false
  pnr : Bool := false
  abortBy : Option CmdRef := none
  job : Option Nat := none
  keys : List BundleKey := []
  level : Nat := 0
  fetchTime : Nat := 0
  deriving DecidableEq, Repr

/-- One queue pair (14 R403, R436-R438). `cqTimes` holds the write times of the unconsumed replies, oldest first
(R434). -/
structure Queue where
  sqBase : Nat := 0
  cqBase : Nat := 0
  sqDepth : Nat := 2
  cqDepth : Nat := 2
  weight : Nat := 1
  coalCount : Nat := 1
  coalUs : Nat := 0
  sqTail : Nat := 0
  sqHead : Nat := 0
  cqTail : Nat := 0
  cqHead : Nat := 0
  phase : Bool := true
  cqTimes : List Nat := []
  frozen : Bool := false
  drained : Bool := false
  failIndex : Nat := 0
  failLog : Nat := 0
  freezeMask : Nat := 0x83FE
  deriving DecidableEq, Repr

/-- One entry of the error log (14 R427). -/
structure ErrEntry where
  seq : Nat
  qid : Nat
  opcode : Nat
  cid : Nat
  status : Nat
  sqIndex : Nat
  result : Nat
  param : Option (Nat × Nat)
  froze : Bool
  record : Option Nat
  time : Nat
  deriving DecidableEq, Repr

/-- A restart that waits for DRAINED, or for completion entries for its discards (14 R428, R429). `cmd`: the QUEUE_RESTART
command, none for QST_CTRL; `cids`: what reads of the packets give, by ring index; `tail`: the tail once it is read. -/
structure PendingRestart where
  qid : Nat
  discard : Bool
  cmd : Option CmdRef
  cids : List (Nat × Nat)
  tail : Option Nat := none
  deriving DecidableEq, Repr

/-- The queue engine. `queues`: existing queues by number; `cmds`: fetched commands in module-wide fetch order; `fetched`: commands
accepted since reset; `masks`: what QST_CTRL of a queue that does not exist holds (R437); `doorbells`: last value written by (2 q)
submission tail and (2 q + 1) completion head. -/
structure Queues where
  queues : Sparse Queue := []
  cmds : List Cmd := []
  fetched : Nat := 0
  doorbells : Sparse Nat := []
  errLog : List ErrEntry := []
  errSeq : Nat := 0
  restarts : List PendingRestart := []
  masks : Sparse Nat := []
  round : Nat := 0
  deriving DecidableEq, Repr

/-- One entry of the MSI-X table (14 R402, PCIe Base 6.0). -/
structure MsixEntry where
  addr : Nat := 0
  data : Nat := 0
  mask : Bool := true
  deriving DecidableEq, Repr

/-- MSI-X: enable, function mask, the vectors whose bit of the pending-bit array reads 1, and the table's entries that differ from the
reset entry (18 R534). -/
structure Msix where
  enable : Bool := false
  fmask : Bool := false
  pba : List Nat := []
  table : Sparse MsixEntry := []
  deriving DecidableEq, Repr

/-- The PCIe function (14 R400): current speed code and width of its link (15 R445), its power state, the base addresses of BAR0 and
BAR2, Enable Relaxed Ordering (R401; 1 after reset, PRESUMED, log 116), No_Soft_Reset of its power management capability (19 R557), and
what it has logged through AER, oldest first. -/
structure Pci where
  speed : Nat := 0
  width : Nat := 0
  up : Bool := false
  d3hot : Bool := false
  linkL2 : Bool := false
  bars : List Nat := [0, 0]
  enableRo : Bool := true
  noSoftReset : Bool := true
  aer : List AerEvent := []
  deriving DecidableEq, Repr

/-- Configuration of one event source (18 R541). -/
structure SrcCfg where
  priority : Nat := 0x80
  hostEn : Bool := false
  mask : Bool := false
  autoRearm : Bool := true
  vector : Nat := 0
  deriving DecidableEq, Repr

/-- One signal-cell watch (18 R530, R541). -/
structure Watch where
  en : Bool := false
  mode : Bool := false
  hit : Bool := false
  cell : Nat := 0
  thresh : Nat := 0
  deriving DecidableEq, Repr

/-- One antenna watch entry (18 R541). -/
structure AntWatch where
  src : Nat := 0
  en : Bool := false
  deriving DecidableEq, Repr

/-- EVC_Pp_FLAGS and its enable (18 R527, R541). -/
structure PartFlags where
  jobEnd : Bool := false
  jobFault : Bool := false
  seqDrop : Bool := false
  job : Nat := 0
  en : Nat := 0
  deriving DecidableEq, Repr

/-- The event controller and the antenna (18). `active`: the host-ACTIVE sources; PENDING and IDLE follow from the
source's level and its configuration (R533); `nest`: per management core, the deliveries it is handling with the group in which each
was taken, innermost first; `mgmtDone`: sources a management core has been handed and not yet seen deassert (R537). -/
structure Evc where
  gdis : Bool := false
  prigrp : Nat := 4
  flashUncorr : Nat := 0
  flashLost : Nat := 0
  flashEn : Nat := 0
  part : List PartFlags := List.replicate 4 {}
  ring : List Nat := []
  watches : List Watch := List.replicate 32 {}
  wakePcie : Bool := true
  wakeSideband : Bool := true
  wakeHost : Bool := false
  antCause : Nat := 0
  antSrc : Nat := 0
  antWatch : List AntWatch := List.replicate 32 {}
  src : Sparse SrcCfg := []
  active : List Nat := []
  nest : List (List (Nat × Nat)) := [[], [], [], []]
  mgmtDone : List (Nat × Nat) := []
  frozenLevels : Option (List Nat) := none
  deriving DecidableEq, Repr

/-- A host SIG_WAIT in progress (16 R490). -/
structure CellWait where
  cmd : CmdRef
  cell : Nat
  threshold : Nat
  timeoutUs : Nat
  since : Nat
  deriving DecidableEq, Repr

/-- The signal unit: 4,096 cells of 64 bits, unlisted cells read 0 (16 R490, R493). `held`: cell writes of the host that wait
for the acknowledgements of its remote writes (17 R513); the flag marks a write of the upper 32 bits alone (R494). -/
structure Sig where
  cells : Sparse Nat := []
  waits : List CellWait := []
  held : List (Nat × Nat × Bool) := []
  deriving DecidableEq, Repr

/-- The values of the six features (15 R450). -/
structure Features where
  ps1Us : Nat := 100
  ps2Ms : Nat := 100
  ps3S : Nat := 0
  opCeiling : Nat := 3
  thermalCeiling : Nat := 95
  linkWidthLock : Nat := 0
  moduleId : Nat := 0
  fenced : Nat := 0
  deriving DecidableEq, Repr

/-- What self-tests found: the masks of a record (15 R459). -/
structure SelfTestMasks where
  coresTested : Nat := 0
  coresFailed : Nat := 0
  stacksTested : Nat := 0
  stacksFailed : Nat := 0
  boardFailed : Nat := 0
  flashFailed : Nat := 0
  deriving DecidableEq, Repr

/-- A self-test in progress (15 R457-R459): `masks`: what the tests completed so far found; `untested`: cores whose test the end of a job
cut short; `idle`: dies whose partition ran no job at some time since it began; when each partition lent its last core (20 R575). -/
structure SelfTest where
  cmd : CmdRef
  extended : Bool
  start : Nat
  masks : SelfTestMasks := {}
  untested : List Nat := []
  idle : Nat := 0
  lastBorrow : Sparse Nat := []
  deriving DecidableEq, Repr

/-- The record of the last self-test (15 R459), as its 64-byte record's bytes. -/
abbrev SelfTestRecord := List Byte

/-- An imago slot: its header fields, whether it is whole (21 R594-R596), its image; `factory`: it holds the image of manufacture, whose
bytes the model does not hold (DESIGN CHOICE, log 18). -/
structure ImagoSlot where
  valid : Bool := false
  version : Nat := 0
  svn : Nat := 0
  compat : Nat := 0
  keyIndex : Nat := 0
  steppings : Nat := 3
  length : Nat := 0
  image : List Byte := []
  factory : Bool := false
  deriving DecidableEq, Repr

/-- A firmware command in progress (15 R454-R456): a commit with the image it writes, and whether the slot is programmed and
verified; a restart on a slot. `cmd` is none once a function-level reset took the reply. -/
inductive FwOp where
  | commit (cmd : Option CmdRef) (slot : Nat) (image : ImagoSlot) (written : Bool)
  | restart (cmd : Option CmdRef) (slot : Nat)
  deriving DecidableEq, Repr

/-- A layout change that has been accepted (15 R462). -/
structure LayoutReq where
  cmd : CmdRef
  layout : Nat
  save : Bool
  deriving DecidableEq, Repr

/-- The GEN block and what the administrative commands hold (15). `held`: the held lower halves of 64-bit registers,
by BAR0 offset (00 R14); `setEarly`: features set before the saved values are applied (21 R598). -/
structure Gen where
  boot : Nat := 0
  eclosed : Bool := false
  storageReady : Bool := false
  restarting : Bool := false
  staged : Bool := false
  pl : Nat := 0
  slot : Nat := 0
  layout : Nat := 0
  version : Nat := 0
  svn : Nat := 0
  compat : Nat := 0
  minSvn : Nat := 0
  moduleId : Nat := 0
  aqSqBase : Nat := 0
  aqCqBase : Nat := 0
  aqAttr : Nat := 0
  features : Features := {}
  held : Sparse Nat := []
  fwStage : Sparse Byte := []
  fwOp : Option FwOp := none
  selfTest : Option SelfTest := none
  lastSelfTest : Option SelfTestRecord := none
  layoutReq : Option LayoutReq := none
  setEarly : List Nat := []
  telemetry : Sparse Nat := []
  telClear : Nat := 0
  deriving DecidableEq, Repr

/-- The host address of a write, and its bytes: a reply's are the 16 of 14 R411. -/
def HostWrite.addr : HostWrite → Nat
  | .data _ _ a _ _ => a
  | .reply base index _ _ _ _ _ _ => base + 16 * index
  | .token a _ => a
  | .msix _ a _ => a

/-- The bytes of a write. -/
def HostWrite.bytes : HostWrite → List Byte
  | .data _ _ _ _ bs => bs
  | .reply _ _ result sqHead cid status qid phase =>
    leBytes 8 result ++ leBytes 2 sqHead ++ leBytes 2 cid ++ leBytes 2 status ++ leBytes 1 qid ++ leBytes 1 (if phase then 0x80 else 0)
  | .token _ bs => bs
  | .msix _ _ d => leBytes 4 d

/-- Relaxed Ordering is set on writes into data buffers alone (14 R401). -/
def HostWrite.relaxed : HostWrite → Bool
  | .data _ _ _ ro _ => ro
  | _ => false

end Sys2Proof.Machine
end

