-- ==== Sys2Proof/Machine/StateFault.lean ====
section
/-!
DEFINITION. StateFault.lean: faults, fault records, core flags, watchdog, recovery and the lifetime records (spec/20).
-/
namespace Sys2Proof.Machine

/-- The address space a fault record's ADDRESS lies in (20 R572 SPACE). -/
inductive FaultSpace where
  | none | device | zone | scratchpad | module
  deriving DecidableEq, Repr

/-- What a fault ends (20 R563): the job of a partition, a command, or nothing that runs (an error during end-of-job
write-back, R567). -/
inductive FaultScope where
  | job (partition : Nat)
  | command (cmd : CmdRef)
  | nothing
  deriving DecidableEq, Repr

/-- A fault as its detector fixes it (20 R563, R572). `status`: 0x0F01-0x0F07, or 0x0510 for a program fault. -/
structure FaultInfo where
  status : Nat
  core : Option Nat := none
  pc : Nat := 0
  reason : Nat := 0
  code : Nat := 0
  addr : Nat := 0
  space : FaultSpace := .none
  tile : Nat := 0
  instr : List Word := []
  deriving DecidableEq, Repr

/-- A fault latched and not yet confined (20 R566 step 1). -/
structure Detection where
  number : Nat
  scope : FaultScope
  job : Nat
  info : FaultInfo
  time : Nat
  others : Nat := 0
  deriving DecidableEq, Repr

/-- A fault record (20 R572). -/
structure FaultRecord where
  number : Nat
  info : FaultInfo
  jobValid : Bool
  partition : Nat
  job : Nat
  cmd : Option CmdRef
  detect : Nat
  confined : Nat
  others : Nat
  deriving DecidableEq, Repr

/-- The FLT block and the fault unit (20 R566-R588). `resetReqAt`: when RESET_REQ was set; `nextRecord`, `written`: the next record number
and the records written; `records`: the newest 4,096, oldest first; `mgmtDown`: the management
cores that a watchdog reset, with the time of the reset (R568). -/
structure Flt where
  autoReset : Bool := true
  flagFirst : Bool := false
  resetReq : Bool := false
  resetReqAt : Nat := 0
  hubHold : Bool := false
  hubHoldSince : Nat := 0
  holdupFail : Bool := false
  mgmtUp : Nat := 0
  resetCause : Nat := 0
  evt : Nat := 0
  evtEn : Nat := 0
  coreFlags : Nat := 0
  nextRecord : Nat := 1
  written : Nat := 0
  records : List FaultRecord := []
  confineMax : Nat := 0
  faults : List Nat := [0, 0, 0, 0]
  detections : List Detection := []
  lastWatchdog : Option Nat := none
  mgmtDown : Sparse Nat := []
  deriving DecidableEq, Repr

/-- The lifetime counters (20 R581-R584), unlisted counters read 0. `hist` is keyed by (64 * histogram + bin), histograms in the
order of R582; `poweredNs` is the powered time before the timebase last started from 0; `lastSave` the time of the last
snapshot. -/
structure Life where
  counters : Sparse Nat := []
  coreMismatch : Sparse Nat := []
  coreSelfFail : Sparse Nat := []
  portRetrains : List Nat := [0, 0, 0, 0]
  portReplays : List Nat := [0, 0, 0, 0]
  portCrc : List Nat := [0, 0, 0, 0]
  portLost : List Nat := [0, 0, 0, 0]
  eccCe : List Nat := [0, 0, 0, 0, 0, 0]
  eccUe : List Nat := [0, 0, 0, 0, 0, 0]
  chanUncorr : Sparse Nat := []
  chanRetired : Sparse Nat := []
  hist : Sparse Nat := []
  poweredNs : Nat := 0
  lastSave : Nat := 0
  deriving DecidableEq, Repr

end Sys2Proof.Machine
end

