-- ==== Sys2Proof/Machine/StateCore.lean ====
section
/-!
DEFINITION. StateCore.lean: the state of one computing core: scratchpad, sequencer, stream and table slots, the matrix
array and its drain path, the reduction unit, outstanding DMA and signal operations (spec/04, 05, 06).
-/
namespace Sys2Proof.Machine

/-- One instruction: eight dwords (06 R155). -/
abbrev IWord := List Word

/-- A binary32 value, by its bits. -/
abbrev B32 := Nat

/-- A loaded stream slot (06 R162). `fmt` and `layout` are the codes of 02 R32. -/
structure Slot where
  fmt : Nat
  layout : Nat
  axis : Nat
  elem : Nat
  elemStride : Nat
  l1 : Nat
  l1Stride : Nat
  l2 : Nat
  tCols : Nat
  deriving DecidableEq, Repr

/-- One frame of the loop stack (06 R159). -/
structure LoopFrame where
  start : Nat
  stop : Nat
  remaining : Nat
  xi : Nat
  inc : Nat
  deriving DecidableEq, Repr

/-- A data cell: its sum and whether it is saturated (05 R124, R125). -/
structure Cell where
  v : Int
  sat : Bool
  deriving DecidableEq, Repr

/-- What a PASS names, its registers read at issue (06 R164, R178). -/
structure PassArgs where
  a : Slot
  b : Slot
  cont : Bool
  hold : Bool
  rows : Nat
  cols : Nat
  k : Nat
  k0 : Nat
  gbase : Nat
  masks : Option Nat
  chain : Option Nat
  deriving DecidableEq, Repr

/-- A pass of a group, as a recompute streams it again (04 R112): what it named, and its instruction. -/
structure PassRec where
  args : PassArgs
  instr : IWord
  deriving DecidableEq, Repr

/-- An accumulation group, held live or delivered as a tile (04 R105, R109). Rows and columns are lists in ascending
line number; masks are the excluded lines; `rowL`, `colL` the level-two codes the first pass read; `own`: POISON came
from an uncorrectable error of the scratchpad (20 R573); `recs`: its passes. -/
structure Group where
  rows : Nat
  cols : Nat
  rowMask : List Nat
  colMask : List Nat
  fmtRow : Nat
  fmtCol : Nat
  passes : Nat
  gbase : Nat
  total : Nat
  rowL : List Nat
  colL : List Nat
  cells : List (List Cell)
  ckCol : List Nat
  ckRow : List Nat
  corner : Nat
  poison : Bool
  own : Bool
  recs : List PassRec
  deriving DecidableEq, Repr

/-- A physical upset of the array: bit `bit` of cell (row, col) inverted; row 256 is the checksum row, column 256 the
checksum column, (256, 256) the corner (04 R96, R110). -/
structure Upset where
  row : Nat
  col : Nat
  bit : Nat
  deriving DecidableEq, Repr

/-- One row-map entry (06 R168). -/
structure RowKey where
  entry : Nat
  key : Nat
  deriving DecidableEq, Repr

/-- A channel of a requantisation table (03 R64): gain, bias, activation. -/
structure Chan where
  gain : Int
  bias : Int
  act : Nat
  deriving DecidableEq, Repr

/-- A requantisation table (03 R63-R65): the fields that every entry shares once, and its channels. -/
structure ReqTable where
  addr : Nat
  biasExp : Int
  lutMask : Nat
  fmt : Nat
  layout : Nat
  clipRatio : Nat
  stochastic : Bool
  clipThresh : Nat
  adapt : Nat
  tensor : Nat
  chans : List Chan
  deriving DecidableEq, Repr

/-- A loadable lookup table (03 R72). -/
structure Lut where
  inShift : Int
  outShift : Int
  t : List Int
  deriving DecidableEq, Repr

/-- What a DRAIN instruction says of its tile, every register and slot read at issue (06 R167, R178); `table`: the requantisation
table, its row's fields as its entries gave them; `chans`: the entries of its channels, loaded from the table in the device range (03
R67). -/
structure DrainInfo where
  route : Nat
  frame : Bool
  dest : Nat
  status : Nat
  out : Option Slot
  table : Option ReqTable
  chans : List Chan
  ch0 : Nat
  rowMap : Option (List RowKey)
  rho : Option (List B32)
  aux : Nat
  rowBase : Nat
  gidx : Nat
  steps : List Nat
  predL : List Nat
  pc : Nat
  instr : IWord
  deriving DecidableEq, Repr

/-- Where a tile stands between its draining pass and its slot's leaving (04 R106-R112). -/
inductive TilePhase where
  | completing | shadow | slot | passed
  deriving DecidableEq, Repr

/-- A delivered tile. `grp`: what the cells hold; `seq`: the order of streaming; `retry`: its group is recomputed (R112); `mm`: row and
column of the first mismatch. -/
structure Tile where
  seq : Nat
  grp : Group
  phase : TilePhase
  drain : Option DrainInfo
  retry : Bool
  mm : Option (Nat × Nat)
  skipped : Bool
  pc : Nat
  instr : IWord
  deriving DecidableEq, Repr

/-- One lane of a reduction context (05 R136-R142). -/
structure Lane where
  aS : B32 := 0
  aE : B32 := 0
  bS : B32 := 0
  bE : B32 := 0
  n : Nat := 0
  deriving DecidableEq, Repr

/-- What a context is open as (05 R141 KIND 1-4). -/
inductive CtxKind where
  | sum | sumsq | meanvar | topk
  deriving DecidableEq, Repr

/-- A top-k entry (05 R147). -/
structure TopEntry where
  key : Nat
  pos : Nat
  deriving DecidableEq, Repr

/-- An open reduction context or top-k list (05 R134-R149). -/
structure Ctx where
  kind : CtxKind
  chainId : Nat
  next : Nat
  ovf : Bool := false
  nan : Bool := false
  lanes : List Lane := []
  kReq : Nat := 0
  entries : List TopEntry := []
  seen : Nat := 0
  deriving DecidableEq, Repr

/-- The five DMA instructions (06 R171). -/
inductive DmaKind where
  | into | out | gather | scatter | zone
  deriving DecidableEq, Repr

/-- One row of a DMA: scratchpad offset, device address or logical block, and whether its list entry is malformed. -/
structure DmaRow where
  sp : Nat
  dev : Nat
  bad : Bool
  deriving DecidableEq, Repr

/-- An outstanding DMA instruction (06 R171, R177). `data`: the bytes of an outgoing DMA as program order gives them
(R179), with the poisoned granules; `started`: it executes, the ones before it having completed (R177, R180); `far`: the device addresses of
the granules that it then asked of a peer (17 R507); `tags`: the requests still unanswered, with the scratchpad offset and the device address
of each one's bytes; `got`: granules that answers brought, with their offsets and poison, held until it completes (04 R113). -/
structure Dma where
  kind : DmaKind
  rows : List DmaRow
  grans : Nat
  data : List (List Byte)
  bad : List (List Bool)
  started : Bool
  far : List Nat
  tags : List (Nat × Nat × Nat)
  got : List (Nat × List Byte × Bool)
  pc : Nat
  instr : IWord
  deriving DecidableEq, Repr

/-- A SIG_ADD that waits for `dmaBefore` outstanding DMA instructions (06 R174); `tag` once it is sent to a remote
module. -/
structure PendingAdd where
  module : Nat
  cell : Nat
  value : Nat
  dmaBefore : Nat
  tag : Option Nat
  deriving DecidableEq, Repr

/-- A SIG_WAIT in progress (06 R173, R174). -/
structure CoreWait where
  module : Nat
  cell : Nat
  threshold : Nat
  holdsAll : Bool
  tag : Option Nat
  deriving DecidableEq, Repr

/-- An instruction that waits in the queue of its unit: it has read its registers and slots (06 R177, R178). -/
structure Issued where
  instr : IWord
  pc : Nat
  x : List Nat
  slots : Sparse Slot
  tables : Sparse Nat
  deriving DecidableEq, Repr

/-- What the sequencer does. -/
inductive CoreRun where
  | idle | running | atStepEnd | halted | stopped
  deriving DecidableEq, Repr

/-- One core. Unlisted scratchpad bytes read 0; `bad`: 8-byte words with an uncorrectable error or the poison pattern;
`rawCheck`: check bits planted by WRITE_RAW, by 8-byte word; `queue`: instructions that wait in the queues of their units, in program
order; `rawGranules`: granules that it wrote; `held`: writes of the reduction
unit that wait for an accumulation group to pass (04 R113; 06 R179). -/
structure Core where
  spad : Memory := []
  bad : List Nat := []
  rawCheck : Sparse Byte := []
  rawGranules : List Nat := []
  store : List IWord := []
  pc : Nat := 0
  x : List Nat := List.replicate 16 0
  loops : List LoopFrame := []
  slots : Sparse Slot := []
  tables : Sparse Nat := []
  run : CoreRun := .idle
  queue : List Issued := []
  rank : Nat := 0
  group : Option Group := none
  tiles : List Tile := []
  tileSeq : Nat := 0
  ctxs : Sparse Ctx := []
  dma : List Dma := []
  adds : List PendingAdd := []
  wait : Option CoreWait := none
  held : List (Nat × List Byte) := []
  mark : Option Nat := none
  deriving DecidableEq, Repr

end Sys2Proof.Machine
end

