-- ==== Sys2Proof/Machine/StateJob.lean ====
section
/-!
DEFINITION. StateJob.lean: bundles, the job queue, partitions and their jobs, cocoons (spec/07), prefetch schedules
(09 R258), and the sequence table (spec/08).
-/
namespace Sys2Proof.Machine

/-- A layer record of the prefetch schedule (09 R258). -/
structure LayerRec where
  first : Nat
  n : Nat
  deriving DecidableEq, Repr

/-- A range record of the prefetch schedule (09 R258). -/
structure RangeRec where
  addr : Nat
  pages : Nat
  place : Nat
  die : Nat
  shadow : Bool
  shadowAddr : Nat
  shadowPages : Nat
  deriving DecidableEq, Repr

/-- The prefetch schedule (09 R258). -/
structure Schedule where
  lead : Nat
  cyclic : Bool
  lsw : Nat
  lswEn : Bool
  stagePages : Nat
  layers : List LayerRec
  ranges : List RangeRec
  deriving DecidableEq, Repr

/-- The KV pool record (08 R211). -/
structure KvRecord where
  kvBytes : Nat
  contextLimit : Nat
  vocab : Nat
  evictPages : Nat
  deriving DecidableEq, Repr

/-- A calibration record (03 R91). -/
structure CalRec where
  tensor : Nat
  calL : Nat
  adaptive : Bool
  adaptIndex : Nat
  deriving DecidableEq, Repr

/-- A weight reference (07 R188 type 0x04): logical block, bytes, device address, CRC-32C. -/
structure WeightRef where
  lba : Nat
  len : Nat
  addr : Nat
  crc : Nat
  deriving DecidableEq, Repr

/-- The resource record (07 R194). -/
structure Resources where
  scratchKib : Nat
  bindings : Nat
  grants : Nat
  privStacked : Nat
  privBoard : Nat
  kvPagesMin : Nat
  adaptiveT : Nat
  liveKib : Nat
  descOffset : Nat
  descKib : Nat
  deriving DecidableEq, Repr

/-- An operator of the graph with the parameters that 07 R195 bounds. Lengths and counts are as its table states them;
`a` and `b` are the shapes of an elementwise operator's tensors; `eps` is a binary32 value; `mask` is 0 causal, 1 bidirectional, 2
sliding window; `align` is 0 causal, 1 centred; `form` is 0 depthwise, 1 full; `adapter` covers the forward and the backward
operator, `frozen` where its base weights are; `unknown` is any other operator. -/
inductive Operator where
  | linear (reduction channels : Nat)
  | embedding (rows elems : Nat)
  | gather (rows rowBytes : Nat)
  | scatter (rows rowBytes : Nat)
  | elementwise (a b : List Nat) (channels : Nat)
  | layerNorm (channels eps : Nat)
  | rmsNorm (channels eps : Nat)
  | activation (code : Nat)
  | attention (queryHeads kvHeads headDim context fmt mask : Nat)
  | decoder (layers : Nat)
  | encoder (layers tokens : Nat)
  | routing (experts chosen : Nat)
  | scan (width positions : Nat)
  | convolution (kernel channels align form : Nat)
  | reranker (pairs : Nat)
  | indexEncode (dim : Nat)
  | samplingHead (vocab : Nat)
  | adapter (rank : Nat) (frozen : Bool)
  | adapterUpdate (rows cols : Nat)
  | unknown
  deriving DecidableEq, Repr

/-- A weight tensor as an operator of the graph reads it (07 R188, R197): the operator's place, the tensor's number, whether it is
inline or in zones, its layout code, whether the backward pass of an adapter reads it along its other axis, and whether the graph
names a transposed copy of it in the standard layout. -/
structure WeightUse where
  op : Nat
  tensor : Nat
  zoned : Bool
  layout : Nat
  backward : Bool
  copied : Bool
  deriving DecidableEq, Repr

/-- What the bytes of PROGRAMS, GRAPH, WEIGHTS and TABLES say that the spec gives no byte layout for: program header
(06 R153; 12 R334), rank map (06 R151), the device regions the bundle declares (07 R191, R193) and the image bytes placed
in them (device address, image offset, length), the device address of each table, format and layout codes of the graph's tensors,
operators, the weights they read, tensor numbers and acyclicity (07 R195, R197), the bytes of the KV pool record of a generation
bundle, none where it has none (08 R211), the index-encode output of a query service (DESIGN CHOICE, log 39). -/
structure BundleView where
  programs : List (List IWord)
  stepEntry : Nat
  postEntry : Nat
  rankMap : List Nat
  declared : List (Nat × Nat)
  placed : List (Nat × Nat × Nat)
  tableAddrs : List Nat
  scaleBase : Nat
  codes : List (Nat × Nat)
  operators : List Operator
  weights : List WeightUse
  acyclic : Bool
  tensors : List Nat
  kv : List Byte
  queryDim : Nat
  deriving DecidableEq, Repr

/-- A loaded bundle (07 R186-R197). `kind`: 0 batch, 1 generation, 2 query service; `pages`: where its sections are placed; `kv`: its KV
pool record; `shadowBase`: the device address of its SHADOW section; `maps`: the mapping numbers of its weight references. -/
structure Bundle where
  handle : Nat
  release : Nat
  listed : Bool
  kind : Nat
  adapter : Bool
  partSizes : Nat
  id : Nat
  res : Resources
  view : BundleView
  kv : Option KvRecord
  tables : List ReqTable
  luts : List (Option Lut)
  cals : List CalRec
  refs : List WeightRef
  sched : Schedule
  hasShadow : Bool
  shadowBase : Option Nat
  live : List (Nat × Nat)
  maps : List Nat
  deriving DecidableEq, Repr

/-- A grant record (16 R475). -/
structure Grant where
  kind : Nat
  write : Bool
  count : Nat
  base : Nat
  deriving DecidableEq, Repr

/-- A binding record (16 R476). -/
structure Binding where
  slot : Nat
  cell : Nat
  module : Nat
  deriving DecidableEq, Repr

/-- An accepted job that has not been dispatched (07 R198, R199). `seq`: the place of its JOB_START in the fetch order; `handle`
names a cocoon where `resume` is set. -/
structure QueuedJob where
  number : Nat
  cmd : CmdRef
  seq : Nat
  handle : Nat
  resume : Bool
  partition : Nat
  priority : Nat
  shadow : Bool
  grants : List Grant
  binds : List Binding
  deriving DecidableEq, Repr

/-- The states of a job that a partition holds (07 R202). -/
inductive JobState where
  | dispatching | running | ending | parking | faulted
  deriving DecidableEq, Repr

/-- Where a running job's step stands: cores run; every core has arrived and a pass is due; held at the boundary after a
pass that packed nothing; the search phase of a query step is due; its post phase is due (06 R182; 12 R334). -/
inductive StepPhase where
  | run | boundary | held | search | post
  deriving DecidableEq, Repr

/-- A pending JOB_END or JOB_PARK, in acceptance order (07 R204). -/
structure PendingCmd where
  park : Bool
  cmd : CmdRef
  deriving DecidableEq, Repr

/-- A page of the staging area (09 R247, R255). -/
structure Staged where
  page : Nat
  die : Nat
  touch : Nat
  done : Option Nat
  deriving DecidableEq, Repr

/-- One sequence of the step in progress (08 R230). -/
structure WorkItem where
  entry : Nat
  decode : Bool
  lastChunk : Bool
  firstSlot : Nat
  rows : Nat
  row0 : Nat
  toks : List Nat
  deriving DecidableEq, Repr

/-- A step builder's read of the gate cell of a waiting entry on another module: `tag` once it is sent, `value` once it is answered (01 R29;
17 R510). -/
structure GateRead where
  entry : Nat
  module : Nat
  cell : Nat
  tag : Option Nat
  value : Option Nat
  deriving DecidableEq, Repr

/-- The scale state of a (sequence, adaptive tensor) pair as the step reads it (03 R83-R90): its scale, SAT, the clips of the
step in progress and since the sequence joined, its adaptations. -/
structure ScalePair where
  l : Nat
  sat : Bool := false
  step : Nat := 0
  total : Nat := 0
  adapts : Nat := 0
  deriving DecidableEq, Repr

/-- The job a partition runs (07 R202). `seq`: the place of its JOB_START in the fetch order; `cores`: active cores in rank order;
`privBase`, `pinBase`, `evictBase`, `sampleBase`, `descBase`: what dispatch allocated; `pool`: KV pool frames, `evictPages`: eviction
frames; `current`: the current layer, `judged`: layers judged this step, `shadowed`: layers run on the shadow path this step; `advances`:
current-layer advances since dispatch; `hints`: pages, with their dies, that stage hints name and that the engine has not taken up;
`queryStep`: queries and token rows of the query step in progress, `posted`: its post phase runs; `steps`: boundaries passed since
dispatch; `cocoon`, `cocoonBase`: the handle and the first page that a PARKING job takes; `resumes`: the
cocoon that a DISPATCHING job restores; `clips`: totals per tensor of 03 R80; `pairs`: by entry * 65536 + adaptive tensor
index; `again`: since the last pass a sequence command was accepted, SEQ_POLICY changed or a gate cell was written (08 R224); `gates`: gate reads sent for the pass to come. -/
structure Run where
  number : Nat
  bundle : Nat
  cmd : CmdRef
  seq : Nat
  priority : Nat
  shadow : Bool
  grants : List Grant
  binds : List Binding
  state : JobState := .running
  phase : StepPhase := .run
  posted : Bool := false
  queryStep : Option (Nat × Nat) := none
  steps : Nat := 0
  prologue : Bool := true
  first : Bool := true
  step : Nat := 0
  cores : List Nat := []
  lead : Nat := 0
  privBase : Nat := 0
  privPages : Nat := 0
  pinBase : Nat := 0
  pinPages : Nat := 0
  evictPages : Nat := 0
  pool : Nat := 0
  sampleBase : Nat := 0
  descBase : Nat := 0
  current : Option Nat := none
  judged : List Nat := []
  shadowed : List Nat := []
  timing : Bool := false
  advances : Nat := 0
  staging : List Staged := []
  hints : List (Nat × Nat) := []
  doneSeq : Nat := 0
  pendings : List PendingCmd := []
  parkCmd : Option CmdRef := none
  cocoon : Nat := 0
  cocoonBase : Nat := 0
  resumes : Option Nat := none
  work : List WorkItem := []
  satCount : Nat := 0
  clips : Sparse Nat := []
  pairs : Sparse ScalePair := []
  stepStart : Nat := 0
  again : Bool := false
  gates : List GateRead := []
  borrow : Option Nat := none
  deriving DecidableEq, Repr

/-- What a cocoon records of one core rank (06 R184; 07 R206); `bad`: poisoned words of its LIVE ranges. -/
structure RankState where
  x : List Nat
  ctxs : Sparse Ctx
  live : List (Nat × List Byte)
  bad : List Nat
  deriving DecidableEq, Repr

/-- The states of a sequence-table entry (08 R215, R217); a free entry is one that is not listed. -/
inductive SeqState where
  | waiting | running | idle | parked | dropped
  deriving DecidableEq, Repr

/-- A prompt segment as accepted (08 R218). -/
structure Seg where
  kind : Nat
  toks : List Nat
  addr : Nat
  count : Nat
  hdr : Nat
  countOff : Nat
  deriving DecidableEq, Repr

/-- A live entry of the sequence table (08 R215). Beside its fields: `segs`, the segments to be read at admission;
`toks`, the prompt tokens accepted and not yet prefilled; `lastTok`, the last token generated; `stop`, the end reason of
the step just closed; `ended`, its last record carried LAST; `seen`, the consumer word as last read (R235); `evicted`: its pages stand in
the eviction area; `root`, `leaves`, `kv`: the KV addresses held (R214). -/
structure SeqEntry where
  handle : Nat
  state : SeqState
  keep : Bool
  priority : Nat
  reason : Nat := 0
  prefill : Bool := false
  gated : Bool
  leaving : Bool := false
  age : Nat := 0
  arrival : Nat
  position : Nat := 0
  pending : Nat := 0
  seqStep : Nat := 0
  smode : Bool
  sampleK : Nat
  topP : Nat
  invTemp : Nat
  seed : Nat
  maxNew : Nat
  generated : Nat := 0
  stops : List Nat
  ringBase : Nat
  ringLog2 : Nat
  notify : Nat
  produced : Nat := 0
  consumer : Nat
  gateBind : Nat
  gateValue : Nat
  segs : List Seg
  toks : List Nat := []
  lastTok : Nat := 0
  stop : Nat := 0
  ended : Bool := false
  seen : Nat := 0
  evicted : Bool := false
  root : Option Nat := none
  leaves : List Nat := []
  kv : List Nat := []
  deriving DecidableEq, Repr

/-- A step policy (08 R223). -/
structure Policy where
  maxSeqs : Nat := 1024
  prefillBudget : Nat := 65536
  hostStepped : Bool := false
  deriving DecidableEq, Repr

/-- A leave accepted and not yet applied (08 R221). -/
structure PendingLeave where
  cmd : CmdRef
  partition : Nat
  entry : Nat
  deriving DecidableEq, Repr

/-- The sequence table and what waits for a pass (08 R215-R223). `snap`: the table after the last pass (16 R483). -/
structure Seqs where
  entries : Sparse SeqEntry := []
  snap : Sparse SeqEntry := []
  leaves : List PendingLeave := []
  steps : List (CmdRef × Nat) := []
  policy : List Policy := List.replicate 4 {}
  next : List (Option Policy) := List.replicate 4 none
  arrival : List Nat := [0, 0, 0, 0]
  deriving DecidableEq, Repr

/-- A cocoon (07 R206). `entries`: its sequences by their old entry place. Its board pages begin at page `base` with the contents of its
private regions: `privPages` pages of private board memory, the scale-state records among them, `samplePages` pages of the sample or hit
area, `pinPages` pages of private stacked memory (DESIGN CHOICE, log 118). -/
structure Cocoon where
  handle : Nat
  bundle : Nat
  step : Nat
  ranks : List RankState
  entries : List (Nat × SeqEntry)
  base : Nat
  privPages : Nat
  samplePages : Nat
  pinPages : Nat
  deriving DecidableEq, Repr

/-- A partition (01 R23, 07 R202). -/
structure Part where
  job : Option Run := none
  writeback : Bool := false
  deriving DecidableEq, Repr

/-- Bundles, jobs and cocoons. -/
structure Jobs where
  bundles : List Bundle := []
  queue : List QueuedJob := []
  parts : List Part := List.replicate 4 {}
  cocoons : List Cocoon := []
  deriving DecidableEq, Repr

end Sys2Proof.Machine
end

