-- ==== Sys2Proof/Wire.lean ====
section
/-!
DEFINITION. Wire.lean: what travels on a Wyrdlink port: messages and flits (17 R499, R502, R503). They are operands of
commands and contents of the state.
-/
namespace Sys2Proof

/-- A message (17 R502). `cls` and `op` are the codes of R501 and R503; `len` is LEN_M1 + 1. -/
structure Msg where
  cls : Nat
  op : Nat
  poison : Bool
  tag : Nat
  src : Nat
  dst : Nat
  addr : Nat
  len : Nat
  rstatus : Nat
  payload : List Byte
  deriving DecidableEq, Repr

/-- The fields of a flit (17 R499): `first` is the offset of the first message that begins in it, in 16-byte units, 0xFF for none;
`payload` its 240 bytes of messages of class `cls`; `crClass` and `crUnits` the credits that it returns. -/
structure Flit where
  seq : Nat
  ack : Nat
  nak : Bool
  cls : Nat
  idle : Bool
  first : Nat
  payload : List Byte
  crClass : Nat
  crUnits : Nat
  deriving DecidableEq, Repr

end Sys2Proof
end

