-- ==== Sys2Proof/Machine/Inputs.lean ====
section
/-!
DEFINITION. Inputs.lean: what the outside supplies with a command: reads of host memory (DESIGN CHOICE, log 9), findings of the error
correcting codes (DESIGN CHOICE, log 10), sensor readings. They are operands of the constructors of Instr.
-/
namespace Sys2Proof.Machine

/-- What a controller finds at a code word that it reads: a corrected error, or an uncorrectable one where `ue` is set
(10 R280, R281). `granule` is the word's number: an address divided by 64, in a scratchpad an offset divided by 8, in a scrub the key of
the granule in its frame. -/
structure Finding where
  granule : Nat
  ue : Bool
  deriving DecidableEq, Repr

/-- An operand, and what the decoders find at the words that its command reads (DESIGN CHOICE, log 10). -/
structure WithFound (α : Type) where
  val : α
  found : List Finding
  deriving DecidableEq, Repr

/-- What the module reads of the buffers of the command `cid` of queue `qid`: the bytes of each buffer, or none where the read
of host memory fails (14 R410). A buffer that is not listed is a failed read. `found`: what the decoders find at the granules that the
command reads of the device range (DESIGN CHOICE, log 10). -/
structure HostCmd where
  qid : Nat
  cid : Nat
  bufs : List (Nat × Option (List Byte))
  found : List Finding := []
  deriving DecidableEq, Repr

/-- The command that a HostCmd names. -/
abbrev HostCmd.ref (h : HostCmd) : CmdRef := ⟨h.qid, h.cid⟩

/-- A read of a command packet: ring index, and its sixteen dwords or none where the read fails (14 R410). -/
structure PacketRead where
  qid : Nat
  index : Nat
  packet : Option (List Word)
  deriving DecidableEq, Repr

/-- A read of host memory: address, and its bytes or none where the read fails. -/
structure HostRead where
  addr : Nat
  bytes : Option (List Byte)
  deriving DecidableEq, Repr

/-- Where a register access goes: a write of BAR0; a read of BAR0, for the registers that a read moves; a Block Write on the sideband to a
7-bit address, with its PEC; or configuration space: the MSI-X Message Control word, the Device Control word, a BAR dword of the header
(14 R400-R402; 22 R613). -/
inductive RegSpace where
  | bar0 | bar0Read
  | sideband (addr : Nat) (pec : Nat)
  | config | devControl | header | poisoned
  deriving DecidableEq, Repr

/-- What a management core brings to its vector fetch: how many deliveries it has returned from, and the sources that the imago's own masks
hold (18 R537). -/
structure MgmtFetch where
  returns : Nat
  masked : List Nat
  deriving DecidableEq, Repr

/-- What training finds of the other side of a port: identifier, stepping, protocol version, lanes trained, width (17 R498). -/
structure PortPeer where
  id : Nat
  stepping : Nat
  version : Nat
  lanes : Nat
  width : Nat
  deriving DecidableEq, Repr

/-- What tests of a self-test find: their masks (15 R459), whether its last test is among them, and what the decoders find in the CHECK scrub
of the extended test (R458). -/
structure SelfTestFound where
  masks : SelfTestMasks
  last : Bool := true
  scrub : List Finding := []
  deriving DecidableEq, Repr

/-- What the delivery of flash pages finds: blocks that the code cannot correct, and blocks that needed shifted read levels (13 R376). -/
structure PageFound where
  lost : List Nat
  shifted : List Nat := []
  deriving DecidableEq, Repr

/-- The shape of a host read: bytes `off` on of a read of `n` bytes. -/
def HostCmd.buf (h : HostCmd) (b : Nat) : Option (List Byte) :=
  match h.bufs.find? fun e => e.1 == b with
  | some e => e.2
  | none => none

end Sys2Proof.Machine
end

