-- ==== Sys2Proof/Syntax.lean ====
section
/-!
DEFINITION. Syntax.lean: the commands of the module: one constructor per row of spec/opcode_table.json. The operands are
what the row needs: the core, partition, port or queue it is about, the instruction word, and what the outside supplies
(bytes of host memory, DESIGN CHOICE, log 9; findings of the error correcting codes, DESIGN CHOICE, log 10; sensor readings; outcomes of a program or an
erase). A row of the command set names its command by queue and CID; the packet stands in the queue's state.
-/
namespace Sys2Proof
open Machine

/-- A command of the module; each docstring gives the rule of the row. -/
inductive Instr where
  /-- NOP: R155. -/
  | nop (n : Nat) (w : IWord)
  /-- LOOP: R159. -/
  | loop (n : Nat) (w : IWord)
  /-- ADDX: R155. -/
  | addx (n : Nat) (w : IWord)
  /-- MULX: R155. -/
  | mulx (n : Nat) (w : IWord)
  /-- TEST: R160. -/
  | test (n : Nat) (w : IWord) (found : List Finding)
  /-- JUMP: R160. -/
  | jump (n : Nat) (w : IWord)
  /-- FENCE: R161. -/
  | fence (n : Nat) (w : IWord)
  /-- STEP_END: R182. -/
  | stepEnd (n : Nat) (w : IWord)
  /-- HALT: R183. -/
  | halt (n : Nat) (w : IWord)
  /-- TRAP: R161. -/
  | trap (n : Nat) (w : IWord)
  /-- STREAM: R162. -/
  | stream (n : Nat) (w : IWord)
  /-- TABLE: R163. -/
  | table (n : Nat) (w : IWord)
  /-- PASS: R164. -/
  | pass (n : Nat) (w : IWord) (found : List Finding)
  /-- DRAIN: R167. -/
  | drain (n : Nat) (w : WithFound IWord) (found : List Finding)
  /-- RED_OPEN: R170. -/
  | redOpen (n : Nat) (w : IWord) (found : List Finding)
  /-- RED_FEED: R170. -/
  | redFeed (n : Nat) (w : IWord) (found : List Finding)
  /-- RED_FINISH: R139. -/
  | redFinish (n : Nat) (w : WithFound IWord)
  /-- RED_STORE: R170. -/
  | redStore (n : Nat) (w : WithFound IWord)
  /-- TOPK_OPEN: R148. -/
  | topkOpen (n : Nat) (w : IWord) (found : List Finding)
  /-- TOPK_FEED: R170. -/
  | topkFeed (n : Nat) (w : IWord) (found : List Finding)
  /-- TOPK_MERGE: R149. -/
  | topkMerge (n : Nat) (w : IWord) (found : List Finding)
  /-- TOPK_STORE: R170. -/
  | topkStore (n : Nat) (w : WithFound IWord)
  /-- DMA_IN: R171. -/
  | dmaIn (n : Nat) (w : IWord) (found : List Finding)
  /-- DMA_OUT: R171. -/
  | dmaOut (n : Nat) (w : IWord) (found : List Finding)
  /-- DMA_GATHER: R171. -/
  | dmaGather (n : Nat) (w : IWord) (found : List Finding)
  /-- DMA_SCATTER: R171. -/
  | dmaScatter (n : Nat) (w : IWord) (found : List Finding)
  /-- DMA_ZONE: R171. -/
  | dmaZone (n : Nat) (w : IWord) (found : List Finding)
  /-- DMA_COMPLETE: R180. -/
  | dmaComplete (n : Nat) (found : List Finding)
  /-- CORE_SIG_WAIT: R174. -/
  | coreSigWait (n : Nat) (w : IWord)
  /-- CORE_SIG_WAIT_COMPLETE: R174. -/
  | coreSigWaitComplete (n : Nat)
  /-- CORE_SIG_ADD: R174. -/
  | coreSigAdd (n : Nat) (w : IWord)
  /-- PF_HINT_STAGE: R176. -/
  | pfHintStage (n : Nat) (w : IWord)
  /-- PF_HINT_DONE: R176. -/
  | pfHintDone (n : Nat) (w : IWord)
  /-- LAYER_MARK: R262. -/
  | layerMark (n : Nat) (w : IWord)
  /-- PAGE_COPY_DONE: R248. -/
  | pageCopyDone (page : Nat) (found : List Finding)
  /-- TILE_COMPLETE: R106. -/
  | tileComplete (n : Nat) (upsets : WithFound (List Upset))
  /-- TILE_COMPARE: R110. -/
  | tileCompare (n : WithFound Nat)
  /-- SLOT_LEAVE: R108. -/
  | slotLeave (n : WithFound (WithFound Nat))
  /-- ATOMIC_PASS: R224. -/
  | atomicPass (p : Nat) (reads : List HostRead) (gates : Bool) (found : List Finding)
  /-- QUERY_SEARCH_PHASE: R334. -/
  | querySearchPhase (p : Nat) (found : List Finding)
  /-- QUERY_POST_PHASE: R334. -/
  | queryPostPhase (p : Nat)
  /-- CORE_BORROW: R575. -/
  | coreBorrow (p : Nat) (failed : Bool)
  /-- JOB_DISPATCH: R201. -/
  | jobDispatch (p : WithFound Nat)
  /-- COCOON_WRITTEN: R206. -/
  | cocoonWritten (p : WithFound (WithFound Nat))
  /-- JOB_ENDED: R202. -/
  | jobEnded (p : Nat) (reads : List HostRead) (found : List Finding)
  /-- FAULT_DETECT: R566. -/
  | faultDetect (reads : List HostRead)
  /-- WRITEBACK_DONE: R257. -/
  | writebackDone (p : Nat) (found : List Finding)
  /-- BAR2_READ: R244. -/
  | bar2Read (off n : Nat) (found : List Finding)
  /-- BAR2_WRITE: R244. -/
  | bar2Write (off : Nat) (bytes : List Byte) (found : List Finding)
  /-- SCRUB_COMPLETE: R291. -/
  | scrubComplete (qid cid : Nat) (found : List Finding)
  /-- BACKGROUND_SCRUB_FRAME: R292. -/
  | backgroundScrubFrame (found : List Finding)
  /-- RESERVED_MEMORY_SWEEP: R283. -/
  | reservedMemorySweep (plain : List (Nat × Option CmdRef)) (described : List (Nat × List Nat))
  /-- WRITE_RAW: R294. -/
  | writeRaw
  /-- READ_RAW: R294. -/
  | readRaw
  /-- READ_CHECKED: R294. -/
  | readChecked (found : List Finding)
  /-- ECC_TEST_DISABLE: R296. -/
  | eccTestDisable
  /-- INDEX_FEED_CONSUME: R316. -/
  | indexFeedConsume (n : WithFound Nat)
  /-- COMPACTION_BUILT: R322. -/
  | compactionBuilt (qid : Nat) (cid : WithFound Nat)
  /-- RECLAIM_RESET: R323. -/
  | reclaimReset (qid cid : Nat)
  /-- ZONE_SEQUENCE: R368. -/
  | zoneSequence (qid cid : Nat)
  /-- ZONE_REPLY_POINT: R369. -/
  | zoneReplyPoint (z : Nat)
  /-- ZONE_ERASE_COMPLETE: R371. -/
  | zoneEraseComplete (z : Nat) (failed : List Nat)
  /-- UNIT_PROGRAM_COMPLETE: R378. -/
  | unitProgramComplete (z u : Nat) (ok : Bool)
  /-- DIE_SUSPEND: R382. -/
  | dieSuspend (d : Nat)
  /-- DIE_RESUME: R382. -/
  | dieResume (d : Nat)
  /-- HOLDUP_CHECK: R375. -/
  | holdupCheck (ok : Bool)
  /-- JOURNAL_CHECKPOINT: R387. -/
  | journalCheckpoint
  /-- READ_LEVEL_CALIBRATION: R576. -/
  | readLevelCalibration (d : Nat)
  /-- POWER_LOSS: R373. -/
  | powerLoss (landed : List Nat) (saved : Bool)
  /-- SQ_TAIL_DOORBELL: R414. -/
  | sqTailDoorbell (qid v : Nat)
  /-- CQ_HEAD_DOORBELL: R414. -/
  | cqHeadDoorbell (qid v : Nat)
  /-- COMMAND_FETCH: R415. -/
  | commandFetch (reads : List PacketRead)
  /-- COMMAND_BEGIN: R416. -/
  | commandBegin (qid : Nat) (reads : List HostRead)
  /-- GEN_AQ_ATTR_WRITE: R404. -/
  | genAqAttrWrite (v : Nat)
  /-- QUEUE0_RESTART: R429. -/
  | queue0Restart (v : Nat) (reads : List PacketRead)
  /-- COALESCE_TIMER: R434. -/
  | coalesceTimer (qid : Nat)
  /-- FUNCTION_LEVEL_RESET: R435. -/
  | functionLevelReset
  /-- HOT_RESET: R589. -/
  | hotReset (speed width : Nat)
  /-- IDENTIFY: R444. -/
  | identify (h : HostCmd)
  /-- LOG_READ: R447. -/
  | logRead (h : HostCmd)
  /-- FEATURE_GET: R449. -/
  | featureGet (h : HostCmd)
  /-- FEATURE_SET: R450. -/
  | featureSet (h : HostCmd) (tallyOk : Bool)
  /-- FW_DOWNLOAD: R453. -/
  | fwDownload (h : HostCmd)
  /-- FW_COMMIT: R454. -/
  | fwCommit (h : HostCmd)
  /-- FW_COMMIT_COMPLETE: R454. -/
  | fwCommitComplete
  /-- FW_ACTIVATE: R455. -/
  | fwActivate (h : HostCmd)
  /-- IMAGO_RESTART: R456. -/
  | imagoRestart (ok : Bool)
  /-- SELF_TEST: R457. -/
  | selfTest (h : HostCmd)
  /-- SELF_TEST_COMPLETE: R459. -/
  | selfTestComplete (found : SelfTestFound)
  /-- PROTECTION_SET: R460. -/
  | protectionSet (h : HostCmd) (tallyOk : Bool)
  /-- PARTITION_SET: R462. -/
  | partitionSet (h : HostCmd)
  /-- LAYOUT_CHANGE: R462. -/
  | layoutChange
  /-- TALLY_QUERY: R463. -/
  | tallyQuery (h : HostCmd)
  /-- QUEUE_CREATE: R405. -/
  | queueCreate (h : HostCmd)
  /-- QUEUE_DELETE: R406. -/
  | queueDelete (h : HostCmd)
  /-- QUEUE_RESTART: R428. -/
  | queueRestart (h : HostCmd) (reads : List PacketRead)
  /-- ABORT: R431. -/
  | abort (h : HostCmd) (reads : List HostRead)
  /-- ZONE_READ: R370. -/
  | zoneRead (h : HostCmd)
  /-- ZONE_WRITE: R368. -/
  | zoneWrite (h : HostCmd)
  /-- ZONE_APPEND: R368. -/
  | zoneAppend (h : HostCmd)
  /-- ZONE_RESET: R371. -/
  | zoneReset (h : HostCmd)
  /-- ZONE_FINISH: R372. -/
  | zoneFinish (h : HostCmd)
  /-- ZONE_REPORT: R381. -/
  | zoneReport (h : HostCmd)
  /-- SF_READ: R391. -/
  | sfRead (h : HostCmd)
  /-- SF_PROGRAM: R391. -/
  | sfProgram (h : HostCmd)
  /-- SF_ERASE: R391. -/
  | sfErase (h : HostCmd)
  /-- SF_INFO: R388. -/
  | sfInfo (h : HostCmd)
  /-- MEM_ALLOC: R250. -/
  | memAlloc (h : HostCmd)
  /-- MEM_FREE: R250. -/
  | memFree (h : HostCmd)
  /-- MEM_MAP_ZONE: R251. -/
  | memMapZone (h : HostCmd)
  /-- MEM_UNMAP: R252. -/
  | memUnmap (h : HostCmd)
  /-- MEM_QUERY: R472. -/
  | memQuery (h : HostCmd)
  /-- MEM_SCRUB: R288. -/
  | memScrub (h : HostCmd)
  /-- BUNDLE_LOAD: R191. -/
  | bundleLoad (h : HostCmd) (v : BundleView) (bad : List Nat)
  /-- BUNDLE_UNLOAD: R193. -/
  | bundleUnload (h : HostCmd)
  /-- JOB_START: R198. -/
  | jobStart (h : HostCmd)
  /-- JOB_END: R204. -/
  | jobEnd (h : HostCmd)
  /-- JOB_PARK: R205. -/
  | jobPark (h : HostCmd)
  /-- JOB_ABORT: R204. -/
  | jobAbort (h : HostCmd) (reads : List HostRead)
  /-- COCOON_DISCARD: R207. -/
  | cocoonDiscard (h : HostCmd)
  /-- SEQ_JOIN: R219. -/
  | seqJoin (h : HostCmd)
  /-- SEQ_FEED: R220. -/
  | seqFeed (h : HostCmd)
  /-- SEQ_LEAVE: R221. -/
  | seqLeave (h : HostCmd)
  /-- SEQ_STEP: R482. -/
  | seqStep (h : HostCmd)
  /-- SEQ_QUERY: R483. -/
  | seqQuery (h : HostCmd)
  /-- SEQ_POLICY: R223. -/
  | seqPolicy (h : HostCmd)
  /-- INDEX_CREATE: R300. -/
  | indexCreate (h : HostCmd)
  /-- INDEX_DESTROY: R325. -/
  | indexDestroy (h : HostCmd)
  /-- INDEX_INSERT: R317. -/
  | indexInsert (h : HostCmd)
  /-- INDEX_DELETE: R317. -/
  | indexDelete (h : HostCmd)
  /-- INDEX_COMMIT: R319. -/
  | indexCommit (h : HostCmd)
  /-- INDEX_REBALANCE: R321. -/
  | indexRebalance (h : HostCmd)
  /-- INDEX_COMPACT: R322. -/
  | indexCompact (h : HostCmd)
  /-- INDEX_REBUILD: R324. -/
  | indexRebuild (h : HostCmd)
  /-- INDEX_ADD_ZONES: R314. -/
  | indexAddZones (h : HostCmd)
  /-- INDEX_INFO: R487. -/
  | indexInfo (h : HostCmd)
  /-- QUERY: R330. -/
  | query (h : HostCmd)
  /-- QUERY_MERGE: R357. -/
  | queryMerge (h : HostCmd)
  /-- FILTER_LOAD: R350. -/
  | filterLoad (h : HostCmd)
  /-- FILTER_FREE: R351. -/
  | filterFree (h : HostCmd)
  /-- SIG_READ: R490. -/
  | sigRead (h : HostCmd)
  /-- SIG_SET: R491. -/
  | sigSet (h : HostCmd)
  /-- SIG_ADD: R492. -/
  | sigAdd (h : HostCmd)
  /-- SIG_WAIT: R490. -/
  | sigWait (h : HostCmd)
  /-- SIG_WAIT_TIMEOUT: R490. -/
  | sigWaitTimeout (qid cid : Nat)
  /-- SIG_CELL_WRITE: R494. -/
  | sigCellWrite (n v : Nat)
  /-- PORT_TRAIN: R497. -/
  | portTrain (p : Nat)
  /-- PORT_TRAINED: R498. -/
  | portTrained (p : Nat) (peer : Option PortPeer)
  /-- LANE_LOCK_LOSS: R500. -/
  | laneLockLoss (p : Nat)
  /-- FAST_RETRAIN_DONE: R497. -/
  | fastRetrainDone (p : Nat) (ok : Option PortPeer)
  /-- FLIT_RECEIVE: R500. -/
  | flitReceive (p : Nat) (bytes : List Byte)
  /-- WL_READ: R508. -/
  | wlRead (found : List Finding)
  /-- WL_WRITE: R512. -/
  | wlWrite (found : List Finding)
  /-- WL_SIG_READ: R510. -/
  | wlSigRead
  /-- WL_SIG_SET: R510. -/
  | wlSigSet
  /-- WL_SIG_ADD: R510. -/
  | wlSigAdd
  /-- WL_SIG_WAIT: R510. -/
  | wlSigWait
  /-- READ_DATA: R509. -/
  | readData
  /-- WRITE_ACK: R512. -/
  | writeAck
  /-- SIG_DATA: R510. -/
  | sigData
  /-- HEARTBEAT_SEND: R516. -/
  | heartbeatSend
  /-- HEARTBEAT: R516. -/
  | heartbeat (p : Nat)
  /-- HEARTBEAT_LOSS: R517. -/
  | heartbeatLoss (p : Nat)
  /-- LINK_DOWN: R516. -/
  | linkDown
  /-- DEPARTING: R516. -/
  | departing
  /-- PEER_JOB_FAULT: R516. -/
  | peerJobFault
  /-- REQUEST_TIMEOUT: R519. -/
  | requestTimeout (tag : Nat)
  /-- WATCH_RENEW: R510. -/
  | watchRenew
  /-- WATCH_RESEND: R510. -/
  | watchResend (tag : Nat)
  /-- ROUTE_WRITE: R504. -/
  | routeWrite (v : Nat)
  /-- PORT_DISABLE: R497. -/
  | portDisable (p : Nat)
  /-- RETRAIN: R523. -/
  | retrain (p : Nat)
  /-- APERTURE_ENABLE: R507. -/
  | apertureEnable (a v : Nat)
  /-- CABLE_PRESENT: R619. -/
  | cablePresent (p : Nat) (on : Bool)
  /-- EVC_EOI: R533. -/
  | evcEoi (n : Nat)
  /-- MSIX_EMISSION: R535. -/
  | msixEmission
  /-- MGMT_VECTOR_FETCH: R537. -/
  | mgmtVectorFetch (c : Nat) (fetch : MgmtFetch)
  /-- WATCH_CTRL_WRITE: R541. -/
  | watchCtrlWrite (w v : Nat)
  /-- ANTENNA_WAKE: R538. -/
  | antennaWake (pcie : Bool)
  /-- SB_WAKE: R614. -/
  | sbWake
  /-- IDLE_TIMER_PS1: R552. -/
  | idleTimerPs1
  /-- IDLE_TIMER_PS2: R552. -/
  | idleTimerPs2
  /-- IDLE_TIMER_PS3: R552. -/
  | idleTimerPs3
  /-- ENTRY_STEP_DONE: R559. -/
  | entryStepDone (saved : Bool)
  /-- POWER_WAKE: R554. -/
  | powerWake (ns : Nat)
  /-- PWR_CTRL_WRITE: R561. -/
  | pwrCtrlWrite (v : Nat)
  /-- D_STATE_CHANGE: R557. -/
  | dStateChange (d3hot l2 : Bool)
  /-- POWER_LIMIT_TICK: R547. -/
  | powerLimitTick (watts vin : Nat) (vcore rate : List Nat)
  /-- THERMAL_TICK: R548. -/
  | thermalTick (d : Nat) (t : Int)
  /-- THERMAL_TRIP: R549. -/
  | thermalTrip (d : Nat) (t : Int)
  /-- HUB_THERMAL_HOLD: R570. -/
  | hubThermalHold (t : Int)
  /-- HUB_HOLD_END: R570. -/
  | hubHoldEnd (t : Int)
  /-- HUB_SHUTDOWN: R570. -/
  | hubShutdown (t : Int) (landed : List Nat) (saved : Bool)
  /-- WATCHDOG_EXPIRY: R568. -/
  | watchdogExpiry (c : Nat) (begun : List CmdRef)
  /-- AUTO_RESET: R569. -/
  | autoReset (landed : List Nat) (saved : Bool)
  /-- FLT_RESET: R579. -/
  | fltReset (v : Nat) (landed : List Nat) (saved : Bool)
  /-- PERST_ASSERT: R589. -/
  | perstAssert (landed : List Nat) (saved : Bool)
  /-- PWREN_LOW: R612. -/
  | pwrenLow (landed : List Nat) (saved : Bool)
  /-- LIFETIME_SNAPSHOT: R581. -/
  | lifetimeSnapshot (ok : Bool)
  /-- STARTUP_STAGE: R590. -/
  | startupStage (stop : Option Nat) (failed : List Nat) (speed width : Nat)
  /-- SENSE_MAKE: R609. -/
  | senseMake
  /-- SENSE_BREAK: R609. -/
  | senseBreak (landed : List Nat) (saved : Bool)
  /-- INPUT_RANGE_CHANGE: R617. -/
  | inputRangeChange (mv : Nat)
  /-- INPUT_OVERVOLTAGE: R617. -/
  | inputOvervoltage (mv : Nat) (landed : List Nat) (saved : Bool)
  /-- SB_KEY_INSTALL: R615. -/
  | sbKeyInstall (fine : Bool)
  /-- SB_KEY_REMOVE: R615. -/
  | sbKeyRemove (fine : Bool)
  /-- BYPASS: R623. -/
  | bypass
  /-- IDCODE: R623. -/
  | idcode
  /-- SAMPLE_PRELOAD: R623. -/
  | samplePreload (pins preload : List Nat)
  /-- EXTEST: R623. -/
  | extest (pins cells : List Nat)
  /-- CLAMP: R623. -/
  | clamp
  /-- HIGHZ: R623. -/
  | highz
  /-- DEBUG_INSTRUCTION: R623. -/
  | debugInstruction
  /-- REGISTER_WRITE: R12. -/
  | registerWrite (space : RegSpace) (o size v : Nat)
  /-- PERST_DEASSERT: R593. -/
  | perstDeassert (speed width : Nat)
  /-- PWREN_HIGH: R612. -/
  | pwrenHigh
  /-- FLASH_READ_COMPLETE: R377. -/
  | flashReadComplete (first n : Nat) (found : PageFound)
  /-- SF_OPERATION_COMPLETE: R391. -/
  | sfOperationComplete
  /-- AUX_POWER_CHANGE: R611. -/
  | auxPowerChange (on : Bool) (straps : Nat)
  deriving DecidableEq, Repr

end Sys2Proof
end

