-- ==== Sys2Proof/Decode.lean ====
section
/-!
DEFINITION. Decode.lean: the spec gives the commands of this block no instruction word: no row of its table has bits.
-/
namespace Sys2Proof

/-- The command a word of the table spells: none, for the table gives no row any bits. -/
def decodeTableWord (_nbits _w : Nat) : Option Instr := none

end Sys2Proof
end

