-- ==== Sys2Proof/Machine/Crypto.lean ====
section
/-!
DEFINITION. Crypto.lean: the algorithms that the spec names by their standards: SHA-384 (FIPS 180-4), ECDSA over P-384 (FIPS
186-5), AES-256 (FIPS 197), XTS-AES-256 (IEEE 1619), the AES key wrap (RFC 3394), and CRC-32C (07 R189, R190; 13 R394; 15 R454; 21
R602; 22 R615; log 6).
-/
namespace Sys2Proof.Machine

/-! ## CRC-32C -/

/-- One step of CRC-32C for a bit (07 R189). -/
def crcBit (c : BitVec 32) : BitVec 32 := if c.getLsbD 0 then (c >>> 1) ^^^ 0x82F63B78 else c >>> 1

/-- One byte of CRC-32C. -/
def crcByte (c : BitVec 32) (b : Byte) : BitVec 32 :=
  crcBit (crcBit (crcBit (crcBit (crcBit (crcBit (crcBit (crcBit (c ^^^ b.zeroExtend 32))))))))

/-- CRC-32C: Castagnoli polynomial, reflected, initial value and final XOR all ones (07 R189). -/
def crc32c (bs : List Byte) : Nat := ((bs.foldl crcByte 0xFFFFFFFF) ^^^ 0xFFFFFFFF).toNat

/-- The number of a byte string, most significant byte first. -/
def beNat (bs : List Byte) : Nat := leNat bs.reverse

/-- The `n` bytes of `x`, most significant first. -/
def beBytes (n x : Nat) : List Byte := (leBytes n x).reverse

/-! ## SHA-384 -/

/-- The constants of the 80 rounds of SHA-512. -/
def shaRounds : List Nat :=
  [0x428A2F98D728AE22, 0x7137449123EF65CD, 0xB5C0FBCFEC4D3B2F, 0xE9B5DBA58189DBBC] ++
  [0x3956C25BF348B538, 0x59F111F1B605D019, 0x923F82A4AF194F9B, 0xAB1C5ED5DA6D8118] ++
  [0xD807AA98A3030242, 0x12835B0145706FBE, 0x243185BE4EE4B28C, 0x550C7DC3D5FFB4E2] ++
  [0x72BE5D74F27B896F, 0x80DEB1FE3B1696B1, 0x9BDC06A725C71235, 0xC19BF174CF692694] ++
  [0xE49B69C19EF14AD2, 0xEFBE4786384F25E3, 0x0FC19DC68B8CD5B5, 0x240CA1CC77AC9C65] ++
  [0x2DE92C6F592B0275, 0x4A7484AA6EA6E483, 0x5CB0A9DCBD41FBD4, 0x76F988DA831153B5] ++
  [0x983E5152EE66DFAB, 0xA831C66D2DB43210, 0xB00327C898FB213F, 0xBF597FC7BEEF0EE4] ++
  [0xC6E00BF33DA88FC2, 0xD5A79147930AA725, 0x06CA6351E003826F, 0x142929670A0E6E70] ++
  [0x27B70A8546D22FFC, 0x2E1B21385C26C926, 0x4D2C6DFC5AC42AED, 0x53380D139D95B3DF] ++
  [0x650A73548BAF63DE, 0x766A0ABB3C77B2A8, 0x81C2C92E47EDAEE6, 0x92722C851482353B] ++
  [0xA2BFE8A14CF10364, 0xA81A664BBC423001, 0xC24B8B70D0F89791, 0xC76C51A30654BE30] ++
  [0xD192E819D6EF5218, 0xD69906245565A910, 0xF40E35855771202A, 0x106AA07032BBD1B8] ++
  [0x19A4C116B8D2D0C8, 0x1E376C085141AB53, 0x2748774CDF8EEB99, 0x34B0BCB5E19B48A8] ++
  [0x391C0CB3C5C95A63, 0x4ED8AA4AE3418ACB, 0x5B9CCA4F7763E373, 0x682E6FF3D6B2B8A3] ++
  [0x748F82EE5DEFB2FC, 0x78A5636F43172F60, 0x84C87814A1F0AB72, 0x8CC702081A6439EC] ++
  [0x90BEFFFA23631E28, 0xA4506CEBDE82BDE9, 0xBEF9A3F7B2C67915, 0xC67178F2E372532B] ++
  [0xCA273ECEEA26619C, 0xD186B8C721C0C207, 0xEADA7DD6CDE0EB1E, 0xF57D4F7FEE6ED178] ++
  [0x06F067AA72176FBA, 0x0A637DC5A2C898A6, 0x113F9804BEF90DAE, 0x1B710B35131C471B] ++
  [0x28DB77F523047D84, 0x32CAAB7B40C72493, 0x3C9EBE0A15C9BEBC, 0x431D67C49C100D4C] ++
  [0x4CC5D4BECB3E42B6, 0x597F299CFC657E2A, 0x5FCB6FAB3AD6FAEC, 0x6C44198C4A475817]

/-- The initial hash value of SHA-384. -/
def shaInit : List Nat :=
  [0xCBBB9D5DC1059ED8, 0x629A292A367CD507, 0x9159015A3070DD17, 0x152FECD8F70E5939] ++
  [0x67332667FFC00B31, 0x8EB44A8768581511, 0xDB0C2E0D64F98FA7, 0x47B5481DBEFA4FA4]

/-- A 64-bit word rotated right. -/
def rotr (x n : Nat) : Nat := (x / 2 ^ n ||| x * 2 ^ (64 - n)) % 2 ^ 64

/-- The message schedule after its first 16 words, newest word first. -/
def shaExpand : Nat → List Nat → List Nat
  | 0, w => w
  | k + 1, w =>
    let a := w.getD 14 0
    let b := w.getD 1 0
    let s0 := rotr a 1 ^^^ rotr a 8 ^^^ a / 2 ^ 7
    let s1 := rotr b 19 ^^^ rotr b 61 ^^^ b / 2 ^ 6
    shaExpand k ((w.getD 15 0 + s0 + w.getD 6 0 + s1) % 2 ^ 64 :: w)

/-- The eight working variables. -/
structure ShaVars where
  a : Nat
  b : Nat
  c : Nat
  d : Nat
  e : Nat
  f : Nat
  g : Nat
  h : Nat
  deriving DecidableEq, Repr

/-- One round, with its constant and schedule word. -/
def shaRound (v : ShaVars) (kw : Nat × Nat) : ShaVars :=
  let s1 := rotr v.e 14 ^^^ rotr v.e 18 ^^^ rotr v.e 41
  let ch := (v.e &&& v.f) ^^^ ((2 ^ 64 - 1 - v.e) &&& v.g)
  let t1 := v.h + s1 + ch + kw.1 + kw.2
  let s0 := rotr v.a 28 ^^^ rotr v.a 34 ^^^ rotr v.a 39
  let mj := (v.a &&& v.b) ^^^ (v.a &&& v.c) ^^^ (v.b &&& v.c)
  ⟨(t1 + s0 + mj) % 2 ^ 64, v.a, v.b, v.c, (v.d + t1) % 2 ^ 64, v.e, v.f, v.g⟩

/-- One 128-byte block. -/
def shaBlock (h : List Nat) (bs : List Byte) : List Nat :=
  let w := (shaExpand 64 ((List.range 16).map fun i => beNat ((bs.drop (8 * i)).take 8)).reverse).reverse
  let x := fun i => h.getD i 0
  let v := (shaRounds.zip w).foldl shaRound ⟨x 0, x 1, x 2, x 3, x 4, x 5, x 6, x 7⟩
  [v.a, v.b, v.c, v.d, v.e, v.f, v.g, v.h].zipIdx.map fun e => (e.1 + x e.2) % 2 ^ 64

/-- `n` blocks of a padded message. -/
def shaBlocks : Nat → List Nat → List Byte → List Nat
  | 0, h, _ => h
  | n + 1, h, bs => shaBlocks n (shaBlock h (bs.take 128)) (bs.drop 128)

/-- The SHA-384 digest of a message. -/
def sha384 (bs : List Byte) : List Byte :=
  let n := bs.length
  let blocks := (n + 17 + 127) / 128
  let padded := bs ++ [0x80] ++ List.replicate (128 * blocks - n - 17) 0 ++ beBytes 16 (8 * n)
  ((shaBlocks blocks shaInit padded).take 6).flatMap (beBytes 8)

/-! ## ECDSA over P-384 -/

/-- The prime of the field, 2^384 - 2^128 - 2^96 + 2^32 - 1. -/
def p384 : Nat :=
  0xFFFFFFFFFFFFFFFFFFFFFFFFFFFFFFFFFFFFFFFFFFFFFFFFFFFFFFFFFFFFFFFEFFFFFFFF0000000000000000FFFFFFFF

/-- The order of the base point. -/
def n384 : Nat :=
  0xFFFFFFFFFFFFFFFFFFFFFFFFFFFFFFFFFFFFFFFFFFFFFFFFC7634D81F4372DDF581A0DB248B0A77AECEC196ACCC52973

/-- The coefficient b of y² = x³ - 3x + b. -/
def b384 : Nat :=
  0xB3312FA7E23EE7E4988E056BE3F82D19181D9C6EFE8141120314088F5013875AC656398D8A2ED19D2A85C8EDD3EC2AEF

/-- The base point. -/
def g384 : Nat × Nat :=
  (0xAA87CA22BE8B05378EB1C71EF320AD746E1D3B628BA79B9859F741E082542A385502F25DBF55296C3A545E3872760AB7,
   0x3617DE4A96262C6F5D9E98BF9292DC29F8F41DBD289A147CE9DA3113B5F0B8C00A60B1CE1D7E819D7A431D7C90EA0E5F)

/-- `a` to the power of the low `k` bits of `e`, modulo `m`. -/
def powMod (m : Nat) : Nat → Nat → Nat → Nat
  | 0, _, _ => 1
  | k + 1, a, e => (if e % 2 = 1 then a else 1) * powMod m k (a * a % m) (e / 2) % m

/-- The inverse modulo a 384-bit prime. -/
def invMod (m a : Nat) : Nat := powMod m 384 (a % m) (m - 2)

/-- The sum of two points of the curve; none is the point at infinity. -/
def addPoint (s t : Option (Nat × Nat)) : Option (Nat × Nat) :=
  match s, t with
  | none, t => t
  | s, none => s
  | some (x, y), some (u, v) =>
    if x = u ∧ (y + v) % p384 = 0 then none
    else
      let k := if x = u then (3 * x * x + p384 - 3) * invMod p384 (2 * y) % p384
        else (v + p384 - y) * invMod p384 (u + p384 - x) % p384
      let r := (k * k + 2 * p384 - x - u) % p384
      some (r, (k * (x + p384 - r) + p384 - y) % p384)

/-- The multiple of a point by the low `n` bits of a number. -/
def mulPoint : Nat → Nat → Option (Nat × Nat) → Option (Nat × Nat)
  | 0, _, _ => none
  | n + 1, k, q => addPoint (if k % 2 = 1 then q else none) (mulPoint n (k / 2) (addPoint q q))

/-- A public key, X then Y, is a point of P-384. -/
def onCurve (key : List Byte) : Bool :=
  let x := beNat (key.take 48)
  let y := beNat (key.drop 48)
  key.length == 96 && decide (x < p384 ∧ y < p384) && y * y % p384 == (x * x * x + 3 * (p384 - x) + b384) % p384

/-- The ECDSA P-384 signature over the SHA-384 digest of a message verifies under a public key. -/
def ecdsaVerify (key message sigR sigS : List Byte) : Bool :=
  let r := beNat sigR
  let s := beNat sigS
  let w := invMod n384 s
  let u := beNat (sha384 message) * w % n384
  let v := r * w % n384
  onCurve key && decide (1 ≤ r ∧ r < n384 ∧ 1 ≤ s ∧ s < n384) &&
    match addPoint (mulPoint 384 u (some g384)) (mulPoint 384 v (some (beNat (key.take 48), beNat (key.drop 48)))) with
    | none => false
    | some q => q.1 % n384 == r

/-! ## AES-256 and XTS -/

/-- The product of a byte with x in the field of AES. -/
def xtime (a : Byte) : Byte := if a.getLsbD 7 then (a <<< 1) ^^^ 0x1B else a <<< 1

/-- The product of two bytes in the field of AES, over the low `n` bits of the second. -/
def gfMul : Nat → Byte → Byte → Byte
  | 0, _, _ => 0
  | n + 1, a, b => (if b.getLsbD 0 then a else 0) ^^^ gfMul n (xtime a) (b >>> 1)

/-- `a` to the power of the low `n` bits of `e`. -/
def gfPow : Nat → Byte → Nat → Byte
  | 0, _, _ => 1
  | n + 1, a, e => gfMul 8 (if e % 2 = 1 then a else 1) (gfPow n (gfMul 8 a a) (e / 2))

/-- The S-box. -/
def subByte (a : Byte) : Byte :=
  let b := gfPow 8 a 254
  b ^^^ b.rotateLeft 1 ^^^ b.rotateLeft 2 ^^^ b.rotateLeft 3 ^^^ b.rotateLeft 4 ^^^ 0x63

/-- The inverse S-box. -/
def invSubByte (a : Byte) : Byte :=
  gfPow 8 (a.rotateLeft 1 ^^^ a.rotateLeft 3 ^^^ a.rotateLeft 6 ^^^ 0x05) 254

/-- Two byte strings added bit by bit. -/
def xorBytes (a b : List Byte) : List Byte := List.zipWith (· ^^^ ·) a b

/-- The words of the key schedule, newest first: `k` more from word `i` on. -/
def keyWords : Nat → Nat → Byte → List (List Byte) → List (List Byte)
  | 0, _, _, w => w
  | k + 1, i, rc, w =>
    let t := w.headD []
    let t := if i % 8 = 0 then xorBytes ((t.drop 1 ++ t.take 1).map subByte) [rc, 0, 0, 0]
      else if i % 8 = 4 then t.map subByte else t
    keyWords k (i + 1) (if i % 8 = 0 then xtime rc else rc) (xorBytes (w.getD 7 []) t :: w)

/-- The 15 round keys of a 32-byte key. -/
def roundKeys (key : List Byte) : List (List Byte) :=
  let w := (keyWords 52 8 1 ((List.range 8).map fun i => (key.drop (4 * i)).take 4).reverse).reverse
  (List.range 15).map fun i => ((w.drop (4 * i)).take 4).flatten

/-- ShiftRows, over a state column by column. -/
def shiftRows (s : List Byte) : List Byte := (List.range 16).map fun i => s.getD (5 * i % 16) 0

/-- The inverse of ShiftRows. -/
def invShiftRows (s : List Byte) : List Byte := (List.range 16).map fun i => s.getD (13 * i % 16) 0

/-- The columns multiplied by a polynomial, MixColumns or its inverse. -/
def mixColumns (m : List Byte) (s : List Byte) : List Byte :=
  (List.range 16).map fun i =>
    (List.range 4).foldl (fun x j => x ^^^ gfMul 8 (s.getD (i / 4 * 4 + j) 0) (m.getD ((j + 4 - i % 4) % 4) 0)) 0

/-- AES-256 of one 16-byte block. -/
def aesEncrypt (key block : List Byte) : List Byte :=
  let ks := roundKeys key
  let s := (ks.drop 1).take 13 |>.foldl (fun s k =>
    xorBytes (mixColumns [2, 3, 1, 1] (shiftRows (s.map subByte))) k) (xorBytes block (ks.headD []))
  xorBytes (shiftRows (s.map subByte)) (ks.getD 14 [])

/-- The inverse cipher. -/
def aesDecrypt (key block : List Byte) : List Byte :=
  let ks := roundKeys key
  let s := ((ks.drop 1).take 13).reverse.foldl (fun s k =>
    mixColumns [14, 11, 13, 9] (xorBytes ((invShiftRows s).map invSubByte) k)) (xorBytes block (ks.getD 14 []))
  xorBytes ((invShiftRows s).map invSubByte) (ks.headD [])

/-- The tweak of the next block of a data unit. -/
def nextTweak (t : List Byte) : List Byte :=
  let x := 2 * leNat t
  leBytes 16 (if 2 ^ 128 ≤ x then x ^^^ 0x87 else x)

/-- `n` blocks of a data unit under a cipher and a tweak. -/
def xtsBlocks (cipher : List Byte → List Byte) : Nat → List Byte → List Byte → List Byte
  | 0, _, _ => []
  | n + 1, t, bs => xorBytes (cipher (xorBytes (bs.take 16) t)) t ++ xtsBlocks cipher n (nextTweak t) (bs.drop 16)

/-- XTS-AES-256 encryption of the logical block `lba` under a 64-byte key (13 R394): the tweak is the block's address. -/
def xtsEncrypt (key : List Byte) (lba : Nat) (bs : List Byte) : List Byte :=
  xtsBlocks (aesEncrypt (key.take 32)) (bs.length / 16) (aesEncrypt (key.drop 32) (leBytes 16 lba)) bs

/-- Its inverse. -/
def xtsDecrypt (key : List Byte) (lba : Nat) (bs : List Byte) : List Byte :=
  xtsBlocks (aesDecrypt (key.take 32)) (bs.length / 16) (aesEncrypt (key.drop 32) (leBytes 16 lba)) bs

/-! ## AES key wrap (RFC 3394; 21 R602) -/

/-- One step of the wrap: the register A and the eight-byte blocks R. -/
def wrapStep (kek : List Byte) (n : Nat) (x : List Byte × List (List Byte)) (t : Nat) : List Byte × List (List Byte) :=
  let i := t % n
  let b := aesEncrypt kek (x.1 ++ x.2.getD i [])
  (xorBytes (b.take 8) (beBytes 8 (t + 1)), x.2.set i (b.drop 8))

/-- A key of `8 * n` bytes wrapped under `kek`. -/
def keyWrap (kek key : List Byte) : List Byte :=
  let n := key.length / 8
  let r := (List.range n).map fun i => (key.drop (8 * i)).take 8
  let (a, r) := (List.range (6 * n)).foldl (wrapStep kek n) (List.replicate 8 0xA6, r)
  a ++ r.flatten

end Sys2Proof.Machine
end

