-- ==== Sys2Proof/Config.lean ====
section
/-!
DEFINITION. Config.lean: what an implementation fixes and the spec does not state, as constants without a body: nothing can
be proved of their values. Each is named in a log entry.
-/
namespace Sys2Proof

/-- Fresh free values, numbered by State.freeCtr (DESIGN CHOICE, log 2). -/
opaque Config.free : Nat → Nat

/-- The SHA-384 digest of Beynath's imago key number k, as the hub ROM holds it (21 R595, R600; DESIGN CHOICE, log 6). -/
opaque Config.imagoDigest : Nat → List Byte

/-- The 64-byte data key of a generation (13 R394, R395; DESIGN CHOICE, log 6). -/
opaque Config.dataKey : Nat → List Byte

/-- The hub's 32-byte key-wrapping key, derived from the device secret (21 R600, R602; DESIGN CHOICE, log 6). -/
opaque Config.wrapKey : List Byte

/-- What a table entry's activation code gives where it names no activation (03 R64, R66; DESIGN CHOICE, log 102). -/
opaque Config.openAct : (act : Nat) → Int → Int

/-- The clip ratio that a reserved CLIP_RATIO code of a loaded table entry gives (03 R64, R66; DESIGN CHOICE, log 102). -/
opaque Config.openClip : (code : Nat) → Fin 9

/-- The Reed-Solomon code of a granule, of which 10 R279 gives the strength (DESIGN CHOICE, log 7): which of the polynomials its field has,
how its 72 points are picked, and the scale of each symbol. -/
opaque Config.rsPoly : Fin 30
opaque Config.rsPick : Nat → Nat
opaque Config.rsScale : Nat → Nat

/-- How the columns of the scratchpad's SEC-DED code are picked (10 R279; DESIGN CHOICE, log 7). -/
opaque Config.secdedPick : Nat → Nat

/-- How the poison patterns differ from the check symbols and the check bits of a code word's data (10 R281; DESIGN CHOICE, log 7). -/
opaque Config.poisonPick : List Byte → Nat → Nat
opaque Config.poisonScale : List Byte → Nat → Nat

/-- The frame of a tier, by number, that holds the page at a device address: 2 MiB frames, 64 KiB ones for a KV page (09 R245;
DESIGN CHOICE, log 99). -/
opaque Config.frame : (tier addr : Nat) → Nat

/-- Whether the engine stages a flash-backed page that finds no free staging frame into a board frame (09 R245, R254; DESIGN
CHOICE, log 99). -/
opaque Config.boardStage : (page : Nat) → Bool

/-- PCI vendor and device identifier, dword (15 R442; DESIGN CHOICE, log 8). -/
opaque Config.pciId : Nat

/-- What the dwords of the configuration header hold beside the fields that the spec gives, by offset (14 R400; DESIGN CHOICE, log 8). -/
opaque Config.pciRest : (offset : Nat) → Nat

/-- Whether the module uses the Relaxed Ordering that the function's bit permits on data writes (14 R401; DESIGN CHOICE, log 8). -/
opaque Config.relaxed : Bool

/-- The stepping, 0 A or 1 B (15 R442; DESIGN CHOICE, log 8). -/
opaque Config.stepping : Fin 2

/-- The serial number, 16 ASCII characters (15 R445; DESIGN CHOICE, log 8). -/
opaque Config.serial : List Byte

/-- The first entry of an imago version's list of supported releases, lowest and highest (15 R446; DESIGN CHOICE, log 8). -/
opaque Config.firstRelease : Nat → Nat × Nat

/-- Its further entries (15 R446; DESIGN CHOICE, log 8). -/
opaque Config.moreReleases : Nat → List (Nat × Nat)

/-- The supported releases of an imago version: 1 to 255 entries (15 R446). -/
def Config.releases (version : Nat) : List (Nat × Nat) := Config.firstRelease version :: (Config.moreReleases version).take 254

/-- The manufacturer identity of an IDCODE, 11 bits (22 R623; DESIGN CHOICE, log 8). -/
opaque Config.jedec : Nat

/-- SCB_CTRL.EN as the imago writes it (10 R297; DESIGN CHOICE, log 8). -/
opaque Config.scbEn : Bool

/-- The event sources an imago routes to management cores: bit c of the value for source s (18 R537; DESIGN CHOICE, log 8). -/
opaque Config.mgmtRoute : Nat → Nat

end Sys2Proof
end

