-- ==== Sys2Proof/Machine/Packet.lean ====
section
/-!
DEFINITION. Packet.lean: the fields of a command packet (14 R407), the bits that its opcode defines (15 R440; 16 R465-R490), and the
field that a refusal names (14 R427).
-/
namespace Sys2Proof.Machine

/-- The command's length of a buffer, that of its descriptors together; 0 where it has none (14 R409). -/
def Cmd.len (c : Cmd) (b : Nat) : Nat := c.descs.foldl (fun n d => if d.buf = b then n + d.len else n) 0

/-- The command supplies a buffer. -/
def Cmd.has (c : Cmd) (b : Nat) : Bool := c.descs.any fun d => d.buf == b

/-- Bytes laid from byte `off` of a buffer on over its descriptors, in order: the writes, each with its host address (14 R409). -/
def pieces : List Desc → Nat → List Byte → List (Nat × List Byte)
  | [], _, _ => []
  | d :: t, off, bs =>
    if bs.isEmpty then []
    else if d.len ≤ off then pieces t (off - d.len) bs
    else (d.addr + off, bs.take (d.len - off)) :: pieces t 0 (bs.drop (d.len - off))

/-- Dword `i` of the packet. -/
def Cmd.dw (c : Cmd) (i : Nat) : Nat := (c.dwords.getD i 0).toNat

/-- Dwords `i` and `i + 1` of the packet. -/
def Cmd.qw (c : Cmd) (i : Nat) : Nat := c.dw i + 2 ^ 32 * c.dw (i + 1)

/-- Opcodes that state machines execute (14 R418; 16 R465). -/
def stateMachine (op : Nat) : Bool := [0x20, 0x22, 0x69, 0x6B, 0x90].contains op

/-- The bits of the packet that an opcode defines: dword 1 where HANDLE is not reserved, and dwords 4-15; none for a reserved
opcode (15 R440; 16 R465-R490). -/
def fieldMasks (op : Nat) : Option (List (Nat × Nat)) :=
  let f := 0xFFFFFFFF
  match op with
  | 0x00 => some [(4, 0xFF)]
  | 0x01 => some [(4, 0x1FF), (6, f), (7, f)]
  | 0x02 => some [(4, 0x3FF)]
  | 0x03 => some [(4, 0xFF), (5, 1), (6, f), (7, f), (8, f), (9, f)]
  | 0x04 => some [(4, f), (5, f)]
  | 0x05 => some [(4, 1), (5, f)]
  | 0x06 => some [(4, 3)]
  | 0x07 => some [(4, 3)]
  | 0x08 => some [(4, 3), (5, f)]
  | 0x09 => some [(4, 0x103)]
  | 0x0A => some []
  | 0x10 => some [(1, 0xFF), (4, f), (5, f), (6, f), (7, f), (8, f), (9, 0xFFFFFF), (10, f)]
  | 0x11 => some [(1, 0xFF)]
  | 0x12 => some [(1, 0xFF), (4, 1)]
  | 0x13 => some [(1, 0xFF), (4, 0xFFFF)]
  | 0x20 => some [(4, f), (5, 0x3F), (6, 0x7FFF)]
  | 0x21 => some [(4, f), (5, 0x3F), (6, 0xFFF)]
  | 0x22 => some [(1, f), (6, 0xFFF)]
  | 0x23 => some [(1, f)]
  | 0x24 => some [(1, f)]
  | 0x25 => some [(1, f), (6, 0x1FFF)]
  | 0x30 => some [(4, 0x3FFFFFF), (6, 0x1FFFF)]
  | 0x31 => some [(4, 0x3FFFFFF), (6, 0x1FFFF)]
  | 0x32 => some [(1, 0x3FF)]
  | 0x33 => some []
  | 0x40 => some [(4, f), (5, 0xFFFF), (6, 0x1FFFFFF)]
  | 0x41 => some [(4, f), (5, 0xFFFF), (6, 0x1FFFFFF)]
  | 0x42 => some [(4, f), (5, 0xFFFF), (6, 0x1FFFFFF), (7, f), (8, 0x3F)]
  | 0x43 => some [(1, 0xFFF)]
  | 0x44 => some [(4, f), (5, 0xFFFF), (6, 0x1FFFF)]
  | 0x45 => some [(4, f), (5, 0xFFFF), (6, f), (7, 1)]
  | 0x48 => some []
  | 0x49 => some [(1, f)]
  | 0x60 => some [(1, f), (4, 0x30FFF03), (5, 0x1FF007F)]
  | 0x61 => some [(1, 0xFF)]
  | 0x62 => some [(1, 0xFF)]
  | 0x63 => some [(1, 0xFF)]
  | 0x64 => some [(1, 0x3F)]
  | 0x68 => some [(1, f), (4, 3)]
  | 0x69 => some [(1, f), (4, 3)]
  | 0x6A => some [(1, f), (4, 3)]
  | 0x6B => some [(4, 3)]
  | 0x6C => some [(1, f), (4, 3)]
  | 0x6D => some [(4, 3), (5, 0x7FF), (6, 0x1FFFF), (7, 1)]
  | 0x80 => some []
  | 0x81 => some [(1, 0x3F)]
  | 0x82 => some [(1, 0x3F), (4, 0x1FFFF)]
  | 0x83 => some [(1, 0x3F), (4, 0x1FFFF)]
  | 0x84 => some [(1, 0x3F)]
  | 0x85 => some [(1, 0x3F), (4, 0x7FF), (5, 0x7FF), (6, f)]
  | 0x86 => some [(1, 0x3F), (4, 0x3FFFFF), (5, 0x7FFFFF), (6, 1), (7, 0x7FFFF)]
  | 0x87 => some [(1, 0x3F)]
  | 0x88 => some [(1, 0x3F), (4, 0x7FF)]
  | 0x89 => some [(1, 0x3F)]
  | 0x90 => some []
  | 0x91 => some [(4, 0x1FF), (5, 0x7FF)]
  | 0x92 => some []
  | 0x93 => some [(1, 0xFF)]
  | 0xA0 => some [(4, 0xFFF), (5, 0x1FFFF)]
  | 0xA1 => some [(4, 0xFFF), (5, 0x1FFFF), (6, f), (7, f)]
  | 0xA2 => some [(4, 0xFFF), (5, 0x1FFFF), (6, f), (7, f)]
  | 0xA3 => some [(4, 0xFFF), (5, 0x1FFFF), (6, f), (7, f), (8, f)]
  | _ => none

/-- The bits of dword `i` that the packet may set: the CID, the opcode and FENCE in dword 0, DDPTR, and what the opcode defines. -/
def definedBits (ms : List (Nat × Nat)) (i : Nat) : Nat :=
  if i = 0 then 0xFFFF01FF
  else if i = 2 ∨ i = 3 then 0xFFFFFFFF
  else match ms.find? fun e => e.1 == i with | some e => e.2 | none => 0

/-- The lowest bit of the reserved field, the run of bits that are not in `mask`, that bit `b` lies in. -/
def fieldLow (mask : Nat) : Nat → Nat
  | 0 => 0
  | b + 1 => if bit mask b then b + 1 else fieldLow mask b

/-- The dwords of the packet that set a reserved bit, in ascending order, each with the lowest bit of its first such field (16 R467
step 4; 14 R427). -/
def Cmd.badBits (c : Cmd) (ms : List (Nat × Nat)) : List (Nat × Nat) :=
  (List.range 16).filterMap fun i =>
    let mask := definedBits ms i
    ((List.range 32).find? fun b => bit (clearBits (c.dw i) mask) b).map fun b => (i, fieldLow mask b)

/-- No reserved flag bit, reserved HANDLE or reserved bit of dwords 4-15 is set (16 R467 step 4). -/
def fieldsOk (c : Cmd) (ms : List (Nat × Nat)) : Bool := (c.badBits ms).isEmpty

/-- The fields whose ranges an opcode checks with INVALID_FIELD: dword, lowest bit, and the dwords that hold a value outside the range
(14 R427; DESIGN CHOICE, log 31). -/
def rangeFields (op : Nat) : List (Nat × Nat × (Nat → Bool)) :=
  let one := fun (hi : Nat) (v : Nat) => v == 0 || decide (hi < v)
  match op with
  | 0x00 => [(4, 0, fun v => decide (2 ≤ v % 256))]
  | 0x01 => [(6, 0, fun v => v % 64 != 0), (4, 8, fun v => v / 256 % 2 == 1 && v % 256 != 3)]
  | 0x02 => [(4, 8, fun v => v / 256 % 4 == 3)]
  | 0x07 => [(4, 0, fun v => decide (2 ≤ v % 4))]
  | 0x82 => [(4, 0, one 65536)]
  | 0x83 => [(4, 0, one 65536)]
  | 0x85 => [(4, 0, one 1024), (5, 0, one 1024), (6, 0, fun v => decide (4000000000 < v))]
  | 0x86 => [(5, 0, one 4194304)]
  | 0x88 => [(4, 0, one 1024)]
  | 0x91 => [(4, 0, fun v => decide (v < 2 ∨ 256 < v)), (5, 0, one 1024)]
  | 0x6D => [(5, 0, one 1024), (6, 0, one 65536)]
  | 0xA3 => [(5, 16, fun v => bit v 16)]
  | _ => []

/-- The first field of a QUEUE_CREATE that QUEUE_PARAM refuses (14 R405). -/
def Cmd.queueField (c : Cmd) : Option (Nat × Nat) :=
  let d := c.dw 8
  let m := c.dw 9
  if c.qw 4 % 4096 ≠ 0 then some (4, 0) else if c.qw 6 % 4096 ≠ 0 then some (6, 0) else if bits d 0 16 = 0 then some (8, 0)
  else if bits d 16 16 = 0 then some (8, 16) else if bits m 0 16 &&& 0x7C01 ≠ 0 then some (9, 0)
  else if bits m 16 8 = 0 then some (9, 16) else none

/-- The offending field of a reply: of INVALID_FIELD the first reserved field that the packet sets, DDPTR where it is not aligned, the
first field out of range; of a status that refuses the value of one field, that field (14 R427; DESIGN CHOICE, log 31). -/
def Cmd.param (c : Cmd) (status : Nat) : Option (Nat × Nat) :=
  match status with
  | 0x0102 =>
    let op := c.dw 0 % 256
    match fieldMasks op with
    | none => none
    | some ms => match c.badBits ms with
      | e :: _ => some e
      | [] =>
        if c.dw 2 % 16 ≠ 0 then some (2, 0)
        else ((rangeFields op).find? fun e => e.2.2 (c.dw e.1)).map fun e => (e.1, e.2.1)
  | 0x0201 => some (1, 0)
  | 0x0203 => c.queueField
  | 0x0108 | 0x0109 | 0x0531 | 0x0909 => some (4, 0)
  | 0x010A => some (6, 0)
  | 0x090E => some (5, 0)
  | _ => none

end Sys2Proof.Machine
end

