-- ==== Sys2Proof/Machine/StateFlash.lean ====
section
/-!
DEFINITION. StateFlash.lean: the flash store: zones and their sequencers, the write buffer, dies, spares, the zone journal,
the data key; and the system flash with its host area (spec/13).
-/
namespace Sys2Proof.Machine

/-- The zone states (13 R364). -/
inductive ZoneState where
  | empty | opened | full | finished | readOnly | offline
  deriving DecidableEq, Repr

/-- A zone (13 R364-R381). `wp`: write pointer, in blocks from the zone's start; `seqPtr`: sequencing pointer (R368);
`owner`: the index that owns it; `padAt`: the ranges of its pad blocks, first and end; `erasing`: an erase is pending, `intent`: its
intent stands in the journal; `suspect`: channel positions whose block is suspect (R377). -/
structure Zone where
  state : ZoneState := .empty
  wp : Nat := 0
  seqPtr : Nat := 0
  erasing : Bool := false
  intent : Bool := false
  worn : Bool := false
  paddedLast : Bool := false
  lost : Bool := false
  padAt : List (Nat × Nat) := []
  owner : Option Nat := none
  suspect : List Nat := []
  deriving DecidableEq, Repr

/-- What a sequenced command does at its zone (13 R368). -/
inductive SeqOp where
  | write (append : Bool) | reset | finish
  deriving DecidableEq, Repr

/-- A write, reset or finish of a zone: first block (offset in the zone: the one it names, then the one where it was placed),
blocks and their data (13 R368, R369). `cmd` is none once a function-level reset took the command's reply (20 R578). -/
structure Sequenced where
  cmd : Option CmdRef
  zone : Nat
  op : SeqOp
  first : Nat
  blocks : Nat
  data : List Byte
  deriving DecidableEq, Repr

/-- What a die does (13 R382): it programs unit `unit` of a zone, or erases the block at channel position `place`. -/
inductive DieOp where
  | program (zone unit : Nat) | erase (zone place : Nat)
  deriving DecidableEq, Repr

/-- A flash die (13 R382): its operation, the suspends that it has used, the reads served since the last one, the time of its start or
last resume; erases since its last calibration, and the powered time of that; since powered time `hourAt`, its reads and
those of them that needed shifted levels; `shiftDue`: in an hour before that they were over 1 % (20 R576). -/
structure Die where
  op : Option DieOp := none
  suspended : Bool := false
  suspends : Nat := 0
  served : Nat := 0
  since : Nat := 0
  erasesSince : Nat := 0
  calAt : Nat := 0
  hourAt : Nat := 0
  hourReads : Nat := 0
  hourShifted : Nat := 0
  shiftDue : Bool := false
  deriving DecidableEq, Repr

/-- A record of the zone journal (13 R384). Blocks are numbered die * 4096 + block, dies 16 * channel + die. -/
inductive JournalRec where
  | eraseIntent (zone mask : Nat) | eraseDone (zone mask : Nat) | finish (zone wp : Nat) | pad (zone old new : Nat)
  | retire (zone block spare : Nat) | sfIntent (sector : Nat) | sfDone (sector : Nat) | cryptoErase (gen : Nat)
  | checkpoint (number block : Nat) | zoneState (zone : Nat) (st : ZoneState) (lost : Bool)
  deriving DecidableEq, Repr

/-- The code word of a logical block on flash (13 R376, R394): its metadata (logical block address, key generation, CRC-32C of the
plaintext, and whether it is a pad block), and its 4,096 encrypted bytes. -/
structure FlashWord where
  lba : Nat
  gen : Nat
  crc : Nat
  pad : Bool
  cipher : List Byte
  deriving DecidableEq, Repr

/-- A sector of the zone journal and its 32-byte records, oldest first (13 R384, R389). -/
structure JournalSector where
  sector : Nat
  records : List (List Byte)
  deriving DecidableEq, Repr

/-- A checkpoint (13 R387): its number, the sequence number of its CHECKPOINT record, zone states and write pointers, erase counts by
block, the spare map, the key generation (21 R602). -/
structure Checkpoint where
  number : Nat := 0
  seq : Nat := 0
  zones : Sparse Zone := []
  blockErases : Sparse Nat := []
  spares : Sparse Nat := []
  retired : List (Nat × Nat) := []
  keyGen : Nat := 0
  deriving DecidableEq, Repr

/-- Who reads flash pages (13 R370, R376, R383; 06 R171). -/
inductive ReadFor where
  | zoneRead (cmd : CmdRef)
  | dma (core : Nat)
  | stage (page : Nat)
  deriving DecidableEq, Repr

/-- A read of logical blocks in progress: those that the dies have not delivered, and those found uncorrectable (13 R376,
R377). -/
structure FlashRead where
  by_ : ReadFor
  waiting : List Nat
  bad : List Nat := []
  deriving DecidableEq, Repr

/-- The flash store. Unlisted zones are fresh. `data`: the plaintext of the write buffer, keyed lba * 4096 + i, unlisted bytes 0; `words`:
the programmed blocks, by logical block address. `arrived`: zone commands that have begun, whose buffer stands in the write buffer,
and that their sequencer has not taken; `seqd`: sequenced operations that have not reached their reply point, in sequencing order;
`buffered`: program units (zone, unit) that stand in the write buffer; `eraseQ`: zones with a pending erase, oldest first; `spares`:
spares taken of each die; `retired`: retired blocks with their spares; `blockErases`: erase counts by block; `journal`: the journal
sectors in use; `checkpoint`: the newest checkpoint, as its record block holds it; `reads`: reads of pages in progress. -/
structure Flash where
  zones : Sparse Zone := []
  data : Memory := []
  words : Sparse FlashWord := []
  arrived : List Sequenced := []
  seqd : List Sequenced := []
  buffered : List (Nat × Nat) := []
  eraseQ : List Nat := []
  dies : Sparse Die := []
  spares : Sparse Nat := []
  retired : List (Nat × Nat) := []
  blockErases : Sparse Nat := []
  journal : List JournalSector := []
  journalSeq : Nat := 0
  checkpoint : Checkpoint := {}
  holdupOk : Bool := true
  keyGen : Nat := 0
  reads : List FlashRead := []
  deriving DecidableEq, Repr

/-- A configuration copy (13 R389, 15 R452, 21 R600): sequence number, saved features, saved layout, keys. -/
structure ConfigCopy where
  seq : Nat
  saved : List (Nat × Nat)
  layout : Option Nat
  keys : List BundleKey
  valid : Bool
  deriving DecidableEq, Repr

/-- What follows a configuration write (15 R452; 22 R615): a reply with its result, a feature's new value with the reply of its command,
or the end of a key command. -/
inductive SfThen where
  | nothing | reply (cmd : CmdRef) (result : Nat) | feature (cmd : Option CmdRef) (fid value result : Nat) | key
  deriving DecidableEq, Repr

/-- A queued device operation of the xSPI port, the first one running (13 R391-R393): the erase of a host sector, a program of
the host area, the erase of the first `count` sectors of an imago slot, the program of the slot, one configuration copy; of a lowering,
the data key of a generation, the CRYPTO_ERASE record, and what follows the commit point (13 R397). -/
inductive SfOp where
  | erase (sector : Nat) (cmd : Option CmdRef)
  | program (off : Nat) (bytes : List Byte) (cmd : Option CmdRef)
  | slotErase (slot count : Nat) (cmd : Option CmdRef)
  | slotProgram (slot : Nat)
  | config (copy : Nat) (value : ConfigCopy) (next : SfThen)
  | lowerKey (gen : Nat) (cmd : Option CmdRef)
  | lowerCommit (gen : Nat) (cmd : Option CmdRef)
  | lowerRest (cmd : Option CmdRef)
  deriving DecidableEq, Repr

/-- A boot selector record (21 R594). -/
structure Selector where
  seq : Nat
  slot : Nat
  attempts : Nat
  valid : Bool
  deriving DecidableEq, Repr

/-- A tally record (21 R605-R607). `torn`: its 32 bytes where they are not those of the record that was programmed. -/
structure TallyRec where
  setting : Nat
  remaining : Nat
  old : Nat
  new : Nat
  time : Nat
  powered : Nat
  live : Bool := true
  generation : Nat := 0
  torn : Option (List Byte) := none
  deriving DecidableEq, Repr

/-- A data key record (21 R602): its generation; `torn`: its 84 bytes where they are not those of the record that was programmed, so
that its CRC fails or its wrap does not verify. -/
structure KeyRec where
  generation : Nat := 0
  torn : Option (List Byte) := none
  deriving DecidableEq, Repr

/-- A protection record (21 R604). -/
structure ProtRec where
  seq : Nat
  level : Nat
  minSvn : Nat
  valid : Bool
  deriving DecidableEq, Repr

/-- The status words of sectors (13 R390). -/
def wordErased : Nat := 0xFFFFFF00
def wordOpen : Nat := 0xFFFF0000
def wordValid : Nat := 0xFF000000
def wordIntent : Nat := 0

/-- The status words of a new module (13 R390; 21 R605; DESIGN CHOICE, log 18): the sectors that hold a record are VALID, the tally
sectors OPEN. -/
def newWords : List (Nat × Nat) :=
  ([0, 2, 3, 4, 5, 6, 7, 8, 9, 10, 12].map fun k => (k, wordValid)) ++ (List.range 8).map fun i => (4110 + i, wordOpen)

/-- The system flash (13 R388-R393; 21). Unlisted host-area bytes read 0xFF. `words`: the sector status words, unlisted ones ERASED.
Records of two sectors stand in sector order; `keyRecs`: the data key records; `lifeAt`: the
sector of the lifetime log in use, from its first one, and the bytes written there; `mirror`: the spare map's mirror; `pl2Fuse` is the
hub's fuse (21 R604; DESIGN CHOICE, log 18). -/
structure SysFlash where
  host : Memory := []
  words : Sparse Nat := newWords
  erases : Sparse Nat := []
  ops : List SfOp := []
  selector : List Selector := [⟨1, 0, 0xFF, true⟩, ⟨0, 0, 0xFF, false⟩]
  slots : List ImagoSlot := [{ valid := true, version := 0x01000000, length := 4096, factory := true }, {}]
  prot : List ProtRec := [⟨1, 0, 0, true⟩, ⟨0, 0, 0, false⟩]
  pl2Fuse : Bool := false
  keyRecs : List (Option KeyRec) := [some {}, none]
  configs : List ConfigCopy := [⟨0, [], none, [], true⟩, ⟨0, [], none, [], true⟩]
  tallies : List TallyRec := []
  lifeAt : Nat × Nat := (0, 0)
  mirror : List (Nat × Nat) := []
  deriving DecidableEq, Repr

end Sys2Proof.Machine
end

