-- ==== Sys2Proof/Machine/StateIndex.lean ====
section
/-!
DEFINITION. StateIndex.lean: vector indexes (spec/11), filters and queries (spec/12). The stores of an index that 11 R304
lays out in its region (centroids, directory, graph, item table, columns, segments, codes) lie in the device range itself,
at the addresses of R304; what the module holds beside them stands here.
-/
namespace Sys2Proof.Machine

/-- The definition record (11 R300). `metric`: 0 inner product, 1 cosine, 2 squared Euclidean; `tier`: codes in zones. -/
structure IndexDef where
  index : Nat
  metric : Nat
  tier : Bool
  feedEn : Bool
  feedLog2 : Nat
  dim : Nat
  degree : Nat
  centCap : Nat
  centInit : Nat
  maxItems : Nat
  segs : Nat
  ncols : Nat
  feedCell : Nat
  doneCell : Nat
  colWidths : Nat
  region : Nat
  regionPages : Nat
  feedBase : Nat
  deriving DecidableEq, Repr

/-- An owned zone and the number of its mapping (11 R313). -/
structure OwnedZone where
  zone : Nat
  map : Nat
  deriving DecidableEq, Repr

/-- An INDEX_COMPACT command that has not replied (11 R322, R323). `lists`: the centroids whose chain is building or
built, `queries`: the fetch numbers of the queries accepted before the last rewrite that had not replied. -/
structure Compaction where
  cmd : CmdRef
  lists : List Nat
  skipped : Nat
  built : Bool
  reclaim : Option Nat
  queries : List Nat
  deriving DecidableEq, Repr

/-- An index (11 R300-R324). `cur`: the current epoch; `vCur`, `vFrom`: the graph version that serves epochs from vFrom
on; `rebuild`: a rebuild is pending, in the other version; `freeAt`: the commit epoch of a rebuild whose superseded
version is still retained; `rebalance`: a rebalance awaits the commit; `finished`: centroids with a built chain that awaits
publication; `partBlock`: the records of the partly filled block of the code log, whose zone is `logZone`. -/
structure Index where
  defn : IndexDef
  cur : Nat := 1
  vCur : Nat := 0
  vFrom : Nat := 1
  rebuild : Bool := false
  freeAt : Option Nat := none
  rebalance : Bool := false
  feedDone : Nat := 0
  owned : List OwnedZone := []
  logZone : Option Nat := none
  partBlock : List (List Byte) := []
  finished : List Nat := []
  compactions : List Compaction := []
  deriving DecidableEq, Repr

/-- What a chunk of a supplied filter allows (12 R350): no slot, every slot, runs (first, length), or raw bits. -/
inductive ChunkKind where
  | none | all | runs (rs : List (Nat × Nat)) | raw (bytes : List Byte)
  deriving DecidableEq, Repr

/-- A supplied filter (12 R350). -/
structure Filter where
  index : Nat
  chunks : List (Nat × ChunkKind)
  page : Nat
  pages : Nat
  deriving DecidableEq, Repr

/-- A predicate term (12 R348). -/
structure Term where
  op : Nat
  col : Nat
  sgn : Bool
  count : Nat
  a : Nat
  b : Nat
  deriving DecidableEq, Repr

/-- A query record (12 R332). `input`: token identifiers, or the code record. -/
structure QueryRec where
  index : Nat
  code : Bool
  hits : Bool
  toks : List Nat
  input : List Byte
  k : Nat
  nprobe : Nat
  ef : Nat
  hamMax : Nat
  rerankMax : Nat
  filter : Option Nat
  terms : List Term
  values : List Nat
  mergeId : Nat
  deriving DecidableEq, Repr

/-- A hit list (12 R352): query header and the entries, best first. -/
structure HitList where
  epoch : Nat
  index : Nat
  capped : Bool
  timing : Bool
  lists : Nat
  candidates : Nat
  survivors : Nat
  thresh : Nat
  scanned : Nat
  chainId : Nat
  kReq : Nat
  seen : Nat
  entries : List TopEntry
  deriving DecidableEq, Repr

/-- An accepted query that has not replied (12 R330, R331): the fetch number of its command, the serving job's number, the serial
within the job, the time of its acceptance, its place in the step that packed it. -/
structure Query where
  cmd : CmdRef
  seq : Nat := 0
  job : Nat
  epoch : Nat
  serial : Nat
  rec_ : QueryRec
  accepted : Nat := 0
  place : Option Nat := none
  hits : Option HitList := none
  deriving DecidableEq, Repr

/-- Indexes by number, filters by handle, queries in acceptance order. -/
structure Idx where
  indexes : Sparse Index := []
  filters : Sparse Filter := []
  queries : List Query := []
  serials : Sparse Nat := []
  deriving DecidableEq, Repr

end Sys2Proof.Machine
end

