-- ==== Sys2Proof/Machine/StateWyrd.lean ====
section
/-!
DEFINITION. StateWyrd.lean: the Wyrdlink ports, routes, apertures, exports, outstanding requests and held waits (spec/17).
-/
namespace Sys2Proof.Machine

/-- The states of a port (17 R497), in the order of the STATE codes of R523. -/
inductive PortState where
  | disabled | down | training | up | retrain | conflict
  deriving DecidableEq, Repr

/-- A numbered flit kept for replay, and how often it was sent (17 R500). -/
structure SentFlit where
  flit : Flit
  sends : Nat
  deriving DecidableEq, Repr

/-- A message that a port has begun to send: its next flit carries its 240 bytes number `part` (17 R499, R501). -/
structure Sending where
  msg : Msg
  part : Nat
  deriving DecidableEq, Repr

/-- What a side of a port sends of itself at the end of training (17 R498). -/
structure Identity where
  id : Nat
  stepping : Nat
  version : Nat
  deriving DecidableEq, Repr

/-- A port (17 R496-R501, R522, R523). `trainMax`: MAX_WIDTH as the training in progress, or the last one, began; `ident`: what this side
sent of itself at the end of the last training. `ackOut`: the last flit received in order and intact, `nakOut`, `ackDue`: a discarded flit,
an accepted one, that no flit has answered yet. `outq`: messages that wait for credits or for the port, each with its source: the port that
its transit traffic came on, 4 for the hub, 5 for a port that was lost since; `sending`: per class, the message that goes on; `credits`: per
class, in 16-byte units; `owed`: per class, units of the receive buffers that have been freed and not yet returned; `lastClass`: which of the
classes 2 to 5 sent last; `lastSrc`: per class, which source sent last; `parts`: per class, the bytes received of a message that goes on in a
later flit; `missed`: heartbeat periods without a heartbeat; `got`: one arrived in the period that runs. -/
structure Port where
  state : PortState := .disabled
  width : Nat := 0
  lanesOk : Nat := 0
  peer : Nat := 0
  peerValid : Bool := false
  auto : Bool := true
  disable : Bool := false
  maxWidth : Nat := 4
  trainMax : Nat := 4
  ident : Option Identity := none
  retry : Nat := 0
  retrains : Nat := 0
  crc : Nat := 0
  txFlits : Nat := 0
  rxFlits : Nat := 0
  losses : Nat := 0
  txSeq : Nat := 0
  rxSeq : Nat := 0
  ackOut : Nat := 4095
  nakOut : Bool := false
  ackDue : Bool := false
  replay : List SentFlit := []
  outq : List (Nat × Msg) := []
  sending : List (Option Sending) := List.replicate 6 none
  credits : List Nat := [0, 0, 0, 0, 0, 0]
  owed : List Nat := [0, 0, 0, 0, 0, 0]
  lastClass : Nat := 5
  lastSrc : List Nat := [4, 4, 4, 4, 4, 4]
  parts : List (List Byte) := List.replicate 6 []
  missed : Nat := 0
  got : Bool := false
  hbCount : Nat := 0
  deriving DecidableEq, Repr

/-- A route entry (17 R504). -/
structure Route where
  port : Nat := 0
  valid : Bool := false
  deriving DecidableEq, Repr

/-- An aperture (17 R507). -/
structure Aperture where
  localBase : Nat := 0
  remoteBase : Nat := 0
  module : Nat := 0
  en : Bool := false
  cls : Nat := 0
  pages : Nat := 0
  deriving DecidableEq, Repr

/-- An export (17 R508). -/
structure Export where
  base : Nat := 0
  src : Nat := 0
  en : Bool := false
  read : Bool := false
  write : Bool := false
  any : Bool := false
  pages : Nat := 0
  deriving DecidableEq, Repr

/-- Who waits for a response (17 R509, R510, R519). `gate`: the step builder of a partition; `bar2Write`: a host write, by the number of its
access, and whether the loss of another of its requests has been counted; `bar2Merge`: the read of a granule of which a host write covers
less than whole dwords, with the class of its aperture, its offset and its bytes; `abandoned`: its job has been torn down (20 R566 step 3). -/
inductive Requester where
  | coreDma (core : Nat)
  | coreAdd (core : Nat)
  | coreWait (core : Nat)
  | hostSig (cmd : CmdRef) (op : Nat)
  | gate (partition : Nat)
  | bar2Read
  | bar2Write (access : Nat) (counted : Bool)
  | bar2Merge (access : Nat) (counted : Bool) (cls off : Nat) (bytes : List Byte)
  | abandoned
  deriving DecidableEq, Repr

/-- An outstanding request (17 R503, R519). `port`: the port it was sent on, 4 where it is local; `sent`: false while R506
holds it; `got`: response bytes received so far; `poisoned`: some were poisoned; `resend`: a wait answered PENDING for
lack of watch entries (R510). -/
structure Request where
  tag : Nat
  port : Nat
  by_ : Requester
  msg : Msg
  since : Nat
  sent : Bool
  got : List Byte := []
  poisoned : Bool := false
  resend : Bool := false
  deriving DecidableEq, Repr

/-- A held incoming SIG_WAIT (17 R510). -/
structure HeldWait where
  src : Nat
  tag : Nat
  cell : Nat
  threshold : Nat
  since : Nat
  deriving DecidableEq, Repr

/-- The Wyrdlink unit. Unlisted routes are invalid. `inbox`: messages for this module, oldest first, with the port each
arrived on; `held`: incoming requests held in PS2 (19 R556). -/
structure Wyrd where
  fwdEn : Bool := true
  timeoutUs : Nat := 0x3E8
  evt : Nat := 0
  evtEn : Nat := 0
  rtIndex : Nat := 0
  rtAuto : Bool := false
  undeliv : Nat := 0
  refused : Nat := 0
  lastNotice : Nat := 0
  fwdFlits : Nat := 0
  routes : Sparse Route := []
  ports : List Port := List.replicate 4 {}
  apertures : List Aperture := List.replicate 32 {}
  exports : List Export := List.replicate 32 {}
  requests : List Request := []
  waits : List HeldWait := []
  inbox : List (Nat × Msg) := []
  held : List (Nat × Msg) := []
  deriving DecidableEq, Repr

end Sys2Proof.Machine
end

