-- ==== Sys2Proof/Machine/StateMem.lean ====
section
/-!
DEFINITION. StateMem.lean: the device range: contents, allocations, page states, flash mappings, the KV map, the MIG
block, and memory integrity: poison, planted check bits, the ECC and SCB blocks, range scrubs (spec/09, 10).
-/
namespace Sys2Proof.Machine

/-- Who holds a run of general-window pages (09 R242, R250; 07 R193, R201, R206; 08 R212; 12 R350). -/
inductive Owner where
  | host
  | bundle (handle : Nat)
  | priv (partition : Nat)
  | pinned (partition : Nat)
  | evict (partition : Nat)
  | cocoon (handle : Nat)
  | filter (handle : Nat)
  deriving DecidableEq, Repr

/-- An allocated run of general-window pages: first page number, pages, holder (09 R250). -/
structure Alloc where
  page : Nat
  pages : Nat
  owner : Owner
  deriving DecidableEq, Repr

/-- A page whose contents do not stand in its board frame or its zone blocks alone (09 R245). `stacked`: a general
page stacked-resident on `die`, `dirty` when the board frame is stale, staged by `partition`; `copy`: a flash-backed
page with a clean copy on `die`, or in a board frame where `die` is none. -/
inductive Resident where
  | stacked (die : Nat) (dirty : Bool) (partition : Nat)
  | copy (die : Option Nat) (partition : Nat)
  deriving DecidableEq, Repr

/-- A page in flight (09 R248): to stacked die `dst`, or to a board frame where `dst` is none; `die`: the die whose copy channel
moves it (R254). -/
structure Flight where
  page : Nat
  partition : Nat
  die : Nat
  dst : Option Nat
  deriving DecidableEq, Repr

/-- A flash mapping (09 R251). -/
structure Mapping where
  page : Nat
  pages : Nat
  lba : Nat
  bundle : Option Nat
  deriving DecidableEq, Repr

/-- The frame a KV address names (09 R268). -/
inductive KvFrame where
  | pool (partition : Nat)
  | evict (partition : Nat)
  | cocoon (handle : Nat)
  deriving DecidableEq, Repr

/-- A range scrub (10 R288-R291). `running` is false while it waits for one of the four. -/
structure Scrub where
  cmd : CmdRef
  addr : Nat
  pages : Nat
  unit : Nat
  repair : Bool
  running : Bool
  record : Bool
  deriving DecidableEq, Repr

/-- The ECC and SCB blocks (10 R297-R299). `ce` and `ue` count tiers 0-3 (stacks of the dies), 4 (board),
5 (scratchpad). `testData` and `testCheck` are the DIAG buffers; `scbAt`: tier and device address of the page in the frame that the
background scrubber reads, `scbWalked`: that frame ended its walk, which has been counted. -/
structure Ecc where
  ceWb : Bool := true
  evt : Nat := 0
  evtEn : Nat := 0
  ce : List Nat := [0, 0, 0, 0, 0, 0]
  ue : List Nat := [0, 0, 0, 0, 0, 0]
  narrow : Nat := 0
  narrowLost : Nat := 0
  lastUe : Nat := 0
  testCtrl : Nat := 0
  testTarget : Nat := 0
  testResult : Nat := 0
  testData : Sparse Byte := []
  testCheck : Sparse Byte := []
  rawWritten : List (Nat × Nat) := []
  scbEn : Bool := false
  scbRate : Nat := 1
  scbAt : Option (Nat × Nat) := none
  scbWalked : Bool := false
  scbPasses : Nat := 0
  scbCe : Nat := 0
  scbUe : Nat := 0
  scrubs : List Scrub := []
  deriving DecidableEq, Repr

/-- The arbiter of a hub resource (09 R273): the credits of its active sources by number, the core last granted of each die, and the
source and the core of the grant just made. -/
structure Arb where
  credits : List (Nat × Int) := []
  last : List (Option Nat) := [none, none, none, none]
  source : Option Nat := none
  core : Option Nat := none
  deriving DecidableEq, Repr

/-- The MIG block (09 R275-R277). `arbs`: the arbiters of board memory, of the flash read path and of the inbound links of dies 0-3
(R273). -/
structure Mig where
  bar2Base : Nat := 0
  evt : Nat := 0
  evtEn : Nat := 0
  bar2Drop : Nat := 0
  copied : Nat := 0
  arbWeight : Nat := 0
  arbs : List Arb := List.replicate 6 {}
  lead : List Nat := [16, 16, 16, 16]
  miss : List Nat := [0, 0, 0, 0]
  shadow : List Nat := [0, 0, 0, 0]
  kvFree : List Nat := [0, 0, 0, 0]
  evFree : List Nat := [0, 0, 0, 0]
  lastJob : List Nat := [0, 0, 0, 0]
  stagingWait : List Bool := [false, false, false, false]
  deriving DecidableEq, Repr

/-- A completion of a host read (BAR2, 09 R244): the bytes, and EP where they are poisoned (10 R282). -/
structure Completion where
  bytes : List Byte
  poisoned : Bool
  deriving DecidableEq, Repr

/-- A BAR2 read some granules of which lie on peers (17 R507, R509): its first address, its bytes so far, and the tags of
the requests that have not been answered, with the offset of each one's bytes. `bytes` covers whole granules; `dropped`: a request was
refused or failed, which counts once. -/
structure Bar2Read where
  addr : Nat
  len : Nat
  bytes : List Byte
  poisoned : Bool
  dropped : Bool
  tags : List (Nat × Nat)
  deriving DecidableEq, Repr

/-- A BAR2 access that waits for memory to leave self-refresh, or for free tags (19 R556; 17 R503): the device address that it had when it
arrived (09 R244), and the aperture over it (17 R507); `bytes` where it writes, `len` bytes to read where it reads. -/
structure HeldBar2 where
  addr : Nat
  win : Option Aperture
  len : Nat
  bytes : Option (List Byte)
  found : List Finding
  deriving DecidableEq, Repr

/-- The memories of the device range. `bytes`: by device address, unlisted bytes read 0; `poison`: the granules that carry the poison
pattern, each the device address / 64 with the place of its frame (`State.placeOf`) times 2^48; `check`: check symbols planted by
WRITE_RAW, keyed alike; `stackRaw`, `stackCheck`: what WRITE_RAW left in a die's idle stacks, keyed by die * 2^48 + offset; `completion`:
the last completion returned on a host read; `bar2`: BAR2 reads that wait for peers; `bar2Held`: BAR2 accesses that wait for a wake
or for tags; `bar2Next`: the number of the next BAR2 write to a peer; `reservedBad`: partitions whose descriptions in module-reserved memory await their rebuilding (10 R283); `found`: what the
decodings of the command in progress find, empty between commands. -/
structure Mem where
  bytes : Memory := []
  poison : List Nat := []
  check : Sparse (List Byte) := []
  stackRaw : Memory := []
  stackCheck : Sparse (List Byte) := []
  allocs : List Alloc := []
  resident : List (Nat × Resident) := []
  flights : List Flight := []
  maps : Sparse Mapping := []
  kvMap : Sparse KvFrame := []
  reservedBad : List Nat := []
  completion : Option Completion := none
  bar2 : List Bar2Read := []
  bar2Held : List HeldBar2 := []
  bar2Next : Nat := 0
  found : List Finding := []
  deriving DecidableEq, Repr

end Sys2Proof.Machine
end

