-- ==== Sys2Proof/Machine/StatePhys.lean ====
section
/-!
DEFINITION. StatePhys.lean: power states and operating points (spec/19), start-up (spec/21), pins, sideband registers and
the test connector (spec/22).
-/
namespace Sys2Proof.Machine

/-- Entry into a power state: the target, and the entry steps completed (19 R559). -/
structure Entering where
  target : Nat
  done : Nat
  abandon : Bool
  deriving DecidableEq, Repr

/-- The power controller (19 R546-R562). `since`: when the present state began; `idleSince`: when the idle timer that runs was started
(R552); `quietSince`: in PS0, since when every core has been quiescent (R552); `tripped`: the dies that a trip of their own gates (R549).
`limPt`, `thPt`: each die's power-limit and thermal points; `thAt`: when its thermal point last moved (R548); `vcore`, `temp`,
`rate`: the last readings of the die sensors, `temp` with the hub as element 4. -/
structure Pwr where
  ps : Nat := 0
  entering : Option Entering := none
  exiting : Bool := false
  holdPs1 : Bool := false
  holdPs2 : Bool := false
  holdPs3 : Bool := false
  limit : Nat := 300
  evt : Nat := 0
  evtEn : Nat := 0
  limPt : List Nat := [3, 3, 3, 3]
  thPt : List Nat := [3, 3, 3, 3]
  thAt : List Nat := [0, 0, 0, 0]
  gated : List Bool := [false, false, false, false]
  vin : Nat := 0
  power : Nat := 0
  vcore : List Nat := [0, 0, 0, 0]
  temp : List Int := [0, 0, 0, 0, 0]
  rate : List Nat := [0, 0, 0, 0]
  abandons : Nat := 0
  lastExit : Nat := 0
  psTime : List Nat := [0, 0, 0, 0]
  psEntries : List Nat := [0, 0, 0, 0]
  since : Nat := 0
  idleSince : Nat := 0
  quietSince : Option Nat := none
  tripped : List Bool := [false, false, false, false]
  below90 : Nat := 0
  deriving DecidableEq, Repr

/-- The instruction in force at the test connector (22 R623). -/
inductive TapInstr where
  | bypass | idcode | samplePreload | extest | clamp | highz
  deriving DecidableEq, Repr

/-- Pins, sideband registers, test connector (spec/22) and the supply: `on`, the module has power; `inputIn`, the 48 V input lies
where the module starts; `shutdown`, a hub shutdown holds it off until a power cycle (20 R570); `aux`: 3V3AUX powers
the FRU store and the sideband isolator. `keyBusy`: the key command that runs, and
whether the write of its configuration succeeds; `keysOld`: the keys in force while that write runs (22 R615). `tapOut`: what the last instruction of the test connector
shifts out; `boundary`: the boundary cells (DESIGN CHOICE, log 19). -/
structure Phys where
  sense : Bool := true
  perst : Bool := true
  pwren : Bool := true
  aux : Bool := false
  sbAddr : Nat := 3
  cable : List Bool := [false, false, false, false]
  wakeN : Bool := false
  on : Bool := true
  inputIn : Bool := true
  shutdown : Bool := false
  sbAlert : Nat := 0
  sbAlertEn : Nat := 0
  keyId : Nat := 0
  keyData : List Byte := []
  keyBusy : Option (Nat × Bool) := none
  keysOld : Option (List BundleKey) := none
  keyResult : Nat := 0
  tap : TapInstr := .bypass
  tapOut : List Nat := []
  boundary : List Nat := []
  deriving DecidableEq, Repr

end Sys2Proof.Machine
end

