-- ==== Sys2Proof/Machine/State.lean ====
section
/-!
DEFINITION. State.lean: the state of the module, its reasons to stop, and the state at reset.
-/
namespace Sys2Proof.Machine

/-- Why the module's model stops. No fault of the spec stops it: the faults of 20 R563 are effects on the state. -/
inductive Fault where
  /-- Raised by no meaning: the constructor stands so that the type has a value. Safe. -/
  | stuck
  deriving DecidableEq, Repr

/-- Why a command has no meaning. -/
inductive Refusal where
  /-- The dispatch of a command whose meaning is not written yet raises it. Safe: the run ends. -/
  | notModelled (mnemonic : String)
  /-- DEBUG_INSTRUCTION at PL0 raises it: 22 R623 gives the Beynath debug instructions no effect. Safe: the run ends. -/
  | debugUnspecified
  deriving DecidableEq, Repr

/-- The module: every register, FIFO, buffer, counter, mode and pin the spec gives it, and the queue of waiting
commands. `wlOut`: the flits that left, each with its port (17 R499); `lifeLog` is the newest snapshot of the lifetime counters in system flash (20 R581). -/
structure State where
  pending : List Instr := []
  time : Nat := 0
  freeCtr : Nat := 0
  hostOut : List HostWrite := []
  wlOut : List (Nat × List Byte) := []
  gen : Gen := {}
  q : Queues := {}
  msix : Msix := {}
  pci : Pci := {}
  evc : Evc := {}
  sig : Sig := {}
  flt : Flt := {}
  life : Life := {}
  lifeLog : Life := {}
  mem : Mem := {}
  mig : Mig := {}
  ecc : Ecc := {}
  cores : List Core := List.replicate 96 {}
  jobs : Jobs := {}
  seqs : Seqs := {}
  fl : Flash := {}
  sf : SysFlash := {}
  wlk : Wyrd := {}
  idx : Idx := {}
  pwr : Pwr := {}
  phys : Phys := {}
  deriving DecidableEq, Repr

/-- The module when its power domains first receive power: every field at the value the spec states for reset, and at
the value log entries 3, 4, 5, 18 and 19 name where it states none (DESIGN CHOICE, PRESUMED). Start-up (21 R590) is STARTUP_STAGE's. -/
def State.reset : State := {}

end Sys2Proof.Machine
end

