-- ==== Sys2Proof/Machine/Ops.lean ====
section
/-!
DEFINITION. Ops.lean: the named operations over the state that the commands share: partitions and cores (01 R23),
event sources and their deliveries (18), replies, the error log and the freeze (14), counters, faults latched (20 R566).
-/
namespace Sys2Proof.Machine

/-- The outcome of a command. -/
abbrev Out := Host.Outcome State Fault Refusal

/-! ## Partitions and cores (01 R23) -/

/-- Partitions of the layout. -/
def State.numParts (s : State) : Nat := 2 ^ s.gen.layout

/-- Dies of each partition. -/
def State.diesPer (s : State) : Nat := 4 / 2 ^ s.gen.layout

/-- The dies of partition `p`, in ascending number. -/
def State.diesOf (s : State) (p : Nat) : List Nat := (List.range s.diesPer).map fun i => p * s.diesPer + i

/-- The partition of die `d`. -/
def State.partOfDie (s : State) (d : Nat) : Nat := d / s.diesPer

/-- The partition of core `n`. -/
def State.partOfCore (s : State) (n : Nat) : Nat := n / 24 / s.diesPer

/-- The cores of partition `p`, in ascending number. -/
def State.coresOf (s : State) (p : Nat) : List Nat :=
  (List.range (24 * s.diesPer)).map fun i => 24 * p * s.diesPer + i

/-- Sequence-table entries of each partition (08 R215). -/
def State.entriesPer (s : State) : Nat := 4096 / s.numParts

/-- The job of partition `p`. -/
def State.run (s : State) (p : Nat) : Option Run := (s.jobs.parts.getD p {}).job

/-- Change the job of partition `p`. -/
def State.setRun (s : State) (p : Nat) (f : Run → Run) : State :=
  { s with jobs := { s.jobs with parts := modifyAt s.jobs.parts p fun q => { q with job := q.job.map f } } }

/-- The binding of a slot (06 R173). -/
def Run.binding (r : Run) (slot : Nat) : Option Binding := r.binds.find? fun b => b.slot == slot

/-- The step builder of partition `p`, where it holds the cores, runs its pass again (08 R224; DESIGN CHOICE, log 38). -/
def State.callPass (s : State) (p : Nat) : State := s.setRun p fun r => { r with again := true }

/-- Change partition `p`. -/
def State.setPart (s : State) (p : Nat) (f : Part → Part) : State :=
  { s with jobs := { s.jobs with parts := modifyAt s.jobs.parts p f } }

/-- Core `n`. -/
def State.core (s : State) (n : Nat) : Core := s.cores.getD n {}

/-- Change core `n`. -/
def State.setCore (s : State) (n : Nat) (f : Core → Core) : State :=
  { s with cores := modifyAt s.cores n f }

/-- The bundle with a handle. -/
def State.bundle (s : State) (h : Nat) : Option Bundle := s.jobs.bundles.find? fun b => b.handle == h

/-- The partition whose job bears a number. -/
def State.partOfJob (s : State) (number : Nat) : Option Nat :=
  (List.range 4).find? fun p => match s.run p with | some r => r.number == number | none => false

/-- A fresh free value (DESIGN CHOICE, log 2). -/
def State.draw (s : State) : Nat × State := (Config.free s.freeCtr, { s with freeCtr := s.freeCtr + 1 })

/-! ## Counters -/

/-- Add to a lifetime counter of 20 R583. -/
def State.lifeAdd (s : State) (k n : Nat) : State :=
  { s with life := { s.life with counters := Sparse.set 0 s.life.counters k (sat64 (Sparse.get 0 s.life.counters k + n)) } }

/-- The element `i` of a list of counters raised by `n`, saturating. -/
def bump (l : List Nat) (i n : Nat) : List Nat := modifyAt l i fun x => sat64 (x + n)

/-! ## Event sources (18 R526) -/

/-- The level of the completion source of a queue (14 R434). -/
def Queue.level (now : Nat) (q : Queue) : Bool :=
  decide (0 < q.cqTimes.length) &&
    (decide (max 1 q.coalCount ≤ q.cqTimes.length) ||
      (q.coalUs != 0 && match q.cqTimes with | t :: _ => decide (t + q.coalUs * 1000 ≤ now) | [] => false))

/-- The level of watch `w` (18 R530). -/
def Watch.level (cells : Sparse Nat) (w : Watch) : Bool :=
  w.en && if w.mode then w.hit else decide (w.thresh ≤ Sparse.get 0 cells w.cell)

/-- A source is asserted, from the causes as they stand (18 R526). -/
def State.cause (s : State) (n : Nat) : Bool :=
  if n < 256 then
    match Sparse.find s.q.queues n with | some q => q.level s.time | none => false
  else if n < 352 then bit s.flt.coreFlags (n - 256)
  else if n < 384 then
    let p := (n - 352) / 8
    let f := s.evc.part.getD p {}
    match (n - 352) % 8 with
    | 0 => f.jobEnd && bit f.en 0
    | 1 => f.jobFault && bit f.en 1
    | 2 => s.evc.ring.any fun e => e / s.entriesPer == p
    | 3 => f.seqDrop && bit f.en 2
    | 4 => [p, 4 + p, 8 + p].any fun b => bit s.mig.evt b && bit s.mig.evtEn b
    | _ => false
  else if n < 392 then
    let on := fun b => bit s.wlk.evt b && bit s.wlk.evtEn b
    if n < 388 then on (n - 384) else if n = 388 then [4, 5, 6, 7].any on else if n = 389 then on 8
    else if n = 390 then on 9 else on 10 || on 11
  else if n < 400 then false
  else if n < 406 then
    let g := n - 400
    (bit s.evc.flashUncorr g && bit s.evc.flashEn g) || (bit s.evc.flashLost g && bit s.evc.flashEn (8 + g))
  else if n < 432 then false
  else if n < 441 then
    let on := fun b => bit s.ecc.evt b && bit s.ecc.evtEn b
    if n < 436 then on (n - 432) || on (n - 428) else if n = 436 then on 8 || on 9 else if n = 437 then on 10 || on 11
    else if n = 438 then on 12 else if n = 439 then bit s.mig.evt 12 && bit s.mig.evtEn 12 else on 13 || on 14
  else if n < 448 then false
  else if n < 458 then bit s.pwr.evt (n - 448) && bit s.pwr.evtEn (n - 448)
  else if n < 464 then false
  else if n < 473 then bit s.flt.evt (n - 464) && bit s.flt.evtEn (n - 464)
  else if n < 480 then false
  else if n < 512 then (s.evc.watches.getD (n - 480) {}).level s.sig.cells
  else false

/-- The sources that can change in the current power state (18 R539): in PS2 not the cores', in PS3 only 448-479. -/
def State.sourceMoves (s : State) (n : Nat) : Bool :=
  if s.pwr.ps = 3 then decide (448 ≤ n ∧ n < 480) else if s.pwr.ps = 2 then !decide (256 ≤ n ∧ n < 352) else true

/-- The level of source `n` (18 R525, R539): its cause, or the level it had at entry where the power state holds it. -/
def State.level (s : State) (n : Nat) : Bool :=
  match s.evc.frozenLevels with
  | some l => if s.sourceMoves n then s.cause n else l.contains n
  | none => s.cause n

/-- The configuration of source `n`; the vector of a source that is not listed is its number (18 R541). -/
def State.src (s : State) (n : Nat) : SrcCfg := Sparse.get { vector := n } s.evc.src n

/-- A source is PENDING at the host (18 R533). -/
def State.pendingSrc (s : State) (n : Nat) : Bool :=
  s.level n && (s.src n).hostEn && !s.evc.active.contains n

/-- A delivery to vector `v` is held by its mask or by the function mask (18 R534). -/
def State.vectorHeld (s : State) (v : Nat) : Bool := s.msix.fmask || (Sparse.get ({} : MsixEntry) s.msix.table v).mask

/-- The bits of the pending-bit array that read 1: each rises while a delivery to its vector is held by a vector or function mask, and
falls when no source routed to the vector is PENDING any more (18 R534). -/
def State.pbaBits (s : State) : List Nat :=
  ((s.evc.src.map fun (e : Nat × SrcCfg) => e.1).filter s.pendingSrc).foldl (fun l n =>
    let v := (s.src n).vector
    if !l.contains v && (s.vectorHeld v || s.msix.pba.contains v) then l ++ [v] else l) []

/-- ACTIVE sources that return to IDLE leave the active set (18 R533), sources that have deasserted are no longer handed to the management
cores (18 R537), and the pending-bit array follows (R534). Every command ends with it. -/
def settle (s : State) : State :=
  let s := { s with evc := { s.evc with
    active := s.evc.active.filter fun n => (s.src n).hostEn && (s.level n || !(s.src n).autoRearm)
    mgmtDone := s.evc.mgmtDone.filter fun e => s.level e.2 } }
  { s with msix := { s.msix with pba := s.pbaBits } }

/-- The command's next state. -/
def done (s : State) : Out := .next (settle s)

/-- The imago runs: its stage has begun, and start-up has not stopped before it (21 R590, R591). -/
def State.imagoRuns (s : State) : Bool := decide (0x21 ≤ s.gen.boot) && !([0x8001, 0x8002, 0x8003] : List Nat).contains s.gen.boot

/-! ## Wakes (19 R552-R554) -/

/-- PS0, with no entry and no exit in progress: the compute dies work (19 R550). -/
def State.awake (s : State) : Bool := s.pwr.ps == 0 && s.pwr.entering.isNone && !s.pwr.exiting

/-- Memory is in self-refresh, or on its way there or back: requests wait, in PS2 and PS3, during an exit or an abandonment, and from the
first step of an entry into PS2 on (19 R556, R559). -/
def State.holdsRequests (s : State) : Bool :=
  decide (2 ≤ s.pwr.ps) || s.pwr.exiting ||
    match s.pwr.entering with
    | some e => decide (2 ≤ e.target ∧ 1 ≤ e.done)
    | none => false

/-- A wake cause that brings the module back from power states `lowest` and deeper: an entry is abandoned at its next safe
point, an exit begins (19 R554, R559). POWER_WAKE ends the exit (DESIGN CHOICE, log 61). Work for a core ends the time in which every core
was quiescent (19 R552). -/
def State.wake (s : State) (lowest : Nat) : State :=
  let s := if lowest ≤ 1 then { s with pwr := { s.pwr with quietSince := none } } else s
  match s.pwr.entering with
  | some e => if lowest ≤ e.target then { s with pwr := { s.pwr with entering := some { e with abandon := true } } } else s
  | none => if lowest ≤ s.pwr.ps ∧ 0 < s.pwr.ps then { s with pwr := { s.pwr with exiting := true } } else s

/-- Activity: it restarts the timer that leads to PS2, and brings the module back from PS2 and PS3 (19 R552-R554). -/
def State.activity (s : State) : State := { s with pwr := { s.pwr with idleSince := s.time } }.wake 2

/-- A command that arrives during an entry into a power state: the entry is abandoned at its next safe point (19 R559). -/
def State.stopEntry (s : State) : State :=
  { s with pwr := { s.pwr with entering := s.pwr.entering.map fun (e : Entering) => { e with abandon := true } } }

/-! ## Event flags -/

/-- Set bit `b` of SB_ALERT (22 R614). -/
def State.sbAlert (s : State) (b : Nat) : State := { s with phys := { s.phys with sbAlert := setBit s.phys.sbAlert b } }

/-- Set bit `b` of FLT_EVT (20 R588), and the SB_ALERT bit that mirrors RECORD, HUB_HOLD or RESET_REQ (22 R614). -/
def State.fltEvt (s : State) (b : Nat) : State :=
  let s := { s with flt := { s.flt with evt := setBit s.flt.evt b } }
  match b with
  | 0 => s.sbAlert 1
  | 3 => s.sbAlert 3
  | 4 => s.sbAlert 2
  | _ => s

/-- Set bit `b` of WLK_EVT (17 R524). -/
def State.wlkEvt (s : State) (b : Nat) : State := { s with wlk := { s.wlk with evt := setBit s.wlk.evt b } }

/-- Set bit `b` of MIG_EVT (09 R276). -/
def State.migEvt (s : State) (b : Nat) : State := { s with mig := { s.mig with evt := setBit s.mig.evt b } }

/-- Set bit `b` of ECC_EVT (10 R298). -/
def State.eccEvt (s : State) (b : Nat) : State := { s with ecc := { s.ecc with evt := setBit s.ecc.evt b } }

/-- Set bit `b` of PWR_EVT (19 R562), and the SB_ALERT bit that mirrors a warning or INPUT_RANGE (22 R614). -/
def State.pwrEvt (s : State) (b : Nat) : State :=
  let s := { s with pwr := { s.pwr with evt := setBit s.pwr.evt b } }
  if 2 ≤ b ∧ b ≤ 6 then s.sbAlert 0 else if b = 8 then s.sbAlert 4 else s

/-- Change the flags of partition `p` (18 R527). -/
def State.partFlags (s : State) (p : Nat) (f : PartFlags → PartFlags) : State :=
  { s with evc := { s.evc with part := modifyAt s.evc.part p f } }

/-- Set the flag of core `n`; counter 22 counts the cores flagged (20 R573, R583). -/
def State.flagCore (s : State) (n : Nat) : State :=
  { s with flt := { s.flt with coreFlags := setBit s.flt.coreFlags n } }.lifeAdd 22 (if bit s.flt.coreFlags n then 0 else 1)

/-! ## Replies, error log and freeze (14 R411-R429) -/

/-- Queue `q`. -/
def State.queue (s : State) (q : Nat) : Option Queue := Sparse.find s.q.queues q

/-- Change queue `q`. -/
def State.setQueue (s : State) (q : Nat) (f : Queue → Queue) : State :=
  { s with q := { s.q with queues := Sparse.adjust s.q.queues q f } }

/-- The fetched command that a reference names: the one that has begun, for a CID is live on one command (14 R408). -/
def State.cmd (s : State) (r : CmdRef) : Option Cmd :=
  s.q.cmds.find? fun c => c.qid == r.qid && c.cid == r.cid && c.begun

/-- Change a begun command. -/
def State.setCmd (s : State) (r : CmdRef) (f : Cmd → Cmd) : State :=
  { s with q := { s.q with cmds := mapIf (fun c => c.qid == r.qid && c.cid == r.cid && c.begun) f s.q.cmds } }

/-- The statuses that never freeze a queue (14 R425). -/
def neverFreezes : List Nat := [0x0000, 0x0103, 0x0104, 0x0207, 0x0526, 0x0527, 0x052A, 0x0607]

/-- A reply of this status freezes a queue whose FREEZE_MASK is `mask` (14 R425). -/
def freezing (mask status : Nat) : Bool :=
  !neverFreezes.contains status && (status / 256 == 1 || status / 256 == 2 || bit mask (status / 256))

/-- Completion entries in use or promised of queue `q` (14 R413). -/
def State.inUse (s : State) (qid : Nat) (q : Queue) : Nat :=
  (s.q.cmds.filter fun c => c.qid == qid).length + q.cqTimes.length

/-- Append an error-log entry; the log holds the newest 256 (14 R427). -/
def State.logError (s : State) (e : ErrEntry) : State :=
  { s with q := { s.q with
      errLog := (s.q.errLog ++ [{ e with seq := s.q.errSeq, time := s.time }]).drop (s.q.errLog.length + 1 - 256)
      errSeq := s.q.errSeq + 1 } }

/-- Write one reply into the next completion entry of queue `qid` (14 R411, R412; DEDUCED, log 43). -/
def State.writeReply (s : State) (qid cid status result : Nat) : State :=
  match s.queue qid with
  | none => s
  | some q =>
    let s := { s with hostOut := s.hostOut ++
      [HostWrite.reply q.cqBase q.cqTail (result % 2 ^ 64) q.sqHead cid status qid q.phase] }
    s.setQueue qid fun q => { q with
      cqTail := (q.cqTail + 1) % q.cqDepth
      phase := if q.cqTail + 1 = q.cqDepth then !q.phase else q.phase
      cqTimes := q.cqTimes ++ [s.time] }

/-- The freeze of queue `qid` by the entry at ring index `index` (14 R426): commands that had not begun are returned, and
SQ_HEAD moves back to the first of them. -/
def State.freeze (s : State) (qid index : Nat) (keepHead : Option Nat) : State :=
  let back := s.q.cmds.filter fun c => c.qid == qid && !c.begun
  let s := s.setQueue qid fun q => { q with
    frozen := true
    failIndex := index
    failLog := s.q.errSeq % 65536
    sqHead := match back with | c :: _ => c.index | [] => keepHead.getD q.sqHead }
  { s with q := { s.q with cmds := s.q.cmds.filter fun c => !(c.qid == qid && !c.begun) } }

/-- DRAINED follows: a frozen queue no command of which remains (14 R426). -/
def State.markDrained (s : State) (qid : Nat) : State :=
  s.setQueue qid fun q => { q with
    drained := q.frozen && !(s.q.cmds.any fun c => c.qid == qid) }

/-- Add one to a counter of the telemetry log: histogram `h`, value `ns` (15 R448). -/
def State.histogram (s : State) (h ns : Nat) : State :=
  let k := 64 * h + Nat.log2 ns
  { s with gen := { s.gen with telemetry := Sparse.set 0 s.gen.telemetry k (sat64 (Sparse.get 0 s.gen.telemetry k + 1)) } }

/-- The fetch-to-reply time of a command (15 R448). -/
def State.commandTime (s : State) (c : Cmd) : State :=
  let op := (c.dwords.getD 0 0).toNat % 256
  let ns := s.time - c.fetchTime
  let s := if op / 32 < 6 then s.histogram (op / 32) ns else s
  if op = 0x20 then s.histogram 14 ns else if op = 0x22 then s.histogram 15 ns else s

/-- The error-log entry of a reply (14 R427). -/
def errEntry (s : State) (c : Cmd) (q : Queue) (status result : Nat) (record : Option Nat) : ErrEntry :=
  { seq := s.q.errSeq, qid := c.qid, opcode := (c.dwords.getD 0 0).toNat % 256, cid := c.cid, status := status,
    sqIndex := c.index, result := result % 2 ^ 64, param := c.param status, froze := !q.frozen, record := record, time := s.time }

/-- An event is logged through AER (14 R400). -/
def State.aerLog (s : State) (e : AerEvent) : State := { s with pci := { s.pci with aer := s.pci.aer ++ [e] } }

/-- The reply point of a fetched command (14 R417): its lock and its CID are released, a freezing status freezes its queue and enters the
error log, and the reply is written; HOST_ACCESS, a failed read of host memory, is logged through AER (R410). `record`: the fault record
it carries. -/
def State.replyTo (s : State) (c : Cmd) (status result : Nat) (record : Option Nat) : State :=
  let s := { s with q := { s.q with cmds := s.q.cmds.erase c }, pwr := { s.pwr with idleSince := s.time } }
  let s := s.commandTime c
  let s := if status = 0x0106 then s.aerLog (.read c.qid) else s
  match s.queue c.qid with
  | none => s
  | some q =>
    let fr := freezing q.freezeMask status
    let entry := errEntry s c q status result record
    let s := if fr && !q.frozen then s.freeze c.qid c.index none else s
    let s := if fr then s.logError entry else s
    (s.writeReply c.qid c.cid status result).markDrained c.qid

/-- The reply point of the begun command that a reference names. -/
def State.reply1 (s : State) (r : CmdRef) (status result : Nat) (record : Option Nat) : State :=
  match s.cmd r with
  | none => s
  | some c => s.replyTo c status result record

/-- Restarts whose queue is drained proceed (14 R428, R429): RESUME clears the freeze; DISCARD replies
QUEUE_DISCARDED to the entries up to the tail while the completion ring has room, then clears the freeze. -/
def discardLoop : Nat → PendingRestart → Nat → State → State × Bool
  | 0, _, _, s => (s, false)
  | n + 1, p, tail, s =>
    match s.queue p.qid with
    | none => (s, true)
    | some q =>
      if q.sqHead = tail then (s, true)
      else if q.cqDepth - 1 ≤ s.inUse p.qid q then (s, false)
      else
        let (cid, s) := match p.cids.find? fun e => e.1 == q.sqHead with
          | some e => (e.2, s)
          | none => (0xFFFF, s.aerLog (.packet p.qid q.sqHead))
        let s := s.setQueue p.qid fun q => { q with sqHead := (q.sqHead + 1) % q.sqDepth }
        discardLoop n p tail (s.writeReply p.qid cid 0x0207 0)

/-- One restart. -/
def State.tryRestart (s : State) (p : PendingRestart) : State :=
  match s.queue p.qid with
  | none => s
  | some q =>
    if !q.frozen then match p.cmd with
      | some r => s.reply1 r 0 0 none
      | none => s
    else if !q.drained then { s with q := { s.q with restarts := s.q.restarts ++ [p] } }
    else
      let tail := p.tail.getD q.sqTail
      let (s, fin) := if p.discard then discardLoop 65536 p tail s else (s, true)
      if fin then
        let s := s.setQueue p.qid fun q => { q with frozen := false, drained := false }
        match p.cmd with
        | some r => s.reply1 r 0 0 none
        | none => s
      else
        let p := { p with tail := some tail }
        { s with q := { s.q with restarts := s.q.restarts ++ [p] } }

/-- Every restart that waits. -/
def State.restarts (s : State) : State :=
  s.q.restarts.foldl State.tryRestart { s with q := { s.q with restarts := [] } }

/-- The reply point of a command, with the ABORT that waits for it (14 R431: it replies ALREADY_DONE) and the restarts
that its queue's draining lets proceed. -/
def State.replyRec (s : State) (r : CmdRef) (status result : Nat) (record : Option Nat) : State :=
  let ab := match s.cmd r with | some c => c.abortBy | none => none
  let s := s.reply1 r status result record
  let s := match ab with | some a => s.reply1 a 0x0104 0 none | none => s
  s.restarts

/-- A reply without a fault record. -/
def State.reply (s : State) (r : CmdRef) (status result : Nat) : State := s.replyRec r status result none

/-- A reply of SUCCESS. -/
def State.ok (s : State) (r : CmdRef) (result : Nat) : State := s.reply r 0 result

/-- The writes that lay bytes into a command's buffer from byte `off` on: each at the address of its descriptor, with Relaxed Ordering
only where the function's bit is 1 (14 R401, R409). -/
def State.dataWrites (s : State) (r : CmdRef) (buf off : Nat) (bs : List Byte) : List HostWrite :=
  match s.cmd r with
  | none => []
  | some c => (pieces (c.descs.filter fun d => d.buf == buf) off bs).map fun e =>
      .data r buf e.1 (Config.relaxed && s.pci.enableRo) e.2

/-- Bytes written into a command's buffer in host memory from byte `off` on, before its reply (14 R401). -/
def State.hostDataAt (s : State) (r : CmdRef) (buf off : Nat) (bs : List Byte) : State :=
  { s with hostOut := s.hostOut ++ s.dataWrites r buf off bs }

/-- Bytes written into a command's buffer. -/
def State.hostData (s : State) (r : CmdRef) (buf : Nat) (bs : List Byte) : State := s.hostDataAt r buf 0 bs

/-- The command's row: `f` on the command where it has begun, bears opcode `op` and its row has not executed; the state
unchanged otherwise (DESIGN CHOICE, log 11). `f` is given the command, and the state in which the command is marked as started. -/
def withCmd (s : State) (r : CmdRef) (op : Nat) (f : Cmd → State → State) : Out :=
  match s.cmd r with
  | some c =>
    if c.dw 0 % 256 = op ∧ c.started = false then done (f c (s.setCmd r fun c => { c with started := true }))
    else done s
  | none => done s

/-! ## Faults latched (20 R566 step 1) -/

/-- The fault of a job or of a command is latched. A further fault of the same job before its confinement ends only counts
(20 R567, 06 R185). Detections wait for FAULT_DETECT, oldest first; a fault wakes the module (20 R567). -/
def State.latch (s : State) (scope : FaultScope) (info : FaultInfo) : State :=
  let fresh := fun (s : State) (job : Nat) =>
    let d : Detection := ⟨s.flt.nextRecord, scope, job, info, s.time, 0⟩
    { s with flt := { s.flt with nextRecord := s.flt.nextRecord + 1, detections := s.flt.detections ++ [d] } }.wake 1
  match scope with
  | .job p =>
    match s.run p with
    | none => s
    | some r =>
      if r.state = .faulted then
        let ds := mapIf (fun d => d.scope == .job p) (fun d => { d with others := min 65535 (d.others + 1) })
          s.flt.detections
        { s with flt := { s.flt with detections := ds } }
      else (fresh s r.number).setRun p fun r => { r with state := .faulted }
  | _ => fresh s 0

/-- FLT_STATUS.FAULTED of partition `p`: between steps 1 and 6 (20 R587). -/
def State.faulted (s : State) (p : Nat) : Bool := s.flt.detections.any fun d => d.scope == .job p

/-- A program fault of core `n` (06 R185): status 0x0510 with core, PC, reason, instruction and, for TRAP, its code. -/
def State.programFault (s : State) (n reason code : Nat) (addr : Nat) (space : FaultSpace) (instr : List Word) (pc : Nat) :
    State :=
  (s.latch (.job (s.partOfCore n))
    { status := 0x0510, core := some n, pc := pc, reason := reason, code := code, addr := addr, space := space,
      instr := instr }).setCore n fun c => { c with run := .stopped }

end Sys2Proof.Machine
end

