-- ==== Sys2Proof/Machine/FlashBase.lean ====
section
/-!
DEFINITION. FlashBase.lean: where a zone lies (13 R361, R362), zones, the write buffer, encryption (R376, R394, R395), dies, sector
status words (R390), the zone journal, retirement, and what reset and finish do to a zone (13 R371, R372, R378-R385).
-/
namespace Sys2Proof.Machine

/-- Zones of the module (13). -/
def numZones : Nat := 368640

/-- Logical blocks of a zone (13 R364). -/
def zoneBlocks : Nat := 524288

/-- The zone of a logical block. -/
def zoneOf (lba : Nat) : Nat := lba / zoneBlocks

/-- The offset of a logical block in its zone. -/
def zoneOff (lba : Nat) : Nat := lba % zoneBlocks

/-- The channel of unit `u` of zone `z` (13 R362). -/
def channelOf (z u : Nat) : Nat := 16 * (z % 6) + u % 16

/-- The erase block of zone `z` on each of its dies (13 R362). -/
def blockOfZone (z : Nat) : Nat := z / 6 / 16

/-- Zone `z`. -/
def State.zone (s : State) (z : Nat) : Zone := Sparse.get {} s.fl.zones z

/-- Change zone `z`. -/
def State.setZone (s : State) (z : Nat) (f : Zone → Zone) : State :=
  { s with fl := { s.fl with zones := Sparse.set {} s.fl.zones z (f (s.zone z)) } }

/-- The program unit of a logical block stands in the write buffer (13 R369). -/
def State.inBuffer (s : State) (lba : Nat) : Bool := s.fl.buffered.contains (zoneOf lba, zoneOff lba / 16)

/-- The blocks of a read that flash pages must deliver: those not served from the write buffer (13 R370). -/
def State.pageReads (s : State) (first n : Nat) : List Nat :=
  ((List.range n).map fun i => first + i).filter fun b => !s.inBuffer b

/-- The blocks of a range are readable: one zone, not OFFLINE, below the write pointer (13 R364, R370). -/
def State.readable (s : State) (first n : Nat) : Bool :=
  let z := zoneOf first
  decide (z < numZones) && (s.zone z).state != .offline && decide (zoneOff first + n ≤ (s.zone z).wp)

/-! ## Encryption (13 R376, R394, R395) -/

/-- The XTS engine's key: the data key of the generation in force. -/
def State.dataKey (s : State) : List Byte := Config.dataKey s.fl.keyGen

/-- The code word of a logical block: its plaintext encrypted under the key of the generation in force, the tweak its address. -/
def State.encrypt (s : State) (lba : Nat) (pad : Bool) (bs : List Byte) : FlashWord :=
  ⟨lba, s.fl.keyGen, crc32c bs, pad, xtsEncrypt s.dataKey lba bs⟩

/-- The plaintext of a code word read at `lba`; a block of another generation is never decrypted. -/
def State.decrypt (s : State) (lba : Nat) (w : FlashWord) : List Byte :=
  if w.gen = s.fl.keyGen then xtsDecrypt s.dataKey lba w.cipher else List.replicate 4096 0

/-- The checks on a block after its decryption fail: it counts as uncorrectable (13 R376, R395). -/
def State.wordBad (s : State) (lba : Nat) : Bool :=
  match Sparse.find s.fl.words lba with
  | some w => w.gen != s.fl.keyGen || w.lba != lba || crc32c (s.decrypt lba w) != w.crc
  | none => false

/-- The 4,096 bytes of a logical block: decrypted from its code word, or as the write buffer holds them. -/
def State.blockBytes (s : State) (lba : Nat) : List Byte :=
  match Sparse.find s.fl.words lba with
  | some w => s.decrypt lba w
  | none => Sparse.getList 0 s.fl.data (lba * 4096) 4096

/-- Bytes of consecutive logical blocks. -/
def State.blocksBytes (s : State) (first n : Nat) : List Byte := (List.range n).flatMap fun i => s.blockBytes (first + i)

/-- The logical blocks of unit `u` of zone `z`. -/
def unitLbas (z u : Nat) : List Nat := (List.range 16).map fun i => z * zoneBlocks + 16 * u + i

/-- The offset is that of a pad block. -/
def Zone.isPad (x : Zone) (off : Nat) : Bool := x.padAt.any fun r => decide (r.1 ≤ off ∧ off < r.2)

/-- Pad blocks below the write pointer (13 R381). -/
def Zone.pads (x : Zone) : Nat := (x.padAt.map fun r => min r.2 x.wp - r.1).sum

/-- Unit `u` of zone `z` is programmed: its blocks stand on flash, and no longer in the write buffer. -/
def State.programUnit (s : State) (z u : Nat) : State :=
  let words := (unitLbas z u).foldl (fun (m : Sparse FlashWord) b =>
    Sparse.put m b (s.encrypt b ((s.zone z).isPad (zoneOff b)) (Sparse.getList 0 s.fl.data (b * 4096) 4096))) s.fl.words
  let lo := (z * zoneBlocks + 16 * u) * 4096
  { s with fl := { s.fl with
      words := words, data := Sparse.clear s.fl.data lo (lo + 65536), buffered := s.fl.buffered.erase (z, u) } }

/-! ## Sectors of system flash (13 R388-R390) -/

/-- The status word of a sector. -/
def State.sectorWord (s : State) (k : Nat) : Nat := Sparse.get wordErased s.sf.words k

/-- A status word is programmed. -/
def State.setWord (s : State) (k w : Nat) : State :=
  { s with sf := { s.sf with words := Sparse.set wordErased s.sf.words k w } }

/-- Erases of a device sector counted (13 R388). -/
def State.countSector (s : State) (k : Nat) : State :=
  { s with sf := { s.sf with erases := Sparse.set 0 s.sf.erases k (Sparse.get 0 s.sf.erases k + 1) } }

/-- A sector is erased under its status word, and verified. -/
def State.eraseSector (s : State) (k : Nat) : State := (s.countSector k).setWord k wordErased

/-- A sector is erased and its contents written in full. -/
def State.rewriteSector (s : State) (k : Nat) : State := (s.eraseSector k).setWord k wordValid

/-- The place of the next lifetime record. -/
def State.setLifeAt (s : State) (v : Nat × Nat) : State := { s with sf := { s.sf with lifeAt := v } }

/-! ## Blocks and dies -/

/-- The block that stands in the place of block `b`, retirements followed (13 R378). -/
def follow (l : List (Nat × Nat)) : Nat → Nat → Nat
  | 0, b => b
  | k + 1, b => match l.find? fun e => e.1 == b with | some e => follow l k e.2 | none => b

/-- The block at channel position `p` of zone `z`, numbered die * 4096 + block (13 R362). -/
def State.blockAt (s : State) (z p : Nat) : Nat :=
  follow s.fl.retired s.fl.retired.length ((16 * channelOf z p + z / 6 % 16) * 4096 + blockOfZone z)

/-- The die of unit `u` of zone `z`, numbered 16 * channel + die. -/
def State.dieAt (s : State) (z u : Nat) : Nat := s.blockAt z (u % 16) / 4096

/-- Die `d`. -/
def State.die (s : State) (d : Nat) : Die := Sparse.get {} s.fl.dies d

/-- Powered time in ns (20 R581). -/
def State.powered (s : State) : Nat := s.life.poweredNs + s.time

/-- An hour of a die's reads has ended, over 1 % of them with shifted levels (20 R576). -/
def Die.shifty (x : Die) (now : Nat) : Bool :=
  x.shiftDue || (decide (x.hourAt + 3600000000000 ≤ now) && decide (x.hourReads < 100 * x.hourShifted))

/-- A die has delivered a page, with shifted levels or not (20 R576); hours follow one another from read to read (DESIGN CHOICE, log 32). -/
def Die.countRead (x : Die) (now : Nat) (shifted : Bool) : Die :=
  let x := if x.hourAt + 3600000000000 ≤ now then { x with shiftDue := x.shifty now, hourAt := now, hourReads := 0, hourShifted := 0 } else x
  { x with hourReads := x.hourReads + 1, hourShifted := x.hourShifted + if shifted then 1 else 0 }

/-- A calibration of die `d` is due: 100 erases after the last one, 168 hours of powered time, or an hour in which over 1 % of its reads
needed shifted levels (20 R576). -/
def State.calibrationDue (s : State) (d : Nat) : Bool :=
  decide (100 ≤ (s.die d).erasesSince) || decide ((s.die d).calAt + 604800000000000 ≤ s.powered) || (s.die d).shifty s.powered

/-- Change die `d`. -/
def State.setDie (s : State) (d : Nat) (f : Die → Die) : State :=
  { s with fl := { s.fl with dies := Sparse.set {} s.fl.dies d (f (s.die d)) } }

/-! ## The zone journal (13 R384, R389, R390) -/

/-- A block in the form of BLOCK_RETIRE: channel [6:0], die [10:7], block [22:11]. -/
def blockForm (b : Nat) : Nat := b / 4096 / 16 + 2 ^ 7 * (b / 4096 % 16) + 2 ^ 11 * (b % 4096)

/-- The block that a form names. -/
def formBlock (v : Nat) : Nat := (16 * bits v 0 7 + bits v 7 4) * 4096 + bits v 11 12

/-- TYPE, OBJECT, ARG0 and ARG1 of a record (13 R384). -/
def JournalRec.fields : JournalRec → Nat × Nat × Nat × Nat
  | .eraseIntent z m => (1, z, m, 0)
  | .eraseDone z m => (2, z, m, 0)
  | .finish z wp => (3, z, wp, 0)
  | .pad z a b => (4, z, a, b)
  | .retire z b r => (5, z, blockForm b, blockForm r)
  | .sfIntent k => (6, k, 0, 0)
  | .sfDone k => (7, k, 0, 0)
  | .cryptoErase g => (8, 0, g, 0)
  | .checkpoint n b => (9, 0, n, blockForm b % 2 ^ 11)
  | .zoneState z st lost => (10, z, (if st = .readOnly then 4 else 5) + 2 ^ 8 * b2n lost, 0)

/-- The 32 bytes of a record. -/
def JournalRec.bytes (seq : Nat) (r : JournalRec) : List Byte :=
  let (t, o, a, b) := r.fields
  let body := leBytes 4 t ++ leBytes 8 seq ++ leBytes 4 o ++ leBytes 4 a ++ leBytes 4 b ++ leBytes 4 0
  body ++ leBytes 4 (crc32c body)

/-- SEQ of a record's bytes. -/
def recordSeq (bs : List Byte) : Nat := leNat ((bs.drop 4).take 8)

/-- The record that 32 bytes hold; none where its CRC fails (13 R386). -/
def recordOf (bs : List Byte) : Option JournalRec :=
  let w := fun i => leNat ((bs.drop (4 * i)).take 4)
  if crc32c (bs.take 28) ≠ w 7 then none
  else match bits (w 0) 0 8 with
    | 1 => some (.eraseIntent (w 3) (w 4))
    | 2 => some (.eraseDone (w 3) (w 4))
    | 3 => some (.finish (w 3) (w 4))
    | 4 => some (.pad (w 3) (w 4) (w 5))
    | 5 => some (.retire (w 3) (formBlock (w 4)) (formBlock (w 5)))
    | 6 => some (.sfIntent (w 3))
    | 7 => some (.sfDone (w 3))
    | 8 => some (.cryptoErase (w 4))
    | 9 => some (.checkpoint (w 4) (formBlock (w 5)))
    | 10 => some (.zoneState (w 3) (if bits (w 4) 0 8 = 4 then .readOnly else .offline) (bit (w 4) 8))
    | _ => none

/-- Records in a journal sector, after its status word (13 R384, R389, R390). -/
def journalPerSector : Nat := 2047

/-- Append a record to the zone journal: to the open sector, or to the next one in order (13 R384, R387, R390; DESIGN CHOICE, log 67). -/
def State.journal (s : State) (r : JournalRec) : State :=
  let bs := r.bytes s.fl.journalSeq
  let put := fun (s : State) (l : List JournalSector) =>
    { s with fl := { s.fl with journal := l, journalSeq := s.fl.journalSeq + 1 } }
  match s.fl.journal.getLast? with
  | none => put (s.setWord 1040 wordOpen) [⟨1040, [bs]⟩]
  | some j =>
    if s.sectorWord j.sector = wordOpen ∧ j.records.length < journalPerSector then
      let s := if j.records.length + 1 = journalPerSector then s.setWord j.sector wordValid else s
      put s (s.fl.journal.dropLast ++ [{ j with records := j.records ++ [bs] }])
    else
      let k := 1040 + (j.sector - 1040 + 1) % 1008
      put (s.setWord k wordOpen) (s.fl.journal ++ [⟨k, [bs]⟩])

/-- A record of `n` bytes enters the lifetime log: 1,024 sectors from 2,048 used in a ring, a record in one sector after its status
word; the sector after the one in use is kept erased (13 R388, R389; 20 R572, R581; DESIGN CHOICE, log 113). -/
def State.logLife (s : State) (n : Nat) : State :=
  let put (s : State) (k at_ : Nat) : State := (s.setWord (2048 + k) wordOpen).setLifeAt (k, at_ + n)
  let (k, at_) := s.sf.lifeAt
  if s.sectorWord (2048 + k) ≠ wordValid ∧ at_ + n + 4 ≤ 65536 then put s k at_
  else
    let s := s.setWord (2048 + k) wordValid
    let s := put s ((k + 1) % 1024) 0
    let k := 2048 + (k + 2) % 1024
    if s.sectorWord k = wordErased then s else s.eraseSector k

/-! ## The work of the dies (13 R382) -/

/-- Zones that are OPEN (13 R365). -/
def State.openZones (s : State) : Nat := (s.fl.zones.filter fun (e : Nat × Zone) => e.2.state == .opened).length

/-- A unit is ready for its die: every block of it has been placed, and no erase of its zone is pending. -/
def State.unitReady (s : State) (z u : Nat) : Bool := !(s.zone z).erasing && decide ((u + 1) * 16 ≤ (s.zone z).seqPtr)

/-- What die `d` does next: the oldest pending erase of one of its blocks, else the first unit ready for it
(DESIGN CHOICE, log 66). -/
def State.dieNext (s : State) (d : Nat) : Option DieOp :=
  let er := s.fl.eraseQ.findSome? fun z =>
    ((List.range 16).find? fun p => s.dieAt z p == d).map fun p => DieOp.erase z p
  match er with
  | some o => some o
  | none => s.fl.buffered.findSome? fun (e : Nat × Nat) =>
      if s.dieAt e.1 e.2 = d ∧ s.unitReady e.1 e.2 = true then some (DieOp.program e.1 e.2) else none

/-- The intent of an erase is programmed before the erase begins (13 R385). -/
def State.intendErase (s : State) (z : Nat) : State :=
  if (s.zone z).intent then s
  else (s.journal (.eraseIntent z 0xFFFF)).setZone z fun x => { x with intent := true }

/-- An idle die begins its next operation. -/
def State.kickDie (s : State) (d : Nat) : State :=
  if (s.die d).op.isSome then s
  else match s.dieNext d with
    | some o =>
      let s := match o with | .erase z _ => s.intendErase z | .program _ _ => s
      s.setDie d fun x => { x with op := some o, suspended := false, suspends := 0, served := 0, since := s.time }
    | none => s

/-- The sixteen dies of zone `z` begin what they can. -/
def State.kickZone (s : State) (z : Nat) : State :=
  (List.range 16).foldl (fun s p => s.kickDie (s.dieAt z p)) s

/-- A die's operation ends or is given up. -/
def State.freeDie (s : State) (d : Nat) : State :=
  s.setDie d fun x => { x with op := none, suspended := false, suspends := 0, served := 0 }

/-- The operations on zone `z` from unit `u` on are given up, and those units leave the write buffer. -/
def State.dropUnits (s : State) (z u : Nat) : State :=
  let mine := fun (o : Option DieOp) => match o with
    | some (.program y v) => y == z && decide (u ≤ v)
    | some (.erase y _) => y == z
    | none => false
  let s := (List.range 16).foldl (fun s p => let d := s.dieAt z p; if mine (s.die d).op then s.freeDie d else s) s
  let lo := z * zoneBlocks + 16 * u
  let hi := (z + 1) * zoneBlocks
  { s with fl := { s.fl with
      buffered := s.fl.buffered.filter fun e => !(e.1 == z && decide (u ≤ e.2)), data := Sparse.clear s.fl.data (lo * 4096) (hi * 4096) } }

/-! ## Retirement (13 R378, R379) -/

/-- Spares of each die. -/
def sparesPerDie : Nat := 252

/-- Free spares of a channel. -/
def State.freeSpares (s : State) (ch : Nat) : Nat :=
  ((List.range 16).map fun i => sparesPerDie - Sparse.get 0 s.fl.spares (16 * ch + i)).sum

/-- The spare that replaces a block of die `d`: of the same die, else the lowest-numbered free one of the channel. -/
def State.spareFor (s : State) (d : Nat) : Option Nat :=
  (d :: (List.range 16).map fun i => 16 * (d / 16) + i).find? fun x => decide (Sparse.get 0 s.fl.spares x < sparesPerDie)

/-- The source of the channel group of zone `z` is raised: bit 0-5 of a FLASH flags field (18 R529). -/
def State.flashUncorr (s : State) (z : Nat) : State :=
  { s with evc := { s.evc with flashUncorr := setBit s.evc.flashUncorr (z % 6) } }

/-- Acknowledged blocks of a zone were lost (13 R379; 18 R529). -/
def State.flashLost (s : State) (z : Nat) : State :=
  { s with evc := { s.evc with flashLost := setBit s.evc.flashLost (z % 6) } }

/-- Spare number `used` of die `d` takes the place of block `b`. -/
def State.takeSpare (s : State) (b d used : Nat) : State :=
  { s with fl := { s.fl with
      spares := Sparse.set 0 s.fl.spares d (used + 1), retired := s.fl.retired ++ [(b, d * 4096 + (3844 + used))] } }

/-- Erases of a block (13 R380). -/
def State.erasesOf (s : State) (b : Nat) : Nat := Sparse.get 0 s.fl.blockErases b

/-- A block is erased once more: its count saturates (13 R380; DEDUCED, log 36). -/
def State.countErase (s : State) (b : Nat) : State :=
  { s with fl := { s.fl with blockErases := Sparse.set 0 s.fl.blockErases b (min 65535 (s.erasesOf b + 1)) } }

/-- A block of channel `ch` is counted as retired. -/
def State.countRetired (s : State) (ch : Nat) : State :=
  let n := Sparse.get 0 s.life.chanRetired ch
  { s with life := { s.life with chanRetired := Sparse.set 0 s.life.chanRetired ch (sat64 (n + 1)) } }.lifeAdd 23 1

/-- The block at position `p` of zone `z` is retired, where the channel has more than `keep` spares left: the record precedes its spare's
use, and each block keeps its own erase count (13 R378, R380). -/
def State.retire (s : State) (z p keep : Nat) : Option State :=
  let b := s.blockAt z p
  let ch := b / 4096 / 16
  match s.spareFor (b / 4096) with
  | none => none
  | some d =>
    if s.freeSpares ch ≤ keep then none
    else
      let used := Sparse.get 0 s.fl.spares d
      let s := ((s.journal (.retire z b (d * 4096 + (3844 + used)))).takeSpare b d used).countRetired ch
      let s := s.setZone z fun x => { x with suspect := x.suspect.filter fun q => q != p }
      some (if s.freeSpares ch ≤ 64 then s.fltEvt 7 else s)

/-- Several positions retired in ascending order; none where a spare is missing. -/
def retireAll (z keep : Nat) : List Nat → State → State × Bool
  | [], s => (s, true)
  | p :: t, s => match s.retire z p keep with
    | some s => retireAll z keep t s
    | none => (s, false)

/-! ## Zones that leave service, reset and finish -/

/-- A zone becomes OFFLINE (13 R364). -/
def State.offline (s : State) (z : Nat) : State :=
  let s := (s.dropUnits z 0).journal (.zoneState z .offline (s.zone z).lost)
  let s := { s with fl := { s.fl with eraseQ := s.fl.eraseQ.filter fun y => y != z } }
  ((s.setZone z fun x => { x with state := .offline, wp := 0, seqPtr := 0, erasing := false, intent := false, padAt := [] }).lifeAdd 25 1).kickZone z

/-- A zone is EMPTY, and its erase is pending (13 R371, R397; DEDUCED, log 65). -/
def State.markErase (s : State) (z : Nat) : State :=
  let s := (s.dropUnits z 0).setZone z fun x => { x with
    state := .empty, wp := 0, seqPtr := 0, erasing := true, paddedLast := false, padAt := [] }
  let q := s.fl.eraseQ
  { s with fl := { s.fl with eraseQ := if q.contains z then q else q ++ [z] } }

/-- A zone is marked to be erased: its intent is journalled first (13 R371 steps 2 and 4). -/
def State.eraseZone (s : State) (z : Nat) : State :=
  (((s.journal (.eraseIntent z 0xFFFF)).setZone z fun x => { x with intent := true }).markErase z).kickZone z

/-- A reset of a zone takes effect (13 R364, R371, R378, R379): suspect blocks are retired first. -/
def State.resetZone (s : State) (z : Nat) : State :=
  if (s.zone z).state = .readOnly then s.offline z
  else
    let (s, fine) := retireAll z 64 (sortBy (fun a b => decide (a < b)) (s.zone z).suspect) s
    if fine then s.eraseZone z else s.offline z

/-- The partial unit at the sequencing pointer is padded with zero blocks (13 R372). -/
def State.padTail (s : State) (z : Nat) : State :=
  let at_ := (s.zone z).seqPtr
  let top := 16 * ceilDiv at_ 16
  if top = at_ then s
  else (s.setZone z fun x => { x with seqPtr := top, padAt := x.padAt ++ [(at_, top)] }).kickZone z

/-- A zone is finished (13 R372): its partial unit is padded. -/
def State.finishZone (s : State) (z : Nat) : State :=
  let s := s.padTail z
  let top := (s.zone z).seqPtr
  let s := s.journal (.finish z top)
  (s.setZone z fun x => { x with state := .finished, wp := top }).kickZone z

/-- Blocks placed from offset `first` on stand in the write buffer, and their units until they are programmed (13 R369, R378). -/
def State.bufferUnits (s : State) (z first n : Nat) (bs : List Byte) : State :=
  let us := (List.range ((first + n - 1) / 16 - first / 16 + 1)).map fun i => (z, first / 16 + i)
  { s with fl := { s.fl with
      data := Sparse.setList 0 s.fl.data ((z * zoneBlocks + first) * 4096) bs
      buffered := s.fl.buffered ++ us.filter fun u => !s.fl.buffered.contains u } }

/-- The blocks of a write stand below the write pointer (13 R364, R369). -/
def State.landBlocks (s : State) (z first n : Nat) : State :=
  (s.setZone z fun x => { x with
    wp := first + n, paddedLast := false, state := if first + n = zoneBlocks then .full else x.state }).lifeAdd 26 n

/-- The uncorrectable block at `lba`: it is suspect, and its channel counts it (13 R377). -/
def State.suspectBlock (s : State) (lba : Nat) : State :=
  let z := zoneOf lba
  let p := zoneOff lba / 16 % 16
  let ch := channelOf z p
  let s := s.setZone z fun x => { x with suspect := if x.suspect.contains p then x.suspect else x.suspect ++ [p] }
  ({ s with life := { s.life with
    chanUncorr := Sparse.set 0 s.life.chanUncorr ch (sat64 (Sparse.get 0 s.life.chanUncorr ch + 1)) } }).flashUncorr z

end Sys2Proof.Machine
end

