-- ==== Sys2Proof/Machine/Float32.lean ====
section
/-!
DEFINITION. Float32.lean: exact dyadic numbers and the binary32 arithmetic of the reduction unit: one IEEE 754
rounding to nearest, ties to even, subnormals kept, one NaN (05 R132, R137).
-/
namespace Sys2Proof.Machine

/-- The exact number `m * 2 ^ e`. -/
structure Dyadic where
  m : Int
  e : Int
  deriving DecidableEq, Repr

/-- `m * 2 ^ (e - k)` rendered at the lower exponent `k ≤ e`. -/
def Dyadic.at (a : Dyadic) (k : Int) : Int := a.m * ((2 ^ (a.e - k).toNat : Nat) : Int)

def Dyadic.add (a b : Dyadic) : Dyadic := let k := min a.e b.e; ⟨a.at k + b.at k, k⟩

def Dyadic.mul (a b : Dyadic) : Dyadic := ⟨a.m * b.m, a.e + b.e⟩

/-- `n / d` rounded to the nearest integer, ties to even. -/
def roundDivEven (n : Int) (d : Nat) : Int :=
  let q := n / (d : Int)
  let r := (n % (d : Int)).toNat
  if 2 * r < d then q else if d < 2 * r then q + 1 else if q % 2 = 0 then q else q + 1

/-- The integer nearest to a dyadic number, ties to even (03 R69). -/
def Dyadic.roundEven (a : Dyadic) : Int :=
  if 0 ≤ a.e then a.m * ((2 ^ a.e.toNat : Nat) : Int) else roundDivEven a.m (2 ^ (-a.e).toNat)

/-- The greatest integer at or below a dyadic number. -/
def Dyadic.floor (a : Dyadic) : Int :=
  if 0 ≤ a.e then a.m * ((2 ^ a.e.toNat : Nat) : Int) else a.m / ((2 ^ (-a.e).toNat : Nat) : Int)

/-- The quiet NaN of the reduction unit (05 R137). -/
def nan32 : B32 := 0x7FC00000

def inf32 (neg : Bool) : B32 := if neg then 0xFF800000 else 0x7F800000

def isNan32 (x : B32) : Bool := bits x 23 8 = 255 && bits x 0 23 ≠ 0

def isInf32 (x : B32) : Bool := bits x 23 8 = 255 && bits x 0 23 = 0

def isFinite32 (x : B32) : Bool := bits x 23 8 ≠ 255

def neg32 (x : B32) : Bool := bit x 31

/-- The exact value of a finite binary32. -/
def val32 (x : B32) : Dyadic :=
  let e := bits x 23 8
  let f := bits x 0 23
  let m : Nat := if e = 0 then f else f + 2 ^ 23
  let e' : Int := if e = 0 then -149 else (e : Int) - 150
  ⟨if neg32 x then -(m : Int) else (m : Int), e'⟩

/-- `m * 2 ^ e`, `m ≥ 0`, with the sign given, rounded once to binary32; zero keeps the sign given. -/
def pack32 (neg : Bool) (m : Nat) (e : Int) : B32 :=
  let s : Nat := if neg then 2 ^ 31 else 0
  if m = 0 then s else
    let top : Int := (Nat.log2 m : Int) + e
    let q : Int := max (top - 23) (-149)
    let mant : Nat := if q ≤ e then m * 2 ^ (e - q).toNat else (roundDivEven m (2 ^ (q - e).toNat)).toNat
    let raw : Nat := if mant < 2 ^ 23 then mant else (q + 150).toNat * 2 ^ 23 + (mant - 2 ^ 23)
    if 0x7F800000 ≤ raw then s + 0x7F800000 else s + raw

/-- A dyadic number rounded once to binary32; `neg0` is the sign of an exact zero. -/
def round32 (neg0 : Bool) (a : Dyadic) : B32 :=
  if a.m = 0 then pack32 neg0 0 0 else pack32 (decide (a.m < 0)) a.m.natAbs a.e

/-- The binary32 nearest to an integer (05 R138 float()). -/
def ofNat32 (n : Nat) : B32 := pack32 false n 0

def negate32 (x : B32) : B32 := if neg32 x then x - 2 ^ 31 else x + 2 ^ 31

def add32 (x y : B32) : B32 :=
  if isNan32 x || isNan32 y then nan32
  else if isInf32 x then (if isInf32 y && neg32 x != neg32 y then nan32 else x)
  else if isInf32 y then y
  else round32 (neg32 x && neg32 y) ((val32 x).add (val32 y))

def sub32 (x y : B32) : B32 := if isNan32 y then nan32 else add32 x (negate32 y)

def isZero32 (x : B32) : Bool := bits x 0 31 = 0

def mul32 (x y : B32) : B32 :=
  let s := neg32 x != neg32 y
  if isNan32 x || isNan32 y then nan32
  else if isInf32 x || isInf32 y then (if isZero32 x || isZero32 y then nan32 else inf32 s)
  else
    let p := (val32 x).mul (val32 y)
    pack32 s p.m.natAbs p.e

/-- `x / y`: the quotient to 60 bits with a sticky bit decides the rounding exactly. -/
def div32 (x y : B32) : B32 :=
  let s := neg32 x != neg32 y
  if isNan32 x || isNan32 y then nan32
  else if isInf32 x then (if isInf32 y then nan32 else inf32 s)
  else if isInf32 y then pack32 s 0 0
  else if isZero32 y then (if isZero32 x then nan32 else inf32 s)
  else
    let a := val32 x
    let b := val32 y
    let n := a.m.natAbs * 2 ^ 60
    let d := b.m.natAbs
    let q := n / d
    let st := if n % d = 0 then 0 else 1
    pack32 s (2 * q + st) (a.e - b.e - 61)

/-- The integer square root of `m`, by the bits below bit `k` added to `r`. -/
def isqrtFrom : Nat → Nat → Nat → Nat
  | 0, _, r => r
  | k + 1, m, r => if (r + 2 ^ k) * (r + 2 ^ k) ≤ m then isqrtFrom k m (r + 2 ^ k) else isqrtFrom k m r

/-- `sqrt x`, correctly rounded (06 R169). -/
def sqrt32 (x : B32) : B32 :=
  if isNan32 x then nan32
  else if isZero32 x then x
  else if neg32 x then nan32
  else if isInf32 x then x
  else
    let a := val32 x
    let odd := a.e % 2 ≠ 0
    let m := (if odd then 2 * a.m.natAbs else a.m.natAbs) * 2 ^ 60
    let e := (if odd then a.e - 1 else a.e) - 60
    let r := isqrtFrom 48 m 0
    let st := if r * r = m then 0 else 1
    pack32 false (2 * r + st) (e / 2 - 1)

/-- Fused multiply-add `x * y + z`, one rounding (05 R138). -/
def fma32 (x y z : B32) : B32 :=
  if isNan32 x || isNan32 y || isNan32 z then nan32
  else if isInf32 x || isInf32 y then add32 (mul32 x y) z
  else if isInf32 z then z
  else
    let p := (val32 x).mul (val32 y)
    round32 ((neg32 x != neg32 y) && neg32 z) (p.add (val32 z))

/-- `|x| ≥ |y|` of two finite binary32. -/
def absGe32 (x y : B32) : Bool := bits y 0 31 ≤ bits x 0 31

end Sys2Proof.Machine
end

