-- ==== Sys2Proof/Machine/Sigma.lean ====
section
/-!
DEFINITION. Sigma.lean: the table of the smooth gated unit (03 R71): `s i` is the integer nearest to
65,536 / (1 + exp (-(i - 512) / 32)), i = 0 … 1,024. The rows 0 … 512 are written out; the rest follow from
s (1,024 - i) = 65,536 - s i, which the formula gives.
-/
namespace Sys2Proof.Machine

/-- `s i` for i = 0 … 512 (03 R71 step 1). -/
def sigmaLow : List Nat :=
  [0, 0, 0, 0, 0, 0, 0, 0, 0, 0, 0, 0, 0, 0, 0, 0, 0, 0, 0, 0, 0, 0, 0, 0, 0, 0, 0, 0, 0, 0, 0, 0, 0, 0, 0, 0, 0, 0, 0, 0, 0, 0, 0, 0, 0, 0, 0, 0, 0, 0, 0, 0, 0, 0] ++
  [0, 0, 0, 0, 0, 0, 0, 0, 0, 0, 0, 0, 0, 0, 0, 0, 0, 0, 0, 0, 0, 0, 0, 0, 0, 0, 0, 0, 0, 0, 0, 0, 0, 0, 0, 0, 0, 0, 0, 0, 0, 0, 0, 0, 0, 0, 0, 0, 0, 0, 0, 0, 0, 0] ++
  [0, 0, 0, 0, 0, 0, 0, 0, 0, 0, 0, 0, 0, 0, 0, 0, 0, 0, 0, 0, 0, 0, 0, 0, 0, 0, 0, 1, 1, 1, 1, 1, 1, 1, 1, 1, 1, 1, 1, 1, 1, 1, 1, 1, 1, 1, 1, 1, 1, 1, 1, 1, 1, 1] ++
  [1, 1, 1, 1, 1, 1, 1, 1, 1, 2, 2, 2, 2, 2, 2, 2, 2, 2, 2, 2, 2, 2, 2, 2, 2, 3, 3, 3, 3, 3, 3, 3, 3, 3, 3, 3, 4, 4, 4, 4, 4, 4, 4, 4, 5, 5, 5, 5, 5, 5, 6, 6, 6, 6] ++
  [6, 6, 7, 7, 7, 7, 8, 8, 8, 8, 9, 9, 9, 9, 10, 10, 10, 11, 11, 11, 12, 12, 13, 13, 13, 14, 14, 15, 15, 16, 16, 17, 17, 18, 18, 19, 19, 20, 21, 21, 22, 23, 23, 24, 25, 26, 27, 27, 28, 29, 30, 31, 32, 33] ++
  [34, 35, 36, 37, 39, 40, 41, 42, 44, 45, 47, 48, 50, 51, 53, 54, 56, 58, 60, 62, 64, 66, 68, 70, 72, 74, 77, 79, 82, 84, 87, 90, 92, 95, 98, 101, 105, 108, 111, 115, 119, 122, 126, 130, 134, 139, 143, 148, 152, 157, 162, 167, 172, 178] ++
  [184, 189, 195, 202, 208, 215, 221, 228, 236, 243, 251, 259, 267, 275, 284, 293, 302, 312, 321, 332, 342, 353, 364, 376, 387, 400, 412, 425, 439, 452, 467, 481, 497, 512, 528, 545, 562, 580, 598, 617, 636, 656, 677, 698, 720, 743, 766, 790, 815, 840, 867, 894, 922, 951] ++
  [980, 1011, 1042, 1075, 1109, 1143, 1179, 1215, 1253, 1292, 1333, 1374, 1417, 1461, 1506, 1553, 1601, 1650, 1701, 1754, 1808, 1864, 1921, 1980, 2041, 2104, 2168, 2235, 2303, 2374, 2446, 2521, 2598, 2677, 2758, 2842, 2928, 3017, 3108, 3202, 3298, 3398, 3500, 3605, 3713, 3824, 3938, 4055, 4176, 4299, 4427, 4557, 4692, 4830] ++
  [4971, 5117, 5266, 5420, 5577, 5739, 5904, 6074, 6249, 6428, 6611, 6799, 6992, 7190, 7392, 7600, 7812, 8030, 8252, 8481, 8714, 8953, 9197, 9447, 9702, 9964, 10230, 10503, 10782, 11066, 11357, 11653, 11955, 12264, 12579, 12899, 13226, 13559, 13898, 14243, 14595, 14952, 15316, 15686, 16062, 16444, 16832, 17226, 17625, 18031, 18442, 18859, 19282, 19710] ++
  [20143, 20582, 21025, 21474, 21928, 22386, 22849, 23316, 23788, 24263, 24743, 25226, 25712, 26202, 26695, 27191, 27689, 28190, 28693, 29198, 29705, 30213, 30723, 31233, 31744, 32256, 32768]

/-- `s i` for i = 0 … 1,024 (03 R71 step 1). -/
def sigma (i : Nat) : Nat := if i ≤ 512 then sigmaLow.getD i 0 else 65536 - sigmaLow.getD (1024 - i) 0

end Sys2Proof.Machine
end

