-- ==== Sys2Proof/Machine/Formats.lean ====
section
/-!
DEFINITION. Formats.lean: element formats, scales, layouts, rounding and the stochastic draw (02 R32-R61).
-/
namespace Sys2Proof.Machine

/-- Bits per element of a format code; 0 for a reserved code (02 R32). -/
def fmtBits (fmt : Nat) : Nat :=
  match fmt with
  | 0 => 4
  | 1 => 4
  | 2 => 2
  | 3 => 2
  | 4 => 1
  | _ => 0

/-- The format and layout codes go together (02 R32). -/
def fmtLayoutOk (fmt layout : Nat) : Bool :=
  fmt ≤ 4 && (layout = 0 || (layout = 1 && fmt ≤ 3) || layout = 2)

/-- The integer the array holds for an element code: N4 and N2 two's complement, F4 doubled, T2 ternary, B1 ±1
(02 R34, R37, R38). -/
def elemInt (fmt code : Nat) : Int :=
  match fmt with
  | 0 => signed 4 code
  | 1 =>
    let mag : Int := [0, 1, 2, 3, 4, 6, 8, 12].getD (code % 8) 0
    if code % 16 < 8 then mag else -mag
  | 2 => signed 2 code
  | 3 => match code % 4 with
    | 1 => 1
    | 3 => -1
    | _ => 0
  | _ => if code % 2 = 0 then 1 else -1

/-- The T2 poison code (02 R37). -/
def elemPoison (fmt code : Nat) : Bool := fmt = 3 && code % 4 = 2

/-- A level-two code with a value: 0x0080-0x7F7F (02 R43). -/
def l2Valid (l : Nat) : Bool := 0x80 ≤ l && l ≤ 0x7F7F

def l2Exp (l : Nat) : Nat := bits l 7 8

def l2Man (l : Nat) : Nat := bits l 0 7

/-- The value of a level-two code; 0 where it has none (02 R43, R44, R45). -/
def l2Val (l : Nat) : Dyadic := if l2Valid l then ⟨(128 + l2Man l : Nat), (l2Exp l : Int) - 134⟩ else ⟨0, 0⟩

/-- The code 1.0. -/
def l2One : Nat := 0x3F80

/-- Byte offset and bit offset of element `k` of row `r` (02 R52, R54; a transposed read swaps the two before). -/
def elemPos (s : Slot) (r k : Nat) : Nat × Nat :=
  let w := fmtBits s.fmt
  if s.layout = 1 then
    let blk := (r / 4) * (s.tCols / 8) + k / 8
    let i := 8 * (r % 4) + k % 8
    (s.elem + blk * (4 * w) + i * w / 8, i * w % 8)
  else (s.elem + r * s.elemStride + k * w / 8, k * w % 8)

/-- Byte offset and bit offset of the level-one code of element `k` of row `r` (02 R52, R54). -/
def l1Pos (s : Slot) (r k : Nat) : Nat × Nat :=
  if s.layout = 1 then
    let n := (r / 4) * (s.tCols / 8) + k / 8
    (s.l1 + n / 2, 4 * (n % 2))
  else (s.l1 + r * s.l1Stride + k / 64, 4 * (k / 32 % 2))

/-- Byte offset of the level-two code of row `r` (02 R52, R54). -/
def l2Pos (s : Slot) (r : Nat) : Nat := if s.layout = 1 then s.l2 else s.l2 + 2 * r

/-- The elements of one block along the reduction axis of a read (02 R51). -/
def blockLen (s : Slot) : Nat := if s.layout = 1 then (if s.axis = 1 then 4 else 8) else 32

/-- The scale-apply period of a pair (02 R51). -/
def periodOf (a b : Slot) : Nat :=
  if a.layout = 2 then (if b.layout = 2 then 32 else blockLen b)
  else if b.layout = 2 then blockLen a else min (blockLen a) (blockLen b)

/-- Largest positive code value of a format, in units of its values doubled for F4 (02 R56). -/
def maxPos2 (fmt : Nat) : Int :=
  match fmt with
  | 0 => 14
  | 1 => 12
  | _ => 2

/-- The representable values of a format, doubled, ascending, each with its code (02 R34, R37, R56). -/
def fmtValues (fmt : Nat) : List (Int × Nat) :=
  match fmt with
  | 0 => [(-16, 8), (-14, 9), (-12, 10), (-10, 11), (-8, 12), (-6, 13), (-4, 14), (-2, 15), (0, 0), (2, 1), (4, 2),
      (6, 3), (8, 4), (10, 5), (12, 6), (14, 7)]
  | 1 => [(-12, 15), (-8, 14), (-6, 13), (-4, 12), (-3, 11), (-2, 10), (-1, 9), (0, 0), (1, 1), (2, 2), (3, 3), (4, 4),
      (6, 5), (8, 6), (12, 7)]
  | 2 => [(-4, 2), (-2, 3), (0, 0), (2, 1)]
  | 3 => [(-2, 3), (0, 0), (2, 1)]
  | _ => [(-2, 1), (2, 0)]

/-- `mix` of 02 R59, in 64-bit arithmetic that wraps. -/
def mix (z : DWord) : DWord :=
  let z1 := (z ^^^ (z >>> 30)) * 0xBF58476D1CE4E5B9#64
  let z2 := (z1 ^^^ (z1 >>> 27)) * 0x94D049BB133111EB#64
  z2 ^^^ (z2 >>> 31)

/-- The draw `u` of 02 R59, 16 bits. An index of 2^48 or more, which a large ROW_BASE can give, is not reduced: its high bits fall on those of
TENSOR (DESIGN CHOICE, log 119). -/
def draw (seq tensor index step : Nat) : Nat :=
  let k1 : DWord := BitVec.ofNat 64 (seq * 2 ^ 32 ||| step)
  let k2 : DWord := BitVec.ofNat 64 (tensor * 2 ^ 48 ||| index)
  let h := mix (k1 ^^^ mix (k2 + 0x9E3779B97F4A7C15#64))
  (h >>> 48).toNat

/-- Adjacent representable values round the quotient `2 n / d` (doubled): the greatest at or below it and the next
above. -/
def bracket (n2 : Int) (d : Nat) : List (Int × Nat) → Option ((Int × Nat) × (Int × Nat))
  | a :: b :: t => if n2 < b.1 * (d : Int) then some (a, b) else bracket n2 d (b :: t)
  | _ => none

/-- The code of the quotient `n / d`, `d > 0`, and whether it clipped: 02 R56, then R57, or R58 with draw `u`. -/
def roundCode (fmt : Nat) (stoch : Option Nat) (n : Int) (d : Nat) : Nat × Bool :=
  if fmt = 4 then (if n < 0 then 1 else 0, false)
  else
    let vs := fmtValues fmt
    let lo := vs.headD (0, 0)
    let hi := vs.getLastD (0, 0)
    let n2 := 2 * n
    if n2 < lo.1 * (d : Int) then (lo.2, true)
    else if hi.1 * (d : Int) < n2 then (hi.2, true)
    else
      match bracket n2 d vs with
      | none => (hi.2, false)
      | some (a, b) =>
        match stoch with
        | none =>
          let m := (a.1 + b.1) * (d : Int)
          if 2 * n2 < m then (a.2, false) else if m < 2 * n2 then (b.2, false)
          else if a.2 % 2 = 0 then (a.2, false) else (b.2, false)
        | some u =>
          let t := (65536 * (n2 - a.1 * (d : Int))) / ((b.1 - a.1) * (d : Int))
          if (u : Int) < t then (b.2, false) else (a.2, false)

end Sys2Proof.Machine
end

