-- ==== Sys2Proof/Machine/Codes.lean ====
section
/-!
DEFINITION. Codes.lean: the error-correcting codes of the memories and what they correct (10 R279). Which code of the stated strength an
implementation has is left to constants without a body (DESIGN CHOICE, log 7); the decoders find the code word within that strength.
-/
namespace Sys2Proof.Machine

/-- The 256 symbols. -/
def allBytes : List Byte := (List.range 256).map (BitVec.ofNat 8)

/-- The words that differ from `l` in at most `k` symbols, itself among them. -/
def near : Nat → List Byte → List (List Byte)
  | _, [] => [[]]
  | 0, l => [l]
  | k + 1, b :: t =>
    ((near (k + 1) t).map fun u => b :: u) ++
      (allBytes.filter fun x => x != b).flatMap fun x => (near k t).map fun u => x :: u

/-- Eight bytes of a list. -/
def eight (l : List Byte) : List Byte := (List.range 8).map fun i => l.getD i 0

/-- `n` different elements of a list. -/
def picked (f : Nat → Nat) : Nat → List Nat → List Nat
  | 0, _ => []
  | n + 1, l => let x := l.getD (f n % l.length) 0; x :: picked f n (l.erase x)

/-- A product in the field of 256 symbols modulo a polynomial; the second number bounds the bits of the second factor. -/
def gfProd (poly : Nat) : Nat → Nat → Nat → Nat
  | 0, _, _ => 0
  | k + 1, x, y => (if y % 2 = 1 then x else 0) ^^^ gfProd poly k (if 128 ≤ x then 2 * x ^^^ poly else 2 * x) (y / 2)

/-- The irreducible polynomials of degree 8 over GF(2). -/
def rsPolys : List Nat :=
  [0x11B, 0x11D, 0x12B, 0x12D, 0x139, 0x13F, 0x14D, 0x15F, 0x163, 0x165, 0x169, 0x171, 0x177, 0x17B, 0x187] ++
    [0x18B, 0x18D, 0x19F, 0x1A3, 0x1A9, 0x1B1, 0x1BD, 0x1C3, 0x1CF, 0x1D7, 0x1DD, 0x1E7, 0x1F3, 0x1F5, 0x1F9]

/-- Product and inverse in the field of the code. -/
def rsMul (x y : Nat) : Nat := gfProd (rsPolys.getD Config.rsPoly.val 0x11D) 8 x y
def rsInv (x : Nat) : Nat := ((List.range 256).find? fun y => rsMul x y == 1).getD 0

/-- The 72 points of the code, one for each symbol, and the symbols' scales, which are not 0. -/
def rsPoints : List Nat := picked Config.rsPick 72 (List.range 256)
def rsScaleOf (i : Nat) : Nat := 1 + Config.rsScale i % 255

/-- What data symbol `i` adds to check symbol `j`: the systematic form of a generalized Reed-Solomon code, which has distance 9. -/
def rsTerm (x i j : Nat) : Nat :=
  rsMul x (rsMul (rsMul (rsScaleOf i) (rsScaleOf (64 + j))) (rsInv (rsPoints.getD i 0 ^^^ rsPoints.getD (64 + j) 0)))

/-- The check symbols of a granule (10 R279). -/
def rsBits (data : List Byte) : List Byte :=
  (List.range 8).map fun j => BitVec.ofNat 8 ((List.range 64).foldl (fun a i => a ^^^ rsTerm (data.getD i 0).toNat i j) 0)

/-- The poison pattern of a granule: check symbols of which three to six are wrong, so that no correctable error produces them
(10 R281). -/
def poisonMark (data : List Byte) : List Byte :=
  let f := Config.poisonPick data
  let at_ := picked f (3 + f 8 % 4) (List.range 8)
  (List.range 8).map fun j =>
    let b := (rsBits data).getD j 0
    if at_.contains j then b ^^^ BitVec.ofNat 8 (1 + Config.poisonScale data j % 255) else b

/-- Bits of `x` that are 1. -/
def weight (x : Nat) : Nat := ((List.range 8).filter fun i => bit x i).length

/-- The columns of the SEC-DED code: different, and of odd weight of at least three (10 R279). -/
def secdedColumns : List Nat := picked Config.secdedPick 64 ((List.range 256).filter fun x => 3 ≤ weight x && weight x % 2 == 1)

/-- The check bits of a scratchpad word (10 R279). -/
def secdedCheck (word : List Byte) : Byte :=
  BitVec.ofNat 8 ((List.range 64).foldl (fun a i => if bit (leNat word) i then a ^^^ secdedColumns.getD i 0 else a) 0)

/-- The poison pattern of a scratchpad word: check bits of which two are wrong (10 R281). -/
def poisonBits (word : List Byte) : Byte :=
  secdedCheck word ^^^ BitVec.ofNat 8 ((picked (Config.poisonPick word) 2 (List.range 8)).foldl (fun a i => a ^^^ 2 ^ i) 0)

/-- A granule with its 8 check symbols is a code word. -/
def rsWord (w : List Byte) : Bool := w.drop 64 == rsBits (w.take 64)

/-- Decoding a granule for `k` symbols: the data of the code word at most `k` symbols away; none where the error is beyond
correction (10 R279, R280). -/
def rsDecode (k : Nat) (data check : List Byte) : Option (List Byte) :=
  ((near k (data ++ check)).find? rsWord).map fun w => w.take 64

/-- Symbols that stacked and board memory correct, and those that module-reserved memory does (10 R279). -/
def memStrength : Nat := 2
def reservedStrength : Nat := 4

/-- A word with bit `i` inverted. -/
def flipBit (l : List Byte) (i : Nat) : List Byte := modifyAt l (i / 8) fun b => b ^^^ BitVec.ofNat 8 (2 ^ (i % 8))

/-- A scratchpad word with its 8 check bits is a code word. -/
def secdedWord (w : List Byte) : Bool := w.drop 8 == [secdedCheck (w.take 8)]

/-- Decoding a scratchpad word: the data of the code word at most one bit away; none where the error is beyond correction (10 R279,
R280). -/
def secdedDecode (word : List Byte) (check : Byte) : Option (List Byte) :=
  let w := word ++ [check]
  ((w :: (List.range 72).map (flipBit w)).find? secdedWord).map fun v => v.take 8

end Sys2Proof.Machine
end

