-- ==== Sys2Proof/Machine/MemOps.lean ====
section
/-!
DEFINITION. MemOps.lean: the operations over the device range: windows and pages (09 R242-R251), reads and writes through the
error-correcting code with poison (10 R279-R286), apertures and index regions as they bear on an address.
-/
namespace Sys2Proof.Machine

/-- Bytes of a page of the general and flash windows (09 R242). -/
def pageBytes : Nat := 2097152

/-- First address of the KV window (09 R242). -/
def kvBase : Nat := 0x300000000000

/-- First address of the reserved window (09 R242). -/
def kvEnd : Nat := 0x320000000000

/-- First address of the flash window (09 R242). -/
def flashBase : Nat := 0x400000000000

/-- Board pages of the module (09 R243). -/
def boardPages : Nat := 1044480

/-- Stacked frames of a die (09 R243). -/
def dieFrames : Nat := 147456

/-- The allocated run that holds general-window page `p` (09 R250). -/
def State.allocOf (s : State) (p : Nat) : Option Alloc :=
  s.mem.allocs.find? fun a => decide (a.page ≤ p ∧ p < a.page + a.pages)

/-- The mapping that holds flash-window page `p` (09 R251). -/
def State.mappingOf (s : State) (p : Nat) : Option (Nat × Mapping) :=
  s.mem.maps.find? fun m => decide (m.2.page ≤ p ∧ p < m.2.page + m.2.pages)

/-- Owners whose page holds a board frame; a pinned page does not (09 R245, R246). -/
def Owner.board : Owner → Bool
  | .pinned _ => false
  | _ => true

/-- Board frames that hold a copy of a flash-backed page, or will when it has arrived (09 R245). -/
def State.boardCopies (s : State) : Nat :=
  (s.mem.resident.filter fun r => match r.2 with | .copy none _ => true | _ => false).length +
    (s.mem.flights.filter fun f => f.dst.isNone && decide (flashBase ≤ f.page * pageBytes)).length

/-- MIG_BOARD_FREE: free board pages (09 R243, R246). -/
def State.boardFree (s : State) : Nat :=
  boardPages - (s.mem.allocs.filter fun a => a.owner.board).foldl (fun n a => n + a.pages) 0 - s.boardCopies

/-- The die of a pinned page, or of a KV pool frame: spread over the partition's dies (DESIGN CHOICE, log 13). -/
def State.spreadDie (s : State) (part i : Nat) : Nat := part * s.diesPer + i % s.diesPer

/-- How many of the numbers `[lo, lo + n)` leave remainder `r` on division by `k`. -/
def countMod (lo n r k : Nat) : Nat := (lo + n + k - 1 - r) / k - (lo + k - 1 - r) / k

/-- Pinned pages on die `d` (09 R245, R246). -/
def State.pinnedOn (s : State) (d : Nat) : Nat :=
  s.mem.allocs.foldl (fun n a =>
    match a.owner with
    | .pinned p => if s.partOfDie d = p then n + countMod a.page a.pages (d % s.diesPer) s.diesPer else n
    | _ => n) 0

/-- MIG_DIEn_FREE: stacked frames that hold no pinned page, no page that is stacked or copied there, and that await no page in
flight (09 R245; DESIGN CHOICE, log 13). -/
def State.dieFree (s : State) (d : Nat) : Nat :=
  let here := (s.mem.resident.filter fun r =>
    match r.2 with | .stacked e _ _ => e == d | .copy (some e) _ => e == d | .copy none _ => false).length
  let coming := (s.mem.flights.filter fun f => f.dst == some d).length
  dieFrames - s.pinnedOn d - here - coming

/-- Address `a` lies in an allocated general-window page. -/
def State.allocated (s : State) (a : Nat) : Bool := decide (a < kvBase) && (s.allocOf (a / pageBytes)).isSome

/-- Address `a` lies in an allocated KV page (09 R268). -/
def State.kvAllocated (s : State) (a : Nat) : Bool :=
  decide (kvBase ≤ a ∧ a < kvEnd) && (Sparse.find s.mem.kvMap ((a - kvBase) / 65536)).isSome

/-- Address `a` lies in a flash-backed page. -/
def State.mapped (s : State) (a : Nat) : Bool := decide (flashBase ≤ a) && (s.mappingOf (a / pageBytes)).isSome

/-- Address `a` exists at all: an allocated, KV or flash-backed byte. -/
def State.exists_ (s : State) (a : Nat) : Bool := s.allocated a || s.kvAllocated a || s.mapped a

/-- The logical block behind a flash-window address (09 R251). -/
def State.blockOf (s : State) (a : Nat) : Option Nat :=
  (s.mappingOf (a / pageBytes)).map fun m => m.2.lba + (a / pageBytes - m.2.page) * 512 + a % pageBytes / 4096

/-- Address `a` can be read: it exists, and through an index's mapping of a zone it lies below the write pointer (11 R313). -/
def State.served (s : State) (a : Nat) : Bool :=
  s.exists_ a && match if flashBase ≤ a then s.blockOf a else none with
    | some b => (s.zone (b / zoneBlocks)).owner.isNone || decide (b % zoneBlocks < (s.zone (b / zoneBlocks)).wp)
    | none => true

/-- The byte at a device address, wherever its page lies: the tier never changes it (09 R248). -/
def State.devByte (s : State) (a : Nat) : Byte :=
  if a < flashBase then Sparse.get 0 s.mem.bytes a
  else match s.blockOf a with
    | some b => (s.blockBytes b).getD (a % 4096) 0
    | none => 0

/-- `n` bytes from a device address on. -/
def State.devBytes (s : State) (a n : Nat) : List Byte := (List.range n).map fun i => s.devByte (a + i)

/-- The address lies in the region of an index (11 R304). -/
def State.inRegion (s : State) (a : Nat) : Bool :=
  s.idx.indexes.any fun e => decide (e.2.defn.region ≤ a ∧ a < e.2.defn.region + e.2.defn.regionPages * pageBytes)

/-- The address lies in the header page of an index (11 R305). -/
def State.inHeader (s : State) (a : Nat) : Bool :=
  s.idx.indexes.any fun e => decide (e.2.defn.region ≤ a ∧ a < e.2.defn.region + pageBytes)

/-- The enabled aperture over an address (17 R507). -/
def State.aperture (s : State) (a : Nat) : Option Aperture :=
  s.wlk.apertures.find? fun w => w.en && decide (w.localBase ≤ a ∧ a < w.localBase + w.pages * pageBytes)

/-! ## Error correction (10 R279-R286) -/

/-- Where granule `g` stands: 0 in its board frame, its pinned or KV frame, or its zone blocks; 1 + d in a stacked frame of die `d`;
5 in a board frame that copies a flash-backed page (09 R245). -/
def State.placeOf (s : State) (g : Nat) : Nat :=
  match s.mem.resident.find? fun r => r.1 == g * 64 / pageBytes with
  | some (_, .stacked d _ _) => d + 1
  | some (_, .copy (some d) _) => d + 1
  | some (_, .copy none _) => 5
  | none => 0

/-- The key of granule `g` in the frame at a place: frames err apart from one another. -/
def frameKey (place g : Nat) : Nat := place * 2 ^ 48 + g

/-- The key of granule `g` in the frame that a reader reads (09 R248). -/
def State.keyOf (s : State) (g : Nat) : Nat := frameKey (s.placeOf g) g

/-- The tier whose controller decodes granule `g` in the frame at a place (10 R297): dies 0-3, board 4. -/
def State.tierAt (s : State) (place g : Nat) : Nat :=
  if 1 ≤ place ∧ place ≤ 4 then place - 1
  else
    let a := g * 64
    let page := a / pageBytes
    if a < kvBase then
      match s.allocOf page with
      | some ⟨_, _, .pinned p⟩ => s.spreadDie p page
      | _ => 4
    else if a < kvEnd then
      match Sparse.find s.mem.kvMap ((a - kvBase) / 65536) with
      | some (.pool p) => s.spreadDie p ((a - kvBase) / 65536)
      | _ => 4
    else 4

/-- The tier whose controller decodes granule `g`. -/
def State.tierOf (s : State) (g : Nat) : Nat := s.tierAt (s.placeOf g) g

/-- The address that ECC_LAST_UE takes for granule `g` of a tier: the offset in the die's stacks, or the device address (10 R297). -/
def ueAddr (tier g : Nat) : Nat :=
  let a := 64 * g
  let unit := if kvBase ≤ a ∧ a < kvEnd then 65536 else pageBytes
  if tier < 4 then Config.frame tier (a / unit * unit) * unit + a % unit else a

/-- Count a corrected error of a tier (10 R284, R298); tier 5 is scratchpad. -/
def State.countCe (s : State) (tier : Nat) : State :=
  let s := { s with ecc := { s.ecc with ce := bump s.ecc.ce tier 1 }, life := { s.life with eccCe := bump s.life.eccCe tier 1 } }
  s.eccEvt (if tier < 4 then 4 + tier else if tier = 4 then 9 else 11)

/-- Count an uncorrectable error of a tier, and note its address (10 R281, R298). -/
def State.countUe (s : State) (tier addr core : Nat) : State :=
  let last := addr % 2 ^ 48 + tier * 2 ^ 48 + (if tier = 5 then core * 2 ^ 56 else 0)
  let s := { s with
    ecc := { s.ecc with ue := bump s.ecc.ue tier 1, lastUe := last }
    life := { s.life with eccUe := bump s.life.eccUe tier 1 } }
  s.eccEvt (if tier < 4 then tier else if tier = 4 then 8 else 10)

/-- The granule of a key takes the poison pattern (10 R281). -/
def State.poisonKey (s : State) (k : Nat) : State :=
  { s with mem := { s.mem with
      poison := if s.mem.poison.contains k then s.mem.poison else k :: s.mem.poison
      check := Sparse.drop s.mem.check k } }

/-- Granule `g` takes the poison pattern where it stands. -/
def State.poison (s : State) (g : Nat) : State := s.poisonKey (s.keyOf g)

/-- What a decoder finds at a granule: clean, corrected to data, uncorrectable, or the poison pattern. -/
inductive Decoded where
  | clean | corrected (data : List Byte) | uncorrectable | poisoned
  deriving DecidableEq, Repr

/-- The finding that bears a number, as a decoding of `data`. -/
def foundAt (found : List Finding) (k : Nat) (data : List Byte) : Decoded :=
  match found.find? fun f => f.granule == k with
  | some f => if f.ue then .uncorrectable else .corrected data
  | none => .clean

/-- The decoding of a granule that holds `data` under the finding of number `id`, with the check symbols that WRITE_RAW planted there,
if any: those are decoded by the code itself (10 R279-R281; DESIGN CHOICE, log 7). -/
def decodePlanted (check : Option (List Byte)) (id : Nat) (data : List Byte) (found : List Finding) : Decoded :=
  match check with
  | none => foundAt found id data
  | some c =>
    if c = rsBits data then foundAt found id data
    else if c = poisonMark data then .poisoned
    else match rsDecode memStrength data c with | some d => .corrected d | none => .uncorrectable

/-- The decoding of the granule of a key that holds `data`, under the finding of number `id` (10 R280, R281): check symbols planted by
WRITE_RAW are decoded by the code itself (DESIGN CHOICE, log 7), other errors are the findings of the read (DESIGN CHOICE, log 10). -/
def State.decodeKey (s : State) (k id : Nat) (data : List Byte) (found : List Finding) : Decoded :=
  if s.mem.poison.contains k then .poisoned else decodePlanted (Sparse.find s.mem.check k) id data found

/-- The decoding of granule `g` where a reader reads it. -/
def State.decode (s : State) (g : Nat) (found : List Finding) : Decoded :=
  s.decodeKey (s.keyOf g) g (s.devBytes (g * 64) 64) found

/-- The granule of a key has correct check symbols: poison and planted symbols are gone. -/
def State.cleanKey (s : State) (k : Nat) : State :=
  { s with mem := { s.mem with poison := s.mem.poison.filter fun x => x != k, check := Sparse.drop s.mem.check k } }

/-- Bytes stored from a device address on, whatever their granules. -/
def State.storeBytes (s : State) (a : Nat) (bs : List Byte) : State :=
  { s with mem := { s.mem with bytes := Sparse.setList 0 s.mem.bytes a bs } }

/-- The bytes of a whole granule stored with correct check symbols. -/
def State.storeGranule (s : State) (g : Nat) (bs : List Byte) : State := (s.storeBytes (g * 64) bs).cleanKey (s.keyOf g)

/-- A granule of the flash window is read from its zone blocks: no copy of its page stands in memory (09 R245). -/
def State.fromZone (s : State) (g : Nat) : Bool := decide (flashBase ≤ g * 64) && s.placeOf g == 0

/-- The block of a flash-window granule is found uncorrectable by a read (13 R377): the read's finding names the first granule that
it reads of the block. -/
def blockLost (g : Nat) (found : List Finding) : Bool := found.any fun f => f.ue && f.granule / 64 == g / 64

/-- A granule of a flash-backed page without a copy, read from its zone blocks: they carry their own code, and an uncorrectable one is
suspect (13 R376, R377; 10 R282). -/
def State.readZoneGranule (s : State) (g : Nat) (found : List Finding) : (List Byte × Bool) × State :=
  let first := found.any fun f => f.ue && f.granule == g
  match s.blockOf (g * 64) with
  | some b =>
    let t := if first || (s.wordBad b && g % 64 == 0) then s.suspectBlock b else s
    ((s.devBytes (g * 64) 64, blockLost g found || s.wordBad b), t)
  | none => ((s.devBytes (g * 64) 64, false), s)

/-- A read of granule `g` through its controller: the data, whether it is poisoned, and the state with its counters,
its write-back (10 R280; `wb` for a REPAIR scrub) and its poison pattern (10 R281). -/
def State.readGranule (s : State) (g : Nat) (found : List Finding) (wb : Bool) : (List Byte × Bool) × State :=
  if s.fromZone g then s.readZoneGranule g found
  else
    let data := s.devBytes (g * 64) 64
    let tier := s.tierOf g
    match s.decode g found with
    | .clean => ((data, false), s)
    | .poisoned => ((data, true), s)
    | .corrected d =>
      let s := s.countCe tier
      ((d, false), if !(wb || s.ecc.ceWb) then s else if g * 64 < flashBase then s.storeGranule g d else s.cleanKey (s.keyOf g))
    | .uncorrectable => ((data, true), (s.countUe tier (ueAddr tier g) 0).poison g)

/-- A write to a page stacked-resident leaves its board frame stale (09 R245). -/
def State.dirty (s : State) (page : Nat) : State :=
  let l := mapIf (fun (r : Nat × Resident) => r.1 == page)
    (fun r => match r with | (p, .stacked d _ q) => (p, .stacked d true q) | x => x) s.mem.resident
  { s with mem := { s.mem with resident := l } }

/-- A narrow write that finds an uncorrectable error or the poison pattern is not applied (10 R286). -/
def State.narrowLost (s : State) : State :=
  { s with ecc := { s.ecc with narrowLost := sat64 (s.ecc.narrowLost + 1) } }.eccEvt 12

/-- A narrow write made by read-modify-write is counted (10 R285). -/
def State.countNarrow (s : State) : State := { s with ecc := { s.ecc with narrow := sat64 (s.ecc.narrow + 1) } }

/-- A write of part of granule `g`, or all of it (10 R281, R285, R286): whole granules are written directly; a narrow
write reads, merges and writes back, and is lost on an uncorrectable error or the poison pattern. -/
def State.writeGranule (s : State) (g off : Nat) (bs : List Byte) (found : List Finding) : State :=
  let s := s.dirty (g * 64 / pageBytes)
  if off = 0 ∧ bs.length = 64 then s.storeGranule g bs
  else
    let ((_, bad), s) := s.readGranule g found true
    if bad then s.narrowLost
    else ((s.storeBytes (g * 64 + off) bs).cleanKey (s.keyOf g)).countNarrow

/-- A byte range cut at granule boundaries: granule, offset in it, bytes. -/
def cuts : Nat → Nat → List Byte → List (Nat × Nat × List Byte)
  | 0, _, _ => []
  | n + 1, a, bs =>
    if bs.isEmpty then []
    else
      let k := 64 - a % 64
      (a / 64, a % 64, bs.take k) :: cuts n (a + k) (bs.drop k)

/-- A byte range cut at granule boundaries (10 R285). -/
def granuleCuts (a : Nat) (bs : List Byte) : List (Nat × Nat × List Byte) := cuts (bs.length / 64 + 2) a bs

/-- A write of bytes at a device address (10 R285). -/
def State.devWrite (s : State) (a : Nat) (bs : List Byte) (found : List Finding) : State :=
  (granuleCuts a bs).foldl (fun s c => s.writeGranule c.1 c.2.1 c.2.2 found) s

/-- Granules `g` … `g + n - 1` read in ascending order: their bytes, which of them are poisoned, the state after. -/
def readRun : Nat → Nat → List Finding → Bool → State → (List Byte × List Bool) × State
  | 0, _, _, _, s => (([], []), s)
  | n + 1, g, found, wb, s =>
    let ((d, bad), s) := s.readGranule g found wb
    let ((ds, bads), s) := readRun n (g + 1) found wb s
    ((d ++ ds, bad :: bads), s)

/-- `n` bytes read from a device address, whether any granule read is poisoned, and the state after. -/
def State.devRead (s : State) (a n : Nat) (found : List Finding) : (List Byte × Bool) × State :=
  let g := a / 64
  let k := if n = 0 then 0 else (a + n - 1) / 64 - g + 1
  let ((d, bad), s) := readRun k g found false s
  (((d.drop (a % 64)).take n, bad.any id), s)

/-- Bytes that the management cores and the step builder write into the device range (their tables, index stores): written as any
other write is, narrowly where they cover a granule in part; what the reads of narrow writes find is what the command in progress finds (10
R285, R286). -/
def State.poke (s : State) (a : Nat) (bs : List Byte) : State := s.devWrite a bs s.mem.found

/-- The state with these findings standing. -/
def State.withFound (s : State) (found : List Finding) : State := { s with mem := { s.mem with found := found } }

/-- What the decodings of a command find, its own writes' among them, stands while its effect `f` runs (10 R280, R285). -/
def State.finding (s : State) (found : List Finding) (f : State → State) : State := (f (s.withFound found)).withFound s.mem.found

/-- The same for a command's outcome. -/
def findingOut (found : List Finding) (s : State) (f : State → Out) : Out :=
  match f (s.withFound found) with
  | .next t => .next (t.withFound s.mem.found)
  | o => o

/-- A key names a granule of the device addresses `[lo, hi)`, whatever its place. -/
def inSpan (lo hi k : Nat) : Bool := decide (lo ≤ k % 2 ^ 48 * 64 ∧ k % 2 ^ 48 * 64 < hi)

/-- Each number once, in ascending order. -/
def ascending (l : List Nat) : List Nat :=
  sortBy (fun a b => decide (a < b)) (l.foldl (fun m x => if m.contains x then m else x :: m) [])

/-- The bytes of `[lo, hi)` of the device range, from `lo` on. -/
def State.cutBytes (s : State) (lo hi : Nat) : Memory :=
  (s.mem.bytes.filter fun e => decide (lo ≤ e.1 ∧ e.1 < hi)).map fun e => (e.1 - lo, e.2)

/-- The granules of `[lo, hi)` that a copy of the span must decode: those with a finding, with planted check symbols, or poisoned, where
they stand. -/
def State.suspectsIn (s : State) (lo hi : Nat) (found : List Finding) : List Nat :=
  let keys := (s.mem.poison ++ s.mem.check.map (·.1)).filter fun k => inSpan lo hi k && k == s.keyOf (k % 2 ^ 48)
  ascending ((found.map (·.granule)).filter (inSpan lo hi) ++ keys.map fun k => k % 2 ^ 48)

/-- Granule `g` is read and written at granule `place g`: with the data read, or poisoned (09 R249; 10 R280-R282). -/
def copyTo (place : Nat → Nat) (found : List Finding) (s : State) (g : Nat) : State :=
  let ((d, bad), s) := s.readGranule g found false
  let s := s.storeGranule (place g) d
  if bad then s.poison (place g) else s

/-- `[lo, hi)` copied to `dst`, which reads as zero; each at a granule bound (09 R249; 10 R280-R282). -/
def State.copySpan (s : State) (lo hi dst : Nat) (found : List Finding) : State :=
  let put := (s.cutBytes lo hi).foldl (fun b e => Sparse.set 0 b (dst + e.1) e.2) s.mem.bytes
  (s.suspectsIn lo hi found).foldl (copyTo (fun g => g - lo / 64 + dst / 64) found) { s with mem := { s.mem with bytes := put } }

/-- `[lo, hi)` is decoded as it moves to another frame that keeps its addresses: corrected data is written, an uncorrectable granule is
written poisoned (09 R249; 10 R280-R282). -/
def State.moveSpan (s : State) (lo hi : Nat) (found : List Finding) : State :=
  (s.suspectsIn lo hi found).foldl (fun s g => (s.readGranule g found true).2) s

/-- Zeroed pages: allocated pages read as zero (09 R250). -/
def State.zeroPages (s : State) (page n : Nat) : State :=
  let lo := page * pageBytes
  let hi := (page + n) * pageBytes
  { s with mem := { s.mem with
      bytes := Sparse.clear s.mem.bytes lo hi
      poison := s.mem.poison.filter fun k => !inSpan lo hi k
      check := s.mem.check.filter fun e => !inSpan lo hi e.1 } }

/-! ## Frames and copies (09 R245, R248, R249) -/

/-- A key names a granule of page `page` in the frame at a place. -/
def inFrame (place page k : Nat) : Bool := k / 2 ^ 48 == place && k % 2 ^ 48 * 64 / pageBytes == page

/-- The frame at a place gives up its page, and its error-check state with it. -/
def State.dropFrame (s : State) (place page : Nat) : State :=
  { s with mem := { s.mem with
      poison := s.mem.poison.filter fun k => !inFrame place page k
      check := s.mem.check.filter fun e => !inFrame place page e.1 } }

/-- The granules of a page's frame at which a decoder can find anything: poisoned ones, planted ones, and the findings. -/
def frameSuspects (s : State) (place page : Nat) (found : List Finding) : List Nat :=
  let keys := (s.mem.poison ++ s.mem.check.map (·.1)).filter (inFrame place page)
  ascending ((keys.map fun k => k % 2 ^ 48) ++ (found.map (·.granule)).filter fun g => g * 64 / pageBytes == page)

/-- Granule `g` copied from the frame at place `a` to the one at place `b`: it is decoded at its source, and an uncorrectable one is
written poisoned (09 R249; 10 R280-R282). -/
def copyGranule (a b : Nat) (found : List Finding) (s : State) (g : Nat) : State :=
  let tier := s.tierAt a g
  match s.decodeKey (frameKey a g) g (s.devBytes (64 * g) 64) found with
  | .clean => s
  | .corrected d =>
    let s := (s.countCe tier).storeBytes (64 * g) d
    if s.ecc.ceWb then s.cleanKey (frameKey a g) else s
  | .poisoned => s.poisonKey (frameKey b g)
  | .uncorrectable => ((s.countUe tier (ueAddr tier g) 0).poisonKey (frameKey a g)).poisonKey (frameKey b g)

/-- A general-window page copied from place `a` to place `b`. -/
def State.copyPage (s : State) (a b page : Nat) (found : List Finding) : State :=
  let s := s.dropFrame b page
  (frameSuspects s a page found).foldl (copyGranule a b found) s

/-- A flash-backed page copied from its zone blocks to place `b`: the granules of the blocks that its reads lost, numbered from the page's
first, are written poisoned (09 R249; 13 R377). -/
def State.copyBlocks (s : State) (b page : Nat) (lost : List Nat) : State :=
  lost.foldl (fun s n =>
    (List.range 64).foldl (fun s i => s.poisonKey (frameKey b (page * pageBytes / 64 + 64 * n + i))) s) (s.dropFrame b page)

/-- Reads for a staging that is no longer in flight end (13 R383). -/
def State.cancelReads (s : State) : State :=
  { s with fl := { s.fl with reads := s.fl.reads.filter fun r => match r.by_ with
    | .stage page => s.mem.flights.any fun f => f.page == page
    | .zoneRead _ => true
    | .dma _ => true } }

/-- A page leaves the stacked frame of die `d`; its copies elsewhere stay (09 R245). -/
def State.leaveDie (s : State) (page d : Nat) : State :=
  let s := s.dropFrame (d + 1) page
  { s with mem := { s.mem with resident := s.mem.resident.filter fun r =>
      !(r.1 == page && match r.2 with | .stacked e _ _ => e == d | .copy (some e) _ => e == d | .copy none _ => false) } }

/-- The copies and the staging of pages `[p, p + n)` of the flash window are gone, and their error-check state with them (09 R252). -/
def State.dropCopies (s : State) (p n : Nat) : State :=
  let hit := fun q => decide (p ≤ q ∧ q < p + n)
  let span := inSpan (p * pageBytes) ((p + n) * pageBytes)
  { s with mem := { s.mem with
      resident := s.mem.resident.filter fun r => !hit r.1
      flights := s.mem.flights.filter fun f => !hit f.page
      poison := s.mem.poison.filter fun k => !span k
      check := s.mem.check.filter fun e => !span e.1 } }.cancelReads

/-- The lowest page of the general window from which `n` pages are unallocated (07 R201: the module chooses). -/
def firstFit : Nat → Nat → Nat → List Alloc → Nat
  | 0, p, _, _ => p
  | k + 1, p, n, l =>
    match l.find? fun a => decide (a.page < p + n ∧ p < a.page + a.pages) with
    | some a => firstFit k (a.page + a.pages) n l
    | none => p

/-- Allocate `n` pages for the module's own purpose, at addresses it chooses: the lowest run that fits (DESIGN CHOICE, log 14). -/
def State.allocPages (s : State) (n : Nat) (owner : Owner) : Nat × State :=
  let p := firstFit (s.mem.allocs.length + 1) 0 n s.mem.allocs
  if n = 0 then (p, s)
  else (p, State.zeroPages { s with mem := { s.mem with allocs := s.mem.allocs ++ [Alloc.mk p n owner] } } p n)

/-- Release every page of an owner. -/
def State.freeOwner (s : State) (owner : Owner) : State :=
  let gone := s.mem.allocs.filter fun a => a.owner == owner
  let s := { s with mem := { s.mem with
    allocs := s.mem.allocs.filter fun a => a.owner != owner
    resident := s.mem.resident.filter fun r => !(gone.any fun a => decide (a.page ≤ r.1 ∧ r.1 < a.page + a.pages))
    flights := s.mem.flights.filter fun f => !(gone.any fun a => decide (a.page ≤ f.page ∧ f.page < a.page + a.pages)) } }
  gone.foldl (fun s a => s.zeroPages a.page a.pages) s

end Sys2Proof.Machine
end

