-- ==== Sys2Proof/Machine/IndexBase.lean ====
section
/-!
DEFINITION. IndexBase.lean: where an index's stores lie, and what their bytes say: centroids, directory, graph, lists,
items, columns, codes (11 R300-R313); which epochs are retained (11 R319, R320).
-/
namespace Sys2Proof.Machine

/-- No number: 0xFFFF_FFFF. -/
def none32 : Nat := 0xFFFFFFFF

/-- L1B of 11 R302. -/
def IndexDef.l1b (d : IndexDef) : Nat := 8 * ceilDiv d.dim 512

/-- CR: bytes of a code record (11 R302). -/
def IndexDef.cr (d : IndexDef) : Nat := 64 * ceilDiv (d.dim / 2 + d.l1b + 16) 64

/-- FR: bytes of an insert record (11 R315). -/
def IndexDef.fr (d : IndexDef) : Nat := 64 * ceilDiv (32 + d.dim / 2 + d.l1b + 8 * d.ncols) 64

/-- Bytes of the feed region (11 R316). -/
def feedBytes (d : IndexDef) : Nat := 2 ^ d.feedLog2 * d.fr

/-- SK: bytes of a sketch row (11 R303). -/
def IndexDef.sk (d : IndexDef) : Nat := 64 * ceilDiv d.dim 512

/-- Graph mode (11 R301). -/
def IndexDef.graph (d : IndexDef) : Bool := decide (65536 < d.centCap)

/-- Bytes of column `j` (11 R300). -/
def IndexDef.colBytes (d : IndexDef) (j : Nat) : Nat := 2 ^ bits d.colWidths (2 * j) 2

/-- The power of two at or above `n`. -/
def pow2Above (n : Nat) : Nat := 2 ^ (if n ≤ 1 then 0 else Nat.log2 (n - 1) + 1)

/-- The sizes of the stores, in the order of 11 R304. -/
def IndexDef.sizes (d : IndexDef) : List Nat :=
  [pageBytes, d.centCap * d.cr, d.centCap * 64, if d.graph then 4096 + 2 * d.centCap * d.degree * 4 else 0,
    d.maxItems * 24, 16 * pow2Above (2 * d.maxItems)] ++
    ((List.range d.ncols).map fun j => d.maxItems * d.colBytes j) ++
    [d.segs * 16, d.segs * 256 * (d.sk + 16), if d.tier then 0 else d.maxItems * d.cr]

/-- Pages of the first `n` stores. -/
def IndexDef.pagesTo (d : IndexDef) (n : Nat) : Nat := ((d.sizes.take n).map fun z => ceilDiv z pageBytes).sum

/-- Pages of all stores. -/
def IndexDef.pagesAll (d : IndexDef) : Nat := d.pagesTo d.sizes.length

/-- The address of store `n`. -/
def IndexDef.store (d : IndexDef) (n : Nat) : Nat := d.region + d.pagesTo n * pageBytes

/-- Addresses of elements (11 R304, R307, R309). -/
def IndexDef.centAddr (d : IndexDef) (c : Nat) : Nat := d.store 1 + c * d.cr
def IndexDef.dirAddr (d : IndexDef) (c : Nat) : Nat := d.store 2 + 64 * c
def IndexDef.entryListAddr (d : IndexDef) (v : Nat) : Nat := d.store 3 + 64 * v
def IndexDef.nodeAddr (d : IndexDef) (v c : Nat) : Nat := d.store 3 + 4096 + (v * d.centCap + c) * d.degree * 4
def IndexDef.itemAddr (d : IndexDef) (slot : Nat) : Nat := d.store 4 + 24 * slot
def IndexDef.colAddr (d : IndexDef) (j slot : Nat) : Nat := d.store (6 + j) + slot * d.colBytes j
def IndexDef.segAddr (d : IndexDef) (n : Nat) : Nat := d.store (6 + d.ncols) + 16 * n
def IndexDef.bodyAddr (d : IndexDef) (n : Nat) : Nat := d.store (7 + d.ncols) + n * 256 * (d.sk + 16)
def IndexDef.codeAddr (d : IndexDef) (slot : Nat) : Nat := d.store (8 + d.ncols) + slot * d.cr

/-- A dword of the device range. -/
def State.word (s : State) (a : Nat) : Nat := leNat (s.devBytes a 4)

/-! ## The directory (11 R306) -/

/-- A chain of a list. -/
structure Chain where
  head : Nat := none32
  tail : Nat := none32
  start : Nat := none32
  count : Nat := 0
  deriving DecidableEq, Repr

/-- A directory entry. -/
structure DirEnt where
  state : Nat
  building : Bool
  born : Nat
  retired : Nat
  a : Chain
  b : Chain
  deriving DecidableEq, Repr

/-- A chain in 16 bytes. -/
def chainOf (bs : List Byte) : Chain := ⟨dwordAt bs 0, dwordAt bs 1, dwordAt bs 2, dwordAt bs 3⟩

def Chain.bytes (c : Chain) : List Byte := leBytes 4 c.head ++ leBytes 4 c.tail ++ leBytes 4 c.start ++ leBytes 4 c.count

/-- The directory entry of centroid `c`. -/
def State.dirEnt (s : State) (d : IndexDef) (c : Nat) : DirEnt :=
  let bs := s.devBytes (d.dirAddr c) 64
  ⟨bits (dwordAt bs 0) 0 2, bit (dwordAt bs 0) 2, dwordAt bs 1, dwordAt bs 2, chainOf (bs.drop 16), chainOf (bs.drop 32)⟩

def DirEnt.bytes (e : DirEnt) : List Byte :=
  leBytes 4 (e.state + 4 * b2n e.building) ++ leBytes 4 e.born ++ leBytes 4 e.retired ++ leBytes 4 0 ++ e.a.bytes ++
    e.b.bytes ++ leBytes 16 0

/-- A directory entry written. -/
def State.putDir (s : State) (d : IndexDef) (c : Nat) (e : DirEnt) : State := s.poke (d.dirAddr c) e.bytes

/-- A centroid is live at epoch `q` (11 R306). -/
def DirEnt.live (e : DirEnt) (q : Nat) : Bool := e.state != 0 && decide (e.born ≤ q ∧ q < e.retired)

/-- The chain that a query at epoch `q` reads: the largest FROM not above `q` (11 R310). -/
def DirEnt.chainAt (e : DirEnt) (q : Nat) : Chain :=
  match decide (e.a.start ≤ q), decide (e.b.start ≤ q) with
  | true, true => if e.a.start < e.b.start then e.b else e.a
  | true, false => e.a
  | false, true => e.b
  | false, false => {}

/-- The newest published chain is B. -/
def DirEnt.newestB (e : DirEnt) : Bool :=
  e.b.start != none32 && (e.a.start == none32 || decide (e.a.start < e.b.start))

/-- The newest published chain (11 R310). -/
def DirEnt.newest (e : DirEnt) : Chain := if e.newestB then e.b else e.a

/-- The other chain's place. -/
def DirEnt.other (e : DirEnt) : Chain := if e.newestB then e.a else e.b

/-- The newest chain replaced. -/
def DirEnt.setNewest (e : DirEnt) (c : Chain) : DirEnt := if e.newestB then { e with b := c } else { e with a := c }

/-- The other chain replaced. -/
def DirEnt.setOther (e : DirEnt) (c : Chain) : DirEnt := if e.newestB then { e with a := c } else { e with b := c }

/-! ## Segments and entries (11 R309) -/

/-- An entry of a list: segment and place, code address, slot. -/
structure ListEntry where
  seg : Nat
  place : Nat
  code : Nat
  slot : Nat
  deriving DecidableEq, Repr

/-- NEXT and COUNT of a segment. -/
def State.segEnt (s : State) (d : IndexDef) (n : Nat) : Nat × Nat :=
  let bs := s.devBytes (d.segAddr n) 8
  (dwordAt bs 0, bits (dwordAt bs 1) 0 9)

/-- The segments of a chain, in chain order. -/
def chainSegs (s : State) (d : IndexDef) : Nat → Nat → List Nat
  | 0, _ => []
  | k + 1, n => if n = none32 ∨ d.segs ≤ n then [] else n :: chainSegs s d k (s.segEnt d n).1

/-- The address of an entry's record in the entry plane of its segment. -/
def IndexDef.entryAddr (d : IndexDef) (seg i : Nat) : Nat := d.bodyAddr seg + 256 * d.sk + 16 * i

/-- The address of an entry's sketch. -/
def IndexDef.sketchAddr (d : IndexDef) (seg i : Nat) : Nat := d.bodyAddr seg + i * d.sk

/-- The entries of a segment. -/
def State.segEntries (s : State) (d : IndexDef) (n : Nat) : List ListEntry :=
  (List.range (s.segEnt d n).2).map fun i =>
    let bs := s.devBytes (d.entryAddr n i) 16
    ⟨n, i, bits (qwordAt bs 0) 0 48, dwordAt bs 2⟩

/-- The spans of the device range that hold a chain: its segments' table entries, and each entry with its sketch and its item. -/
def chainSpans (s : State) (d : IndexDef) (c : Chain) : List (Nat × Nat) :=
  (chainSegs s d d.segs c.head).flatMap fun n => (d.segAddr n, 16) :: (s.segEntries d n).flatMap fun e =>
    [(d.entryAddr n e.place, 16), (d.sketchAddr n e.place, d.sk), (d.itemAddr e.slot, 24)]

/-- The spans of list `k`: its directory entry and its newest chain. -/
def listSpans (s : State) (d : IndexDef) (k : Nat) : List (Nat × Nat) :=
  (d.dirAddr k, 64) :: chainSpans s d (s.dirEnt d k).newest

/-- The entries of a chain, in list order. -/
def State.chainEntries (s : State) (d : IndexDef) (c : Chain) : List ListEntry :=
  (chainSegs s d d.segs c.head).flatMap (s.segEntries d)

/-! ## Items (11 R311) -/

/-- An item-table entry. -/
structure Item where
  id : Nat
  list : Nat
  ins : Nat
  del : Nat
  refs : Nat
  deriving DecidableEq, Repr

/-- The item of a slot. -/
def State.item (s : State) (d : IndexDef) (slot : Nat) : Item :=
  let bs := s.devBytes (d.itemAddr slot) 24
  ⟨qwordAt bs 0, bits (dwordAt bs 2) 0 22, dwordAt bs 3, dwordAt bs 4, bits (dwordAt bs 5) 0 24⟩

def Item.bytes (i : Item) : List Byte :=
  leBytes 8 i.id ++ leBytes 4 i.list ++ leBytes 4 i.ins ++ leBytes 4 i.del ++ leBytes 4 i.refs

/-- An item-table entry written. -/
def State.putItem (s : State) (d : IndexDef) (slot : Nat) (i : Item) : State := s.poke (d.itemAddr slot) i.bytes

/-- The item is visible at epoch `q`. -/
def Item.visible (i : Item) (q : Nat) : Bool := decide (i.ins ≤ q ∧ q < i.del)

/-- The value of column `j` at a slot. -/
def State.column (s : State) (d : IndexDef) (j slot : Nat) : Nat := leNat (s.devBytes (d.colAddr j slot) (d.colBytes j))

/-! ## Codes, norms, sketches (11 R302, R303) -/

/-- Element code `k` of a record. -/
def codeNibble (bs : List Byte) (k : Nat) : Nat := bits (bs.getD (k / 2) 0).toNat (4 * (k % 2)) 4

/-- Level-one code of block `b` of a record. -/
def levelOne (d : IndexDef) (bs : List Byte) (b : Nat) : Nat := codeNibble (bs.drop (d.dim / 2)) b

/-- The elements of a record as the module stores them: 0 in a block of level-one code 0 and in a row of scale 0. -/
def storedCodes (d : IndexDef) (bs : List Byte) (l2 : Nat) : List Nat :=
  (List.range d.dim).map fun k => if l2 = 0 ∨ levelOne d bs (k / 32) = 0 then 0 else codeNibble bs k

/-- The level-one codes as the module stores them. -/
def storedLevels (d : IndexDef) (bs : List Byte) (l2 : Nat) : List Nat :=
  (List.range (d.dim / 32)).map fun b => if l2 = 0 then 0 else levelOne d bs b

/-- Nibbles packed into bytes, the first in bits [3:0] (00 R6). -/
def packNibbles : List Nat → List Byte
  | a :: b :: t => BitVec.ofNat 8 (a + 16 * b) :: packNibbles t
  | [a] => [BitVec.ofNat 8 a]
  | [] => []

/-- Bits packed into bytes, the first in bit 0 (00 R6). -/
def packBits : Nat → List Bool → List Byte
  | 0, _ => []
  | n + 1, l => BitVec.ofNat 8 (((l.take 8).zipIdx.map fun e => b2n e.1 * 2 ^ e.2).sum) :: packBits n (l.drop 8)

/-- The sketch of stored element codes. -/
def sketchOf (d : IndexDef) (codes : List Nat) : List Byte := packBits d.sk (codes.map fun c => bit c 3)

/-- The scaled integers m × c of a record (02 R48). -/
def scaledInts (codes levels : List Nat) : List Int :=
  codes.zipIdx.map fun e => (levels.getD (e.2 / 32) 0 : Int) * signed 4 e.1

/-- The exact sum S of two rows (02 R48). -/
def dotExact : List Int → List Int → Int
  | a :: as, b :: bs => a * b + dotExact as bs
  | _, _ => 0

/-- What a code record says. -/
structure Code where
  ints : List Int
  codes : List Nat
  l2 : Nat
  norm : Nat
  slot : Nat
  deriving DecidableEq, Repr

/-- A record read, its norm derived from its code (11 R303). -/
def codeOf (d : IndexDef) (bs : List Byte) : Code :=
  let l2 := leNat ((bs.drop (d.dim / 2 + d.l1b)).take 2)
  let codes := storedCodes d bs l2
  let ints := scaledInts codes (storedLevels d bs l2)
  ⟨ints, codes, l2, (dotExact ints ints).toNat, leNat ((bs.drop (d.dim / 2 + d.l1b + 8)).take 4)⟩

/-- The scale of a record is one that R303 accepts. -/
def scaleOk (l2 : Nat) : Bool := l2 == 0 || l2Valid l2

/-- The record that the index engine stores for ELEM and L1 bytes, a scale and a slot (11 R302, R303). -/
def codeRecord (d : IndexDef) (bs : List Byte) (l2 slot : Nat) : List Byte :=
  let codes := storedCodes d bs l2
  let levels := storedLevels d bs l2
  let ints := scaledInts codes levels
  let l1 := packNibbles levels
  let body := packNibbles codes ++ l1 ++ List.replicate (d.l1b - l1.length) 0 ++ leBytes 2 l2 ++ leBytes 2 0 ++
    leBytes 4 (dotExact ints ints).toNat ++ leBytes 4 slot ++ leBytes 4 0
  body ++ List.replicate (d.cr - body.length) 0

/-- The record of centroid `c`. -/
def State.centCode (s : State) (d : IndexDef) (c : Nat) : Code := codeOf d (s.devBytes (d.centAddr c) d.cr)

/-! ## Epochs (11 R319, R320) -/

/-- Index `n`. -/
def State.index (s : State) (n : Nat) : Option Index := Sparse.find s.idx.indexes n

/-- Change index `n`. -/
def State.setIndex (s : State) (n : Nat) (f : Index → Index) : State :=
  { s with idx := { s.idx with indexes := Sparse.adjust s.idx.indexes n f } }

/-- The epochs that an index retains: the current one and those of its unreplied queries. -/
def State.retained (s : State) (n : Nat) (x : Index) : List Nat :=
  (s.idx.queries.filter fun q => q.rec_.index == n).foldl
    (fun l q => if l.contains q.epoch then l else q.epoch :: l) [x.cur]

/-- The oldest retained epoch. -/
def State.oldest (s : State) (n : Nat) (x : Index) : Nat := (s.retained n x).foldl min x.cur

/-- The keys of a store's listed bytes, as element numbers of `size` bytes: every other element reads as zeros. -/
def listedIn (s : State) (base size n : Nat) : List Nat :=
  let ks := s.mem.bytes.filterMap fun e => if base ≤ e.1 ∧ e.1 < base + size * n then some ((e.1 - base) / size) else none
  ks.foldl (fun l k => if l.contains k then l else l ++ [k]) []

/-- Centroid numbers with a directory entry that is not all zeros. -/
def State.listedCents (s : State) (d : IndexDef) : List Nat := listedIn s (d.dirAddr 0) 64 d.centCap

/-- Slots with an item-table entry that is not all zeros. -/
def State.listedSlots (s : State) (d : IndexDef) : List Nat := listedIn s (d.itemAddr 0) 24 d.maxItems

/-- Centroids live at epoch `q`, in ascending number. -/
def State.liveCents (s : State) (d : IndexDef) (q : Nat) : List Nat :=
  (s.listedCents d).filter fun c => (s.dirEnt d c).live q

/-- A slot is free (11 R312): its DEL lies at or below the oldest retained epoch, and no chain entry names it. -/
def Item.free (i : Item) (oldest : Nat) : Bool := decide (i.del ≤ oldest) && i.refs == 0

/-- REFS of a slot changed by `f`. -/
def State.refs (s : State) (d : IndexDef) (slot : Nat) (f : Nat → Nat) : State :=
  let i := s.item d slot
  s.putItem d slot { i with refs := f i.refs }

/-- A chain is freed: its segments are free again and REFS falls for each entry (11 R311). -/
def State.freeChain (s : State) (d : IndexDef) (c : Chain) : State :=
  let segs := chainSegs s d d.segs c.head
  let s := (s.chainEntries d c).foldl (fun s e => s.refs d e.slot fun r => r - 1) s
  segs.foldl (fun s n => s.poke (d.segAddr n) (List.replicate 16 0)) s

/-- The superseded chain of a list is freed once every retained epoch reads the newest one (11 R320). -/
def releaseChain (d : IndexDef) (oldest : Nat) (s : State) (c : Nat) : State :=
  let e := s.dirEnt d c
  if e.state ≠ 0 ∧ e.newest.start ≠ none32 ∧ e.newest.start ≤ oldest ∧ e.other.start ≠ none32 then
    (s.freeChain d e.other).putDir d c (e.setOther {})
  else s

/-- A tombstone is freed with the superseded graph version (11 R324). -/
def freeTombstone (d : IndexDef) (upTo : Nat) (s : State) (c : Nat) : State :=
  let e := s.dirEnt d c
  if e.state = 2 ∧ e.retired ≤ upTo then
    ((s.freeChain d e.a).freeChain d e.b).poke (d.dirAddr c) (List.replicate 64 0)
  else s

/-- What only a lost epoch needed is freed (11 R312, R320, R324). -/
def State.release (s : State) (n : Nat) : State :=
  match s.index n with
  | none => s
  | some x =>
    let d := x.defn
    let oldest := s.oldest n x
    let s := (s.listedCents d).foldl (releaseChain d oldest) s
    let s := match x.freeAt with
      | some e =>
        if e ≤ oldest then ((s.listedCents d).foldl (freeTombstone d e) s).setIndex n fun x => { x with freeAt := none }
        else s
      | none => s
    (s.listedSlots d).foldl (fun s slot =>
      let i := s.item d slot
      if i.free oldest && i != ⟨0, 0, 0, 0, 0⟩ then s.putItem d slot { i with ins := 0, del := 0 } else s) s

/-- Every index, after queries have replied. -/
def State.releaseAll (s : State) : State := s.idx.indexes.foldl (fun s e => s.release e.1) s

end Sys2Proof.Machine
end

