-- ==== Sys2Proof/Machine/Array.lean ====
section
/-!
DEFINITION. Array.lean: the matrix array: reading operand rows from scratchpad, accumulating a pass, saturation, the
checksum row and column, and their comparison (04 R94-R117, 05 R124-R130).
-/
namespace Sys2Proof.Machine

/-- Bytes of the scratchpad of one core (04 R118). -/
def spadSize : Nat := 2 ^ 23

def spadByte (c : Core) (o : Nat) : Byte := Sparse.get 0 c.spad o

def spadBytes (c : Core) (o n : Nat) : List Byte := (List.range n).map fun i => spadByte c (o + i)

/-- The granule of an offset holds a word with an uncorrectable error or the poison pattern (04 R116). -/
def spadBad (c : Core) (o : Nat) : Bool := c.bad.any fun k => k / 8 == o / 64

/-- The `w`-bit code at a byte and bit offset. -/
def spadCode (c : Core) (p : Nat × Nat) (w : Nat) : Nat := bits (spadByte c p.1).toNat p.2 w

/-- An accumulated integer element of an operand row, `m * c`, whether reading it set POISON, and whether it did so for
an uncorrectable error of the scratchpad (20 R573). -/
structure Elem where
  v : Int
  poison : Bool
  own : Bool
  deriving DecidableEq, Repr

/-- Element `k` of operand row `i` of a slot whose row is read under a valid scale (02 R41, R50; 04 R103, R116). -/
def slotElem (c : Core) (s : Slot) (i k : Nat) : Elem :=
  let rc := if s.axis = 1 then (k, i) else (i, k)
  let w := fmtBits s.fmt
  let lp := l1Pos s rc.1 rc.2
  if s.layout ≠ 2 && spadBad c lp.1 then ⟨0, true, true⟩ else
    let m := if s.layout = 2 then 1 else spadCode c lp 4
    if m = 0 then ⟨0, false, false⟩ else
      let ep := elemPos s rc.1 rc.2
      if spadBad c ep.1 then ⟨0, true, true⟩ else
        let code := spadCode c ep w
        if elemPoison s.fmt code then ⟨0, true, false⟩ else ⟨(m : Int) * elemInt s.fmt code, false, false⟩

/-- The level-two code of operand row `i` as a pass reads it (04 R105, R116), and whether it lies on a bad granule: such
a code is taken as invalid. -/
def slotL2 (c : Core) (s : Slot) (i : Nat) : Nat × Bool :=
  if s.layout = 2 then (l2One, false)
  else
    let p := if s.layout = 1 then s.l2 else l2Pos s i
    if spadBad c p then (1, true) else (leNat (spadBytes c p 2), false)

/-- A row of operands: its values, whether it set POISON, and whether it did so for an error of the scratchpad. -/
structure OpRow where
  vals : List Int
  poison : Bool
  own : Bool
  deriving DecidableEq, Repr

/-- A row of zeros: excluded (04 R102), of scale 0x0000 (02 R44), or of an invalid scale (02 R45, which sets POISON). -/
def zeroRow (k : Nat) (poison : Bool) : OpRow := ⟨List.replicate k 0, poison, false⟩

/-- Operand row `i`, reduction indices `k0 … k0 + k - 1`, under level-two code `l`. -/
def operandRow (c : Core) (s : Slot) (excluded : Bool) (l i k0 k : Nat) : OpRow :=
  if excluded then zeroRow k false
  else if l = 0 then zeroRow k false
  else if !l2Valid l then zeroRow k true
  else
    let es := (List.range k).map fun j => slotElem c s i (k0 + j)
    ⟨es.map fun e => e.v, es.any fun e => e.poison, es.any fun e => e.own⟩

/-- The largest and smallest value of a data cell (05, "The integer accumulator"). -/
def accMax : Int := 2 ^ 39 - 1
def accMin : Int := -(2 ^ 39)

/-- The evaluation at a check point (05 R125). -/
def checkPoint (v : Int) : Cell := if accMax ≤ v then ⟨accMax, true⟩ else if v ≤ accMin then ⟨accMin, true⟩ else ⟨v, false⟩

/-- One data cell takes the products of a pass; `g` is the global index of the next one (05 R124, R125). -/
def cellRun (drain : Bool) : Cell → Nat → List (Int × Int) → Cell
  | c, _, [] => if drain && !c.sat then checkPoint c.v else c
  | c, g, p :: ps =>
    if c.sat then c
    else
      let v := c.v + p.1 * p.2
      cellRun drain (if g % 4 = 3 then checkPoint v else ⟨v, false⟩) (g + 1) ps

/-- The 56-bit wrap of the checksum cells (04 R109). -/
def wrap56 (i : Int) : Nat := unsigned 56 i

/-- Sum of products. -/
def dotInt : List Int → List Int → Int
  | a :: as, b :: bs => a * b + dotInt as bs
  | _, _ => 0

/-- Sums by index of several rows of equal length `k`. -/
def sumRows (k : Nat) (rows : List (List Int)) : List Int :=
  rows.foldl (fun acc r => List.zipWith (· + ·) acc r) (List.replicate k 0)

/-- A fresh group: cells at zero, or at the chain-in values, checksum cells preloaded alike (05 R128, R129). -/
def freshCells (rows cols : Nat) (chain : Option (List (List Int))) : List (List Cell) × List Nat × List Nat × Nat :=
  match chain with
  | none => (List.replicate rows (List.replicate cols ⟨0, false⟩), List.replicate rows 0, List.replicate cols 0, 0)
  | some vs =>
    (vs.map fun r => r.map fun v => ⟨v, accMax ≤ v || v ≤ accMin⟩,
     vs.map fun r => wrap56 r.sum,
     (sumRows cols vs).map wrap56,
     wrap56 ((vs.map fun r => r.sum).sum))

/-- What a pass adds to a group: the two operands' rows, `g` the pass's global index (04 R105, R109; 05 R124). -/
def addPass (grp : Group) (as ws : List (List Int)) (g k : Nat) (drain poison own : Bool) : Group :=
  let sa := sumRows k as
  let sw := sumRows k ws
  { grp with
    passes := grp.passes + 1
    total := grp.total + k
    cells := List.zipWith (fun row a => List.zipWith (fun cell w => cellRun drain cell g (a.zip w)) row ws) grp.cells as
    ckCol := List.zipWith (fun (o : Nat) a => wrap56 ((o : Int) + dotInt a sw)) grp.ckCol as
    ckRow := List.zipWith (fun (o : Nat) w => wrap56 ((o : Int) + dotInt w sa)) grp.ckRow ws
    corner := wrap56 ((grp.corner : Int) + dotInt sa sw)
    poison := grp.poison || poison
    own := grp.own || own }

/-- Some data cell is saturated (05 R126). -/
def groupSat (g : Group) : Bool := g.cells.any fun r => r.any fun c => c.sat

/-- Invert bit `b` of an `w`-bit two's-complement cell. -/
def flipInt (w b : Nat) (v : Int) : Int := signed w (unsigned w v ^^^ 2 ^ (b % w))

/-- A physical upset of a data or checksum cell. -/
def upset (g : Group) (u : Upset) : Group :=
  if u.row < 256 && u.col < 256 then
    { g with cells := modifyAt g.cells u.row fun r => modifyAt r u.col fun c => { c with v := flipInt 40 u.bit c.v } }
  else if u.row < 256 then { g with ckCol := modifyAt g.ckCol u.row fun v => v ^^^ 2 ^ (u.bit % 56) }
  else if u.col < 256 then { g with ckRow := modifyAt g.ckRow u.col fun v => v ^^^ 2 ^ (u.bit % 56) }
  else { g with corner := g.corner ^^^ 2 ^ (u.bit % 56) }

/-- Index of the first place at which two lists differ, 256 where none does (04 R115). -/
def firstDiff (as bs : List Nat) : Nat :=
  match (List.range as.length).find? fun i => as.getD i 0 != bs.getD i 0 with
  | some i => i
  | none => 256

/-- The comparison of 04 R110: none where the tile passes, else MM_ROW and MM_COL. -/
def compareTile (g : Group) : Option (Nat × Nat) :=
  let rows := g.cells.map fun r => wrap56 ((r.map fun c => c.v).sum)
  let cols := (sumRows g.cols (g.cells.map fun r => r.map fun c => c.v)).map wrap56
  let r := firstDiff rows g.ckCol
  let c := firstDiff cols g.ckRow
  let l1 := wrap56 (((g.ckCol.map fun (n : Nat) => (n : Int))).sum)
  let l2 := wrap56 (((g.ckRow.map fun (n : Nat) => (n : Int))).sum)
  if r = 256 && c = 256 && l1 = g.corner && l2 = g.corner then none else some (r, c)

/-- The tile status word (04 R115). -/
def tileStatus (t : Tile) (fail : Bool) : Nat :=
  let mm := match t.mm with
    | some (r, c) => r * 2 ^ 8 + c * 2 ^ 17
    | none => 0
  b2n (groupSat t.grp) + 2 * b2n t.grp.poison + 4 * b2n t.skipped + 8 * b2n (t.retry && !fail) + 16 * b2n fail + mm

end Sys2Proof.Machine
end

