-- ==== Sys2Proof/Machine/Reduce.lean ====
section
/-!
DEFINITION. Reduce.lean: the reduction unit and the top-k engine: compensated lanes, folds, result records, chain and
merge frames, ordered lists (05 R131-R149).
-/
namespace Sys2Proof.Machine

/-- OVF and NAN as they arise (05 R132, R137). -/
structure Flg where
  ovf : Bool := false
  nan : Bool := false
  deriving DecidableEq, Repr

def Flg.or (a b : Flg) : Flg := ⟨a.ovf || b.ovf, a.nan || b.nan⟩

/-- What one operation with result `r` on operands `x`, `y` raises (05 R137). -/
def flgOf (x y r : B32) : Flg := ⟨isInf32 r && isFinite32 x && isFinite32 y, isNan32 r⟩

/-- A (sum, error) pair with the flags raised on the way. -/
structure Pair where
  s : B32
  e : B32
  f : Flg
  deriving DecidableEq, Repr

/-- Compensated addition (05 R137). -/
def cadd (p : Pair) (x : B32) : Pair :=
  let t := add32 p.s x
  let c := if !isFinite32 t || !isFinite32 x then 0
    else if absGe32 p.s x then add32 (sub32 p.s t) x else add32 (sub32 x t) p.s
  let e := add32 p.e c
  ⟨t, e, p.f.or ((flgOf p.s x t).or (flgOf p.e c e))⟩

/-- `x + y` with its flags. -/
def addF (f : Flg) (x y : B32) : B32 × Flg := let r := add32 x y; (r, f.or (flgOf x y r))

/-- `x * y` with its flags. -/
def mulF (f : Flg) (x y : B32) : B32 × Flg := let r := mul32 x y; (r, f.or (flgOf x y r))

/-- `x / y` with its flags. -/
def divF (f : Flg) (x y : B32) : B32 × Flg := let r := div32 x y; (r, f.or (flgOf x y r))

/-- A lane after element `x` (05 R138); none where a MEANVAR lane is full (LANE_COUNT). -/
def laneStep (k : CtxKind) (l : Lane) (x : B32) : Option (Lane × Flg) :=
  match k with
  | .sum =>
    let p := cadd ⟨l.aS, l.aE, {}⟩ x
    some ({ l with aS := p.s, aE := p.e, n := sat32 (l.n + 1) }, p.f)
  | .sumsq =>
    let q := mul32 x x
    let r := fma32 x x (negate32 q)
    let r := if isNan32 r then nan32 else r
    let p := cadd ⟨l.aS, l.aE, flgOf x x q⟩ q
    let e := addF p.f p.e r
    some ({ l with aS := p.s, aE := e.1, n := sat32 (l.n + 1) }, e.2)
  | .meanvar =>
    if 2 ^ 24 ≤ l.n then none else
      let n := l.n + 1
      let d := addF {} x (negate32 l.aS)
      let q := divF d.2 d.1 (ofNat32 n)
      let a := cadd ⟨l.aS, l.aE, q.2⟩ q.1
      let d2 := addF a.f x (negate32 a.s)
      let m := mulF d2.2 d.1 d2.1
      let b := cadd ⟨l.bS, l.bE, m.2⟩ m.1
      some (⟨a.s, a.e, b.s, b.e, n⟩, b.f)
  | .topk => some (l, {})

/-- An entry ranks above another (05 R145). -/
def ranksAbove (a b : TopEntry) : Bool := b.key < a.key || (a.key = b.key && a.pos < b.pos)

/-- A list, best first, with one entry more. -/
def insertEntry (e : TopEntry) : List TopEntry → List TopEntry
  | [] => [e]
  | b :: t => if ranksAbove e b then e :: b :: t else b :: insertEntry e t

/-- The list of `k` best entries with one more offered (05 R145). -/
def offer (k : Nat) (l : List TopEntry) (e : TopEntry) : List TopEntry := (insertEntry e l).take k

/-- The ranking key of a binary32 value (05 R146). -/
def keyOf32 (x : B32) : Nat :=
  if isNan32 x then 0
  else if isZero32 x then 0x80000000
  else if neg32 x then 2 ^ 32 - 1 - x else x + 0x80000000

/-- Why a core program faults (06 R185), by reason code. -/
def reasonReserved : Nat := 0x01
def reasonFormatPair : Nat := 0x02
def reasonPeriod : Nat := 0x03
def reasonAxis : Nat := 0x04
def reasonFieldRange : Nat := 0x05
def reasonAddress : Nat := 0x06
def reasonDevice : Nat := 0x07
def reasonGroup : Nat := 0x08
def reasonChainFormat : Nat := 0x09
def reasonChainGap : Nat := 0x0A
def reasonClosed : Nat := 0x0B
def reasonOpen : Nat := 0x0C
def reasonLaneCount : Nat := 0x0D
def reasonNoTree : Nat := 0x0E
def reasonTopkSpace : Nat := 0x0F
def reasonRowStat : Nat := 0x10
def reasonSignal : Nat := 0x11
def reasonMismatch : Nat := 0x12
def reasonTrap : Nat := 0x13
def reasonStructure : Nat := 0x14

/-- One element of global index `i` into a context (05 R136, R138, R146); `x` with the flag of its conversion. -/
def feedCtx (c : Ctx) (i : Nat) (x : B32) (ovf : Bool) : Except Nat Ctx :=
  if i < c.next then .error reasonChainGap
  else if c.kind = .topk then
    .ok { c with next := i + 1, entries := offer c.kReq c.entries ⟨keyOf32 x, i⟩, seen := sat64 (c.seen + 1),
                 ovf := c.ovf || ovf }
  else
    match laneStep c.kind (c.lanes.getD (i % 64) {}) x with
    | none => .error reasonLaneCount
    | some (l, f) => .ok { c with
        next := i + 1
        lanes := modifyAt c.lanes (i % 64) fun _ => l
        ovf := c.ovf || ovf || f.ovf
        nan := c.nan || f.nan }

/-- Elements in ascending order into a context. -/
def feedAll (c : Ctx) : List (Nat × B32 × Bool) → Except Nat Ctx
  | [] => .ok c
  | (i, x, o) :: t =>
    match feedCtx c i x o with
    | .error r => .error r
    | .ok c' => feedAll c' t

/-- A context opened clear (05 R135). -/
def freshCtx (k : CtxKind) (chainId kReq : Nat) : Ctx :=
  { kind := k, chainId := chainId, next := 0, kReq := kReq, lanes := if k = .topk then [] else List.replicate 64 {} }

/-- The state of the MEANVAR fold: N, mu, m2 (05 R139). -/
structure Fold where
  n : Nat
  mu : B32
  m2 : B32
  f : Flg

/-- The SUM and SUMSQ fold in lane order (05 R139). -/
def foldSum : Pair × Nat → List Lane → Pair × Nat
  | acc, [] => acc
  | (p, n), l :: t =>
    let q := cadd p l.aS
    let e := addF q.f q.e l.aE
    foldSum (⟨q.s, e.1, e.2⟩, n + l.n) t

/-- The MEANVAR fold in lane order, lanes with n = 0 skipped (05 R139). -/
def foldMean : Option Fold → List Lane → Option Fold
  | acc, [] => acc
  | acc, l :: t =>
    if l.n = 0 then foldMean acc t else
      let muL := addF {} l.aS l.aE
      let m2L := addF muL.2 l.bS l.bE
      match acc with
      | none => foldMean (some ⟨l.n, muL.1, m2L.1, m2L.2⟩) t
      | some a =>
        let n2 := a.n + l.n
        let delta := addF (a.f.or m2L.2) muL.1 (negate32 a.mu)
        let w := divF delta.2 (ofNat32 l.n) (ofNat32 n2)
        let dw := mulF w.2 delta.1 w.1
        let mu := addF dw.2 a.mu dw.1
        let nn := mulF mu.2 (ofNat32 a.n) (ofNat32 l.n)
        let c := divF nn.2 nn.1 (ofNat32 n2)
        let s := addF c.2 a.m2 m2L.1
        let dd := mulF s.2 delta.1 delta.1
        let dc := mulF dd.2 dd.1 c.1
        let m2 := addF dc.2 s.1 dc.1
        foldMean (some ⟨n2, mu.1, m2.1, m2.2⟩) t

/-- A result record (05 R140). -/
structure ResRec where
  res0 : B32
  res1 : B32
  count : Nat
  ovf : Bool
  nan : Bool
  empty : Bool
  varSample : Bool
  short : Bool
  deriving DecidableEq, Repr

/-- The result record of a context (05 R139, R140). SHORT is set for a variance alone, which only a MEANVAR record holds (DESIGN CHOICE,
log 105). -/
def finishCtx (c : Ctx) (varSample : Bool) : ResRec :=
  let total := (c.lanes.map fun l => l.n).sum
  if total = 0 then ⟨0, 0, 0, c.ovf, c.nan, true, varSample, false⟩
  else if c.kind = .meanvar then
    match foldMean none c.lanes with
    | none => ⟨0, 0, 0, c.ovf, c.nan, true, varSample, false⟩
    | some a =>
      let short := varSample && a.n = 1
      let v := if short then (0, a.f) else divF a.f a.m2 (ofNat32 (if varSample then a.n - 1 else a.n))
      ⟨a.mu, v.1, sat32 a.n, c.ovf || v.2.ovf, c.nan || v.2.nan, false, varSample, short⟩
  else
    let r := foldSum (⟨0, 0, {}⟩, 0) c.lanes
    let res := if isFinite32 r.1.s then addF r.1.f r.1.s r.1.e else (r.1.s, r.1.f)
    ⟨res.1, 0, sat32 r.2, c.ovf || res.2.ovf, c.nan || res.2.nan, false, varSample, false⟩

/-- The 16 bytes of a result record (05 R140). -/
def recBytes (r : ResRec) : List Byte :=
  leBytes 4 r.res0 ++ leBytes 4 r.res1 ++ leBytes 4 r.count ++
    leBytes 4 (b2n r.ovf + 2 * b2n r.nan + 4 * b2n r.empty + 8 * b2n r.varSample + 16 * b2n r.short)

/-- A result record read back from its bytes. -/
def recOf (bs : List Byte) : ResRec :=
  let f := dwordAt bs 3
  ⟨dwordAt bs 0, dwordAt bs 1, dwordAt bs 2, bit f 0, bit f 1, bit f 2, bit f 3, bit f 4⟩

def kindCode : CtxKind → Nat
  | .sum => 1
  | .sumsq => 2
  | .meanvar => 3
  | .topk => 4

/-- The header of a frame (05 R141). -/
structure FrameHdr where
  kind : Nat
  ovf : Bool
  nan : Bool
  chainId : Nat
  next : Nat
  a : Nat
  b : Nat
  seen : Nat
  deriving DecidableEq, Repr

/-- The 32 bytes of a frame header (05 R141). -/
def hdrBytes (h : FrameHdr) : List Byte :=
  leBytes 4 (h.kind + 2 ^ 8 * b2n h.ovf + 2 ^ 9 * b2n h.nan) ++ leBytes 4 h.chainId ++ leBytes 6 h.next ++
    leBytes 2 0 ++ leBytes 2 h.a ++ leBytes 2 0 ++ leBytes 2 h.b ++ leBytes 2 0 ++ leBytes 8 h.seen

/-- A frame header read from its bytes; none where a reserved field is not zero or the kind is reserved (05 R143). -/
def hdrOf (bs : List Byte) : Option FrameHdr :=
  let d0 := dwordAt bs 0
  let d3 := dwordAt bs 3
  let d4 := dwordAt bs 4
  let d5 := dwordAt bs 5
  if d0 / 2 ^ 10 ≠ 0 || d3 / 2 ^ 16 ≠ 0 || d4 / 2 ^ 16 ≠ 0 || d5 / 2 ^ 16 ≠ 0 then none
  else if bits d0 0 8 = 0 || 5 < bits d0 0 8 then none
  else some ⟨bits d0 0 8, bit d0 8, bit d0 9, dwordAt bs 1, leNat ((bs.drop 8).take 6), d4, d5, qwordAt bs 6⟩

def entryBytes (e : TopEntry) : List Byte := leBytes 4 e.key ++ leBytes 4 0 ++ leBytes 8 e.pos

def laneBytes (l : Lane) : List Byte :=
  leBytes 4 l.aS ++ leBytes 4 l.aE ++ leBytes 4 l.bS ++ leBytes 4 l.bE ++ leBytes 4 l.n ++ leBytes 4 0

/-- The frame of a context (05 R141, R142). -/
def ctxFrame (c : Ctx) : List Byte :=
  if c.kind = .topk then
    hdrBytes ⟨4, c.ovf, c.nan, c.chainId, c.next, c.entries.length, c.kReq, c.seen⟩ ++ c.entries.flatMap entryBytes
  else hdrBytes ⟨kindCode c.kind, c.ovf, c.nan, c.chainId, c.next, 64, 0, 0⟩ ++ c.lanes.flatMap laneBytes

/-- Distance between frames of a kind in scratchpad (06 R170). -/
def frameStride (k : CtxKind) (kReq : Nat) : Nat := if k = .topk then ceilDiv (32 + 16 * kReq) 64 * 64 else 1600

def laneOf (bs : List Byte) : Lane := ⟨dwordAt bs 0, dwordAt bs 1, dwordAt bs 2, dwordAt bs 3, dwordAt bs 4⟩

/-- The bytes an entry list of a frame takes, and whether their reserved fields are zero. -/
def entriesOf (bs : List Byte) (n : Nat) : List TopEntry :=
  (List.range n).map fun i => ⟨dwordAt (bs.drop (16 * i)) 0, qwordAt (bs.drop (16 * i)) 2⟩

def entriesReserved (bs : List Byte) (n : Nat) : Bool :=
  (List.range n).all fun i => dwordAt (bs.drop (16 * i)) 1 = 0

/-- Loading a frame into a context opened as `k` (05 R143). A KIND 1-3 frame whose A is not 64 or whose B or SEEN is not 0, and a top-k
frame that counts more entries than its K_REQ, are taken as frames of a broken format (DESIGN CHOICE, log 105). Its values are
restored by their bits, a NaN other than 0x7FC00000 among them (log 105). -/
def loadFrame (k : CtxKind) (chainId kReq : Nat) (bs : List Byte) : Except Nat Ctx :=
  match hdrOf bs with
  | none => .error reasonChainFormat
  | some h =>
    if h.kind ≠ kindCode k || h.chainId ≠ chainId then .error reasonChainFormat
    else
      let body := bs.drop 32
      if k = .topk then
        if h.b ≠ kReq || kReq < h.a || !entriesReserved body h.a then .error reasonChainFormat
        else .ok { kind := k, chainId := chainId, next := h.next, ovf := h.ovf, nan := h.nan, kReq := kReq,
                   entries := entriesOf body h.a, seen := h.seen }
      else if h.a ≠ 64 || h.b ≠ 0 || h.seen ≠ 0 || !((List.range 64).all fun i => dwordAt (body.drop (24 * i)) 5 = 0) then
        .error reasonChainFormat
      else .ok { kind := k, chainId := chainId, next := h.next, ovf := h.ovf, nan := h.nan,
                 lanes := (List.range 64).map fun i => laneOf (body.drop (24 * i)) }

/-- Merging entries into a list (05 R149). -/
def mergeEntries (k : Nat) (l : List TopEntry) (more : List TopEntry) : List TopEntry := more.foldl (offer k) l

end Sys2Proof.Machine
end

