-- ==== Sys2Proof/Machine/Requant.lean ====
section
/-!
DEFINITION. Requant.lean: the requantisation unit: gain and bias, activations, the threshold ladder, codes, zero fixing,
clip counts, scale adaptation (03 R62-R87), and what each drain route writes (04 R102, R107; 06 R167-R169).
-/
namespace Sys2Proof.Machine

/-- A field of `w` bits to be written at a byte and bit offset of the scratchpad. -/
structure FieldW where
  off : Nat
  bit : Nat
  w : Nat
  v : Nat
  deriving DecidableEq, Repr

/-- Whole bytes as fields. -/
def byteFields (o : Nat) (bs : List Byte) : List FieldW :=
  (List.range bs.length).map fun i => ⟨o + i, 0, 8, (bs.getD i 0).toNat⟩

/-- The scratchpad with one field written. -/
def putField (m : Memory) (f : FieldW) : Memory :=
  let old := (Sparse.get (0 : Byte) m f.off).toNat
  let cleared := old - bits old f.bit f.w * 2 ^ f.bit
  Sparse.set 0 m f.off (BitVec.ofNat 8 (cleared + f.v % 2 ^ f.w * 2 ^ f.bit))

def putFields (m : Memory) (fs : List FieldW) : Memory := fs.foldl putField m

/-- Held to the 48-bit range (03 R69). -/
def clamp48 (y : Int) : Int := max (-(2 ^ 47)) (min y (2 ^ 47 - 1))

/-- The F4 operands of a pair (02 R48). -/
def f4Count (g : Group) : Nat := b2n (g.fmtRow = 1) + b2n (g.fmtCol = 1)

/-- The exact value `x` of cell (i, j) (03 R62 stage 1). -/
def cellX (g : Group) (i j : Nat) : Dyadic :=
  let s := ((g.cells.getD i []).getD j ⟨0, false⟩).v
  let x := ((Dyadic.mk s 0).mul (l2Val (g.rowL.getD i 0))).mul (l2Val (g.colL.getD j 0))
  ⟨x.m, x.e - f4Count g⟩

/-- `Y` in working units of an output row whose predicted scale has exponent `e` (03 R68, R69; 06 R169). -/
def preAct (ch : Chan) (eb : Int) (rho : Option B32) (x : Dyadic) (e : Nat) : Int :=
  let gx := (Dyadic.mk ch.gain (-20)).mul x
  let gx := match rho with
    | some r => gx.mul (val32 r)
    | none => gx
  let y := gx.add ⟨ch.bias, eb⟩
  clamp48 (Dyadic.roundEven ⟨y.m, y.e + 143 - e⟩)

/-- The smooth gated unit's σ, as its 16-bit-fraction integer (03 R71). -/
def sigmaAt (y : Int) (e : Nat) : Int :=
  let p := Dyadic.floor ⟨y, (e : Int) - 122⟩ + 2 ^ 25
  let p : Nat := (max 0 (min p (1024 * 65536))).toNat
  let i : Nat := p / 65536
  let r : Nat := p % 65536
  if i = 1024 then (sigma 1024 : Int)
  else (sigma i : Int) + (((sigma (i + 1) : Int) - (sigma i : Int)) * (r : Int)) / 65536

/-- A lookup table's value (03 R72). -/
def lutAct (t : Lut) (y : Int) (e : Nat) : Int :=
  let i := Dyadic.floor ⟨y, (e : Int) - 143 + t.inShift⟩ + 128
  let i := (max 0 (min i 255)).toNat
  clamp48 (Dyadic.roundEven ⟨t.t.getD i 0, t.outShift - (e : Int) + 143⟩)

/-- The activated value `Z` (03 R70-R72). A code that names no activation is refused at load (R66); an entry that holds one later, for
its bytes were written since, gives a free value (DESIGN CHOICE, log 102). -/
def activate (luts : List (Option Lut)) (act : Nat) (y : Int) (e : Nat) : Int :=
  if act = 0 then y
  else if act = 1 then max y 0
  else if act = 2 then roundDivEven (y * sigmaAt y e) 65536
  else if act < 16 then Config.openAct act y
  else match luts.getD (act - 16) none with
    | some t => lutAct t y e
    | none => Config.openAct act y

/-- The largest positive value `V` of an output format (03, "The threshold ladder"). -/
def ladderV (fmt : Nat) : Nat :=
  match fmt with
  | 0 => 7
  | 1 => 6
  | _ => 1

/-- The level-one code of a block whose largest |Z| is `a` (03 R74). -/
def ladder (fmt k f a : Nat) : Nat :=
  if a = 0 then 0
  else match (List.range 15).find? fun i => decide ((8 + k) * a ≤ 8192 * (i + 1) * ladderV fmt * (128 + f)) with
    | some i => i + 1
    | none => 15

/-- One output element: activated value, whether it counts (03 R79), and the draw of a stochastic rounding. -/
structure OutElem where
  z : Int
  counts : Bool
  u : Option Nat
  deriving DecidableEq, Repr

/-- A block written: level-one code, element codes, clips (03 R74-R77, R80). -/
structure OutBlock where
  m : Nat
  codes : List Nat
  clips : Nat
  deriving DecidableEq, Repr

/-- Element codes of a block under divisor `d`. -/
def codesOf (fmt : Nat) (d : Nat) (es : List OutElem) : List (Nat × Bool) :=
  es.map fun e => let r := roundCode fmt e.u e.z d; (r.1, r.2 && e.counts && fmt ≠ 4)

/-- A block of a scaled output under predicted scale `l` (03 R74-R76). -/
def scaledBlock (fmt k l : Nat) (es : List OutElem) : OutBlock :=
  let f := l2Man l
  let a := es.foldl (fun m e => max m e.z.natAbs) 0
  let m := ladder fmt k f a
  if m = 0 then ⟨0, es.map fun _ => 0, 0⟩ else
    let cs := codesOf fmt (512 * m * (128 + f)) es
    let codes := cs.map fun c => c.1
    ⟨if codes.all fun c => c = 0 then 0 else m, codes, (cs.filter fun c => c.2).length⟩

/-- A block of an unscaled output (03 R77). -/
def unscaledBlock (fmt : Nat) (es : List OutElem) : OutBlock :=
  let cs := codesOf fmt 65536 es
  ⟨1, cs.map fun c => c.1, (cs.filter fun c => c.2).length⟩

/-- The row factor ρ of a ROWSTAT drain (06 R169); none where the record or ρ is not usable (ROW_STAT). -/
def rowFactor (meanvar : Bool) (r : ResRec) (eps : B32) : Option B32 :=
  if r.ovf || r.nan then none else
    let v := if r.empty then 0 else if meanvar then r.res1 else div32 r.res0 (ofNat32 r.count)
    let rho := div32 (ofNat32 1) (sqrt32 (add32 v eps))
    if isFinite32 rho then some rho else none

/-- Output element (i, j) of a requantise drain. -/
def outElem (g : Group) (d : DrainInfo) (t : ReqTable) (luts : List (Option Lut)) (i j : Nat) : OutElem :=
  let ch := d.ch0 + j
  if t.chans.length ≤ ch || g.cols ≤ j || g.colMask.contains j then ⟨0, false, none⟩ else
    let l := d.predL.getD i l2One
    let e := if t.layout = 2 then 127 else l2Exp l
    let c := d.chans.getD j ⟨0, 0, 0⟩
    let y := preAct c t.biasExp (d.rho.map fun r => r.getD i 0) (cellX g i j) e
    let seq := match d.rowMap with
      | some m => (m.getD i ⟨0, 0⟩).key
      | none => 0
    let u := if t.stochastic then some (draw seq t.tensor ((d.rowBase + i) * t.chans.length + ch) (d.steps.getD i 0)) else none
    ⟨activate luts c.act y e, true, u⟩

/-- What a drain produces: fields written, clips per tile row, elements fed to contexts (03 R62-R80; 06 R167). -/
structure DrainOut where
  fields : List FieldW := []
  clips : List (Nat × Nat) := []
  feeds : List (Nat × List (Nat × B32 × Bool)) := []
  deriving DecidableEq, Repr

/-- The bytes of the scratchpad that a drain writes. -/
def DrainOut.bytes (o : DrainOut) : List (Nat × Nat) := o.fields.map fun f => (f.off, 1)

/-- The blocks of one output row: 32 channels each, the last completed with zero elements (02 R53; 03 R79). -/
def rowBlocks (g : Group) (d : DrainInfo) (t : ReqTable) (luts : List (Option Lut)) (i : Nat) : List OutBlock :=
  (List.range (ceilDiv g.cols 32)).map fun b =>
    let es := (List.range 32).map fun j => outElem g d t luts i (32 * b + j)
    if t.layout = 2 then unscaledBlock t.fmt es else scaledBlock t.fmt t.clipRatio (d.predL.getD i l2One) es

/-- A drain writes the code of its column `j`: an active column, or a channel beyond the tensor's count (03 R79). The cells of an inactive
column are never written (04 R101, R102). -/
def writesCol (g : Group) (d : DrainInfo) (t : ReqTable) (j : Nat) : Bool := decide (j < g.cols) || decide (t.chans.length ≤ d.ch0 + j)

/-- One row of a requantise drain into the standard or unscaled layout. -/
def requantRow (g : Group) (d : DrainInfo) (t : ReqTable) (luts : List (Option Lut)) (o : Slot) (i : Nat) : List FieldW × Nat :=
  let bs := rowBlocks g d t luts i
  let w := fmtBits t.fmt
  let elems := (List.range bs.length).flatMap fun b =>
    (List.range 32).filterMap fun j =>
      let p := elemPos o i (d.ch0 + 32 * b + j)
      if writesCol g d t (32 * b + j) then some (FieldW.mk p.1 p.2 w (((bs.getD b ⟨0, [], 0⟩).codes).getD j 0)) else none
  let clips := (bs.map fun b => b.clips).sum
  if t.layout = 2 then (elems, clips) else
    let ones := (List.range bs.length).map fun b =>
      let p := l1Pos o i (d.ch0 + 32 * b)
      FieldW.mk p.1 p.2 4 (bs.getD b ⟨0, [], 0⟩).m
    let whole := d.ch0 = 0 && t.chans.length ≤ g.cols
    let l := if whole && bs.all fun b => b.m = 0 then 0 else d.predL.getD i l2One
    (elems ++ ones ++ byteFields (l2Pos o i) (leBytes 2 l), clips)

/-- Row `i` of the tile is written by a drain (04 R101, R102). -/
def writesRow (g : Group) (i : Nat) : Bool := decide (i < g.rows) && !g.rowMask.contains i

/-- Block (bi, bj) of a requantise drain into the transposable layout: 4 rows by 8 channels (03 R78). Its rows that are excluded or beyond
the tile enter A as zero, and its level-one code is written where one of its rows is (DESIGN CHOICE, log 103). -/
def requantT (g : Group) (d : DrainInfo) (t : ReqTable) (luts : List (Option Lut)) (o : Slot) (bi bj : Nat) :
    List FieldW × List (Nat × Nat) :=
  let row := fun n => 4 * bi + n / 8
  let es := (List.range 32).map fun n =>
    if writesRow g (row n) then outElem g d t luts (row n) (8 * bj + n % 8) else ⟨0, false, none⟩
  let b := scaledBlock t.fmt t.clipRatio (d.predL.getD (4 * bi) l2One) es
  let elems := (List.range 32).filterMap fun n =>
    if writesRow g (row n) && writesCol g d t (8 * bj + n % 8) then
      let p := elemPos o (row n) (d.ch0 + 8 * bj + n % 8)
      some (FieldW.mk p.1 p.2 (fmtBits t.fmt) (b.codes.getD n 0))
    else none
  let p := l1Pos o (4 * bi) (d.ch0 + 8 * bj)
  if (List.range 4).any fun r => writesRow g (4 * bi + r) then (FieldW.mk p.1 p.2 4 b.m :: elems, [(4 * bi, b.clips)]) else ([], [])

/-- The requantise route (04 R102, R107). -/
def requantOut (g : Group) (d : DrainInfo) (t : ReqTable) (luts : List (Option Lut)) (o : Slot) : DrainOut :=
  let rows := (List.range g.rows).filter (writesRow g)
  if t.layout = 1 then
    let parts := (List.range (ceilDiv g.rows 4)).flatMap fun bi =>
      (List.range (ceilDiv g.cols 8)).map fun bj => requantT g d t luts o bi bj
    { fields := (parts.flatMap fun p => p.1) ++ if rows.isEmpty then [] else byteFields o.l2 (leBytes 2 (d.predL.getD 0 l2One)),
      clips := parts.flatMap fun p => p.2 }
  else
    let parts := rows.map fun i => (i, requantRow g d t luts o i)
    { fields := parts.flatMap fun p => p.2.1, clips := parts.map fun p => (p.1, p.2.2) }

/-- Every active cell, row-major, 8 bytes each (04 R107). -/
def rawBytes (g : Group) (i : Nat) : List Byte :=
  (g.cells.getD i []).flatMap fun c => leBytes 8 (unsigned 64 c.v)

/-- The raw route (04 R102, R107; 06 R165, R167): an integer chain covers at most 2^32 elements, and its index is
taken modulo 2^32 (DESIGN CHOICE, log 104). -/
def rawOut (g : Group) (d : DrainInfo) : DrainOut :=
  if d.frame then
    let hdr := hdrBytes ⟨5, false, false, d.rowBase, (g.gbase + g.total) % 2 ^ 32, g.rows, g.cols, 0⟩
    { fields := byteFields d.dest (hdr ++ (List.range g.rows).flatMap fun i => rawBytes g i) }
  else
    { fields := (List.range g.rows).flatMap fun i =>
        if g.rowMask.contains i then [] else byteFields (d.dest + i * d.aux) (rawBytes g i) }

/-- The reduce route: per tile row, the context it feeds and the elements (04 R102; 05 R131-R134). -/
def reduceOut (g : Group) (d : DrainInfo) : DrainOut :=
  { feeds := (List.range g.rows).filterMap fun i =>
      if g.rowMask.contains i then none else
        some (d.dest + i, (List.range g.cols).filterMap fun j =>
          if g.colMask.contains j then none else
            let x := round32 false (cellX g i j)
            some (d.gidx + j, x, isInf32 x)) }

/-- A level-two code raised by adaptation code `a`, and SAT: it reached the end of the range, 0x7F7F, which it would pass or on which it
lands (03 R84, R85, R89; DEDUCED, log 120). -/
def adaptL (l a : Nat) : Nat × Bool :=
  let p := (128 + l2Man l) * (64 + a)
  let n := if p < 2 ^ 14 then 0 else if p < 2 ^ 15 then 1 else if p < 2 ^ 16 then 2 else 3
  let sg := ceilDiv p (2 ^ (6 + n))
  let e := l2Exp l + n + (if sg = 256 then 1 else 0)
  let sg := if sg = 256 then 128 else sg
  if 254 < e then (0x7F7F, true) else (e * 128 + (sg - 128), e * 128 + (sg - 128) == 0x7F7F)

end Sys2Proof.Machine
end

