-- ==== Sys2Proof/Machine/CoreOps.lean ====
section
/-!
DEFINITION. CoreOps.lean: what the core instructions share: fields and index registers (06 R152, R155, R157), the conditions
of issue (06 R174, R177, R179), the loop stack (06 R159), scratchpad reads through the SEC-DED code (10 R280-R282),
the end of a step or of a program (06 R182, R183).
-/
namespace Sys2Proof.Machine

/-- Bits `[lo + len - 1 : lo]` of dword `d` of an instruction. -/
def fld (w : IWord) (d lo len : Nat) : Nat := bits (w.getD d 0).toNat lo len

/-- Index register `n`; X0 reads as zero (06 R152). -/
def getX (c : Core) (n : Nat) : Nat := if n = 0 then 0 else c.x.getD n 0

/-- Write index register `n`; X0 ignores writes (06 R152). -/
def setX (c : Core) (n v : Nat) : Core := if n = 0 then c else { c with x := modifyAt c.x n fun _ => v % 2 ^ 32 }

/-- The end of loop bodies at the program counter (06 R159): each iteration's end advances its register; the last one
leaves the loop, which may end the enclosing body too. -/
def loopBack : Nat → Core → Core
  | 0, c => c
  | k + 1, c =>
    match c.loops with
    | [] => c
    | f :: t =>
      if c.pc = f.stop then
        let c := setX c f.xi (getX c f.xi + f.inc)
        if 1 < f.remaining then { c with pc := f.start, loops := { f with remaining := f.remaining - 1 } :: t }
        else loopBack k { c with loops := t }
      else c

/-- The program counter past an instruction. -/
def advance (c : Core) : Core := loopBack 9 { c with pc := c.pc + 1 }

/-- A scratchpad offset: the field plus its register, below 2^23 and aligned; none where 06 R157 faults with ADDRESS
(DEDUCED, log 41). -/
def effOff (c : Core) (field xr align : Nat) : Option Nat :=
  let o := field + getX c xr
  if o < spadSize ∧ o % align = 0 then some o else none

/-- Two ranges of bytes overlap. -/
def bytesMeet (a b : Nat × Nat) : Bool := overlap a.1 (a.1 + a.2) b.1 (b.1 + b.2)

/-- Two footprints meet, in whole granules (06 R179). -/
def meets (a b : Nat × Nat) : Bool :=
  overlap (a.1 / 64) (ceilDiv (a.1 + a.2) 64) (b.1 / 64) (ceilDiv (b.1 + b.2) 64)

/-- The scratchpad ranges that a read of the operand rows `rows` of `n`, reduction indices `k0 … k0 + k - 1`, covers (02 R52,
R54, R55; 04 R103, R104); `l2`: the level-two plane among them, which later passes of a group do not read (04 R105). -/
def readRows (o : Slot) (rows : List Nat) (n k0 k : Nat) (l2 : Bool) : List (Nat × Nat) :=
  let w := fmtBits o.fmt
  if o.layout = 1 then
    let across := o.tCols / 8
    let (lo, hi, left, right) :=
      if o.axis = 1 then (k0 / 4, ceilDiv (k0 + k) 4, 0, ceilDiv n 8) else (0, ceilDiv n 4, k0 / 8, ceilDiv (k0 + k) 8)
    ((List.range (hi - lo)).flatMap fun i =>
      let first := (lo + i) * across + left
      let last := (lo + i) * across + right
      [(o.elem + first * 4 * w, (last - first) * 4 * w), (o.l1 + first / 2, ceilDiv last 2 - first / 2)]) ++
      if l2 then [(o.l2, 2)] else []
  else
    (rows.flatMap fun i =>
      let lo := k0 * w / 8
      let e := (o.elem + i * o.elemStride + lo, ceilDiv ((k0 + k) * w) 8 - lo)
      if o.layout = 2 then [e]
      else [e, (o.l1 + i * o.l1Stride + k0 / 64, ceilDiv (k0 + k) 64 - k0 / 64)]) ++
      if o.layout = 2 || !l2 then [] else [(o.l2, 2 * n)]

/-- The scratchpad ranges that a read of operand rows `0 … n - 1` covers. -/
def readRanges (o : Slot) (n k0 k : Nat) (l2 : Bool) : List (Nat × Nat) := readRows o (List.range n) n k0 k l2

/-- The scratchpad ranges a pass reads (04 R105; 06 R179). -/
def passRanges (p : PassArgs) : List (Nat × Nat) :=
  readRanges p.a p.rows p.k0 p.k (!p.cont) ++ readRanges p.b p.cols p.k0 p.k (!p.cont) ++
    (match p.masks with | some o => [(o, 64)] | none => []) ++
    (match p.chain with | some o => [(o, 32 + 8 * p.rows * p.cols)] | none => [])

/-- The scratchpad ranges that a group's passes read. -/
def Group.ranges (g : Group) : List (Nat × Nat) := g.recs.flatMap fun r => passRanges r.args

/-- The bytes that a group's passes read: rows and columns that a mask excludes are not read (04 R102, R113). -/
def Group.bytesRead (g : Group) : List (Nat × Nat) :=
  let lines := fun (mask : List Nat) (n : Nat) => (List.range n).filter fun i => !mask.contains i
  g.recs.flatMap fun r =>
    let p := r.args
    readRows p.a (lines g.rowMask p.rows) p.rows p.k0 p.k (!p.cont) ++ readRows p.b (lines g.colMask p.cols) p.cols p.k0 p.k (!p.cont) ++
      (match p.masks with | some o => [(o, 64)] | none => []) ++
      (match p.chain with | some o => [(o, 32 + 8 * p.rows * p.cols)] | none => [])

/-- What unchecked accumulation groups read: the one held live, and those of tiles that have not passed (04 R113). -/
def uncheckedReads (c : Core) : List (Nat × Nat) :=
  (match c.group with | some g => g.bytesRead | none => []) ++
    (c.tiles.filter fun t => t.phase != .passed).flatMap fun t => t.grp.bytesRead

/-- A write to one of these ranges of bytes is held back (04 R113). -/
def heldBack (c : Core) (ranges : List (Nat × Nat)) : Bool := (uncheckedReads c).any fun p => ranges.any fun r => bytesMeet p r

/-- The scratchpad ranges that a requantise drain of the group writes through slot `o` (06 R167). -/
def requantRanges (o : Slot) (rows cols ch0 : Nat) : List (Nat × Nat) :=
  let w := fmtBits o.fmt
  if o.layout = 1 then
    let across := o.tCols / 8
    ((List.range (ceilDiv rows 4)).flatMap fun bi =>
      let first := bi * across + ch0 / 8
      let last := bi * across + ch0 / 8 + ceilDiv cols 8
      [(o.elem + first * 4 * w, (last - first) * 4 * w), (o.l1 + first / 2, ceilDiv last 2 - first / 2)]) ++ [(o.l2, 2)]
  else
    let blocks := ceilDiv cols 32
    (List.range rows).flatMap fun i =>
      (o.elem + i * o.elemStride + ch0 * w / 8, blocks * 4 * w) ::
        (if o.layout = 2 then [] else
          [(o.l1 + i * o.l1Stride + ch0 / 64, ceilDiv (ch0 / 32 + blocks) 2 - ch0 / 64), (o.l2 + 2 * i, 2)])

/-- The areas that a drain writes (06 R167, R179): its status word and its route's destination. -/
def drainWrites (d : DrainInfo) (rows cols : Nat) : List (Nat × Nat) :=
  (d.status, 4) ::
    (if d.route = 0 then (match d.out with | some o => requantRanges o rows cols d.ch0 | none => [])
    else if d.route = 2 then
      (if d.frame then [(d.dest, 32 + 8 * rows * cols)] else [(d.dest, (rows - 1) * d.aux + 8 * cols)])
    else [])

/-- The bounding scratchpad range of a DMA's rows. -/
def dmaRange (d : Dma) : Nat × Nat :=
  let lo := d.rows.foldl (fun m r => min m r.sp) spadSize
  let hi := d.rows.foldl (fun m r => max m (r.sp + 64 * d.grans)) 0
  (lo, hi - lo)

/-- The DMA writes the scratchpad. -/
def Dma.incoming (d : Dma) : Bool := d.kind != .out && d.kind != .scatter

/-- The scratchpad ranges that earlier instructions still have to write (06 R179). -/
def pendingWrites (c : Core) : List (Nat × Nat) :=
  (c.dma.filterMap fun d => if d.incoming then some (dmaRange d) else none) ++
    (c.tiles.flatMap fun t => match t.drain with | some d => drainWrites d t.grp.rows t.grp.cols | none => []) ++
    c.held.map fun h => (h.1, h.2.length)

/-- Instructions of each queue, and outstanding footprints of the scoreboard (06 R177, R179). -/
def queueDepth : Nat := 8
def footprintLimit : Nat := 64

/-- Contexts that drained tiles still have to feed. -/
def pendingFeeds (c : Core) : List (Nat × Nat) :=
  c.tiles.filterMap fun t => match t.drain with
    | some d => if d.route = 1 then some (d.dest, t.grp.rows) else none
    | none => none

/-- An instruction that reads or writes these ranges waits for the writes of earlier ones that execute (06 R179). -/
def stalls (c : Core) (ranges : List (Nat × Nat)) : Bool :=
  (pendingWrites c).any fun p => ranges.any fun r => meets p r

/-- An instruction that names contexts `first … first + n - 1` waits for tiles that feed them: every program computes
what its instructions compute alone in program order (06 R179, DEDUCED, log 15). -/
def stallsCtx (c : Core) (first n : Nat) : Bool :=
  (pendingFeeds c).any fun p => overlap p.1 (p.1 + p.2) first (first + n)

/-- Every earlier instruction has completed (06 R161): none is queued, no DMA, signal operation or drain is outstanding, and the array
has completed its passes. -/
def quiet (c : Core) : Bool :=
  c.queue.isEmpty && c.dma.isEmpty && c.adds.isEmpty && c.wait.isNone && c.held.isEmpty &&
    (c.tiles.all fun t => t.drain.isNone && t.phase != .completing)

/-- A SIG_WAIT holds instructions of opcode `op`: every one, or DMA and signal instructions (06 R173, R177). -/
def Core.holds (c : Core) (op : Nat) : Bool :=
  match c.wait with
  | some t => t.holdsAll || decide (0x60 ≤ op ∧ op ≤ 0x71)
  | none => false

/-- The instruction completes on core `n` with the core's change `f`, and the PC advances. -/
def retire (s : State) (n : Nat) (f : Core → Core) : Out := done (s.setCore n fun c => advance (f c))

/-- A program fault with a reason code (06 R185). -/
def pfault (s : State) (n : Nat) (w : IWord) (reason : Nat) : Out :=
  done (s.programFault n reason 0 0 .none w (s.core n).pc)

/-- A program fault at an address. -/
def pfaultAt (s : State) (n : Nat) (w : IWord) (reason addr : Nat) (sp : FaultSpace) : Out :=
  done (s.programFault n reason 0 addr sp w (s.core n).pc)

/-- A fault of class poison from an operand of the scratchpad (10 R282); the core is flagged where `own` says that the
poison is its scratchpad's, an uncorrectable error (20 R573). -/
def State.poisonFault (s : State) (n : Nat) (w : IWord) (addr : Nat) (own : Bool) : State :=
  let s := (s.latch (.job (s.partOfCore n))
    { status := 0x0F03, core := some n, pc := (s.core n).pc, addr := addr, space := .scratchpad,
      instr := w }).setCore n fun c => { c with run := .stopped }
  if own then s.flagCore n else s

/-- Word `k` of a core's scratchpad takes the poison pattern (10 R281). -/
def badWord (k : Nat) (c : Core) : Core :=
  { c with bad := if c.bad.contains k then c.bad else k :: c.bad, rawCheck := Sparse.drop c.rawCheck k }

/-- The granule lies in one of the ranges. -/
def inRanges (g : Nat) (rs : List (Nat × Nat)) : Bool := rs.any fun r => meets (64 * g, 64) r

/-- What the decoder finds at word `k` of a core's scratchpad, which holds `word`: the poison pattern, check bits planted by WRITE_RAW,
which the code itself decodes, or the finding of the read (10 R279-R281; DESIGN CHOICE, log 7). -/
def decodeWord (c : Core) (k : Nat) (word : List Byte) (found : List Finding) : Decoded :=
  if c.bad.contains k then .poisoned
  else match Sparse.find c.rawCheck k with
    | none => foundAt found k word
    | some b =>
      if b = secdedCheck word then foundAt found k word
      else if b = poisonBits word then .poisoned
      else match secdedDecode word b with | some d => .corrected d | none => .uncorrectable

/-- Word `k` holds corrected data with correct check bits. -/
def fixWord (k : Nat) (d : List Byte) (c : Core) : Core :=
  { c with spad := Sparse.setList 0 c.spad (8 * k) d, rawCheck := Sparse.drop c.rawCheck k }

/-- Words of core `n` read (10 R280, R281): the state, and the core as the reader sees it. -/
def scanWords (n : Nat) (found : List Finding) : List Nat → State × Core → State × Core
  | [], a => a
  | k :: ks, (s, v) =>
    match decodeWord v k (spadBytes v (8 * k) 8) found with
    | .clean => scanWords n found ks (s, v)
    | .corrected d =>
      let s := s.countCe 5
      scanWords n found ks (if s.ecc.ceWb then s.setCore n (fixWord k d) else s, fixWord k d v)
    | .uncorrectable => scanWords n found ks ((s.countUe 5 (8 * k) n).setCore n (badWord k), badWord k v)
    | .poisoned => scanWords n found ks (s.setCore n (badWord k), badWord k v)

/-- A scratchpad read of ranges, in whole granules: findings and planted check bits take effect (10 R280, R281). The core is as the
reader sees it. -/
def State.scan (s : State) (n : Nat) (rs : List (Nat × Nat)) (found : List Finding) : State × Core :=
  let c := s.core n
  let words := (found.map (·.granule) ++ c.rawCheck.map (·.1)).filter fun k => inRanges (k / 8) rs && !c.bad.contains k
  scanWords n found (ascending words) (s, c)

/-- Some granule of the ranges is bad. -/
def badIn (c : Core) (rs : List (Nat × Nat)) : Bool := c.bad.any fun k => inRanges (k / 8) rs

/-- Whole words written with correct check bits are sound: poison and planted bits are gone (10 R281). -/
def cleanSpad (c : Core) (o n : Nat) : Core :=
  { c with
    bad := c.bad.filter fun k => !(decide (o ≤ 8 * k) && decide (8 * k + 8 ≤ o + n))
    rawCheck := c.rawCheck.filter fun e => !(decide (o ≤ 8 * e.1) && decide (8 * e.1 + 8 ≤ o + n)) }

/-- Whole words written to the scratchpad. -/
def spadWrite (c : Core) (o : Nat) (bs : List Byte) : Core :=
  cleanSpad { c with spad := Sparse.setList 0 c.spad o bs } o bs.length

/-! ## Writes narrower than a word (10 R285, R286) -/

/-- Every bit of bytes `o … o + n - 1` is written by the fields. -/
def covered (fs : List FieldW) (o n : Nat) : Bool :=
  (List.range n).all fun i => decide (8 ≤ ((fs.filter fun f => f.off == o + i).map fun f => f.w).sum)

/-- The fields that a drain or a record writes of one scratchpad word: a word wholly covered is written; another is read, merged and
written back, and the write is lost where the word is beyond correction (10 R281, R285, R286; DESIGN CHOICE, log 100 for the count). -/
def State.writeWord (s : State) (n : Nat) (found : List Finding) (e : Nat × List FieldW) : State :=
  let put := fun (c : Core) => { c with spad := putFields c.spad e.2, rawCheck := Sparse.drop c.rawCheck e.1 }
  let c := s.core n
  if covered e.2 (8 * e.1) 8 then s.setCore n fun c => put { c with bad := c.bad.filter fun k => k != e.1 }
  else match decodeWord c e.1 (spadBytes c (8 * e.1) 8) found with
    | .clean => (s.setCore n put).countNarrow
    | .corrected d => ((s.countCe 5).setCore n fun c => put (fixWord e.1 d c)).countNarrow
    | .uncorrectable => ((s.countUe 5 (8 * e.1) n).setCore n (badWord e.1)).narrowLost
    | .poisoned => (s.setCore n (badWord e.1)).narrowLost

/-- Fields grouped by the word that holds them, in the order of their first field. -/
def byWord (fs : List FieldW) : List (Nat × List FieldW) :=
  (fs.foldl (fun l f => if l.contains (f.off / 8) then l else l ++ [f.off / 8]) []).map fun k => (k, fs.filter fun f => f.off / 8 == k)

/-- Fields written to the scratchpad of core `n`, word by word. -/
def State.writeFields (s : State) (n : Nat) (fs : List FieldW) (found : List Finding) : State :=
  (byWord fs).foldl (fun s e => s.writeWord n found e) s

/-- A run of bytes cut at word bounds, as fields. -/
def wordRuns : Nat → Nat → List Byte → List (Nat × List FieldW)
  | 0, _, _ => []
  | k + 1, o, bs =>
    if bs.isEmpty then []
    else (o / 8, byteFields o (bs.take (8 - o % 8))) :: wordRuns k (o + (8 - o % 8)) (bs.drop (8 - o % 8))

/-- Bytes written to the scratchpad of core `n`, word by word. -/
def State.writeSpad (s : State) (n o : Nat) (bs : List Byte) (found : List Finding) : State :=
  (wordRuns (bs.length / 8 + 2) o bs).foldl (fun s e => s.writeWord n found e) s

/-- Held writes whose area no unchecked group reads any more are made, in order (04 R113). -/
def State.releaseWrites (s : State) (n : Nat) (found : List Finding) : State :=
  let free := fun (h : Nat × List Byte) => !heldBack (s.core n) [(h.1, h.2.length)]
  let now := (s.core n).held.filter free
  let s := s.setCore n fun c => { c with held := c.held.filter fun h => !free h }
  now.foldl (fun s h => s.writeSpad n h.1 h.2 found) s

/-- A core's accesses touch their staged pages (09 R255). -/
def State.touch (s : State) (p : Nat) (pages : List Nat) : State :=
  s.setRun p fun r => { r with
    staging := mapIf (fun g => pages.contains g.page) (fun g => { g with touch := r.advances }) r.staging }

/-- The extents lie inside the scratchpad. -/
def fits (rs : List (Nat × Nat)) : Bool := rs.all fun r => decide (r.1 + r.2 ≤ spadSize)

/-! ## The step boundary (06 R182, R183) -/

/-- The step's phase once every active core has arrived (06 R182; 12 R334): the search phase follows a query step's encode
phase; otherwise the boundary. -/
def nextPhase (r : Run) (queryStep : Bool) : StepPhase :=
  if queryStep && !r.posted then .search else .boundary

/-- After core `n` has arrived or halted: the boundary, the program's end, or STEP_MISMATCH (06 R182, R183). -/
def State.arrived (s : State) (n : Nat) (w : IWord) : State :=
  let p := s.partOfCore n
  match s.run p with
  | none => s
  | some r =>
    let cs := r.cores.map fun k => (s.core k).run
    if cs.all fun x => x == .atStepEnd then
      let q := match s.bundle r.bundle with
        | some b => b.kind == 2 && !r.prologue && r.queryStep.isSome
        | none => false
      s.setRun p fun r => { r with phase := nextPhase r q }
    else if cs.all fun x => x == .halted then
      s.setRun p fun r => { r with state := .ending }
    else if cs.all fun x => x == .atStepEnd || x == .halted then
      s.programFault n reasonMismatch 0 0 .none w (s.core n).pc
    else s

end Sys2Proof.Machine
end

