-- ==== Sys2Proof/Machine/CoreFoot.lean ====
section
/-!
DEFINITION. CoreFoot.lean: the footprints of instructions, the queues of the units, and the issue of an instruction (06 R157, R173,
R177-R179).
-/
namespace Sys2Proof.Machine

/-! ## What instructions name -/

/-- What PASS `w` names on core `c`, with the operands of its two slots (06 R164). -/
def passArgs (c : Core) (w : IWord) (a b : Slot) : PassArgs :=
  { a := a, b := b, cont := fld w 0 16 1 = 1, hold := fld w 0 17 1 = 1, rows := fld w 1 0 9, cols := fld w 1 9 9,
    k := fld w 2 0 17, k0 := fld w 3 0 24 + getX c (fld w 0 24 4), gbase := fld w 7 0 32,
    masks := if fld w 0 20 1 = 1 ∨ fld w 0 21 1 = 1 then effOff c (fld w 4 0 23) (fld w 0 28 4) 64 else none,
    chain := if fld w 0 22 1 = 1 then effOff c (fld w 5 0 23) (fld w 0 28 4) 1 else none }

/-- FIRST and COUNT of a reduction or top-k instruction (06 R170). -/
def ctxFirst (w : IWord) : Nat := fld w 1 0 8
def ctxCount (w : IWord) : Nat := fld w 1 8 9

/-- Its scratchpad offset; none where 06 R157 faults. -/
def ctxOff (c : Core) (w : IWord) : Option Nat := effOff c (fld w 4 0 23) (fld w 0 12 4) 1

/-- The rows come from a list in the scratchpad. -/
def DmaKind.listed (k : DmaKind) : Bool := k == .gather || k == .scatter || k == .zone

/-- The granules leave the scratchpad. -/
def DmaKind.outgoing (k : DmaKind) : Bool := k == .out || k == .scatter

/-- The DMA instruction of an opcode (06 R155). -/
def dmaKindOf (op : Nat) : DmaKind := [DmaKind.into, .out, .gather, .scatter].getD (op - 0x60) .zone

/-- The list that the instruction reads. -/
def dmaList (w : IWord) (kind : DmaKind) : List (Nat × Nat) :=
  if kind.listed then [(fld w 7 0 23, 8 * fld w 4 0 13)] else []

/-- The scratchpad ranges of its rows. -/
def dmaArea (w : IWord) (sp : Nat) : List (Nat × Nat) :=
  (List.range (fld w 4 0 13)).map fun i => (sp + i * fld w 6 0 23, 64 * fld w 5 0 17)

/-! ## Footprints (06 R179) -/

/-- The scratchpad footprint of an instruction: what it reads and what it writes. -/
structure Foot where
  reads : List (Nat × Nat) := []
  writes : List (Nat × Nat) := []
  deriving DecidableEq, Repr

/-- The footprint of a PASS. -/
def footPass (c : Core) (w : IWord) : Foot :=
  match Sparse.find c.slots (fld w 0 8 4), Sparse.find c.slots (fld w 0 12 4) with
  | some a, some b => { reads := passRanges (passArgs c w a b) }
  | _, _ => {}

/-- The rows and columns of the tile that a DRAIN disposes of; the largest tile where its pass has not executed. -/
def drainShape (c : Core) : Nat × Nat :=
  if (c.queue.any fun e => fld e.instr 0 0 8 == 0x20) then (256, 256)
  else match c.tiles.find? fun t => t.drain.isNone with
    | some t => (t.grp.rows, t.grp.cols)
    | none => (256, 256)

/-- The footprint of a DRAIN (06 R167-R169). -/
def footDrain (c : Core) (w : IWord) : Foot :=
  let (rows, cols) := drainShape c
  let status := (fld w 1 0 23 + getX c (fld w 0 20 4), 4)
  let x := getX c (fld w 0 16 4)
  match fld w 0 8 2 with
  | 0 =>
    { reads := (if fld w 0 13 1 = 1 then [(fld w 3 0 23, 8 * rows)] else []) ++
        (if fld w 0 11 2 = 0 then [] else [(fld w 4 0 23, 16 * rows)])
      writes := status :: match Sparse.find c.slots (fld w 0 24 4) with
        | some o => requantRanges o rows cols (fld w 2 0 16 + x)
        | none => [] }
  | 2 =>
    let dest := fld w 2 0 23 + x
    { writes := [status, if fld w 0 10 1 = 1 then (dest, 32 + 8 * rows * cols) else (dest, (rows - 1) * fld w 4 0 23 + 8 * cols)] }
  | _ => { writes := [status] }

/-- The footprint of a reduction or top-k instruction (06 R170). -/
def footReduce (c : Core) (w : IWord) : Foot :=
  let o := fld w 4 0 23 + getX c (fld w 0 12 4)
  let n := ctxCount w
  let slot := match Sparse.find c.slots (fld w 0 16 4) with
    | some t => readRanges t n (fld w 6 0 24) (fld w 5 0 17) true
    | none => []
  let list := frameStride .topk (match Sparse.find c.ctxs (ctxFirst w) with | some x => x.kReq | none => 1024)
  match fld w 0 0 8 with
  | 0x40 => if fld w 0 10 1 = 1 then { reads := [(o, 1600 * n)] } else {}
  | 0x41 => { reads := slot }
  | 0x42 => { writes := [(o, 16 * n)] }
  | 0x43 => { writes := [(o, 1600 * n)] }
  | 0x50 => if fld w 0 10 1 = 1 then { reads := [(o, frameStride .topk (fld w 3 0 11) * n)] } else {}
  | 0x51 => { reads := if fld w 0 8 2 = 0 then [(o, 16 * fld w 5 0 17)] else slot }
  | 0x52 => { reads := [(o, list * fld w 5 0 16)] }
  | 0x53 => { writes := [(o, frameStride .topk 1024 * n)] }
  | _ => {}

/-- The footprint of a DMA instruction (06 R171). -/
def footDma (c : Core) (w : IWord) : Foot :=
  let kind := dmaKindOf (fld w 0 0 8)
  let area := dmaArea w (fld w 1 0 23 + getX c (fld w 0 8 4))
  if kind.outgoing then { reads := dmaList w kind ++ area } else { reads := dmaList w kind, writes := area }

/-- The unit in whose queue an instruction of opcode `op` waits (06 R177): 1 array, 2 drain, 3 reduction and top-k, 4 DMA, 5 signal, 6
migration; 0 for one that completes at issue. -/
def unitOf (op : Nat) : Nat :=
  if op < 0x20 then 0 else if op < 0x30 then 1 else if op < 0x40 then 2 else if op < 0x60 then 3 else if op < 0x70 then 4
  else if op < 0x80 then 5 else 6

/-- The footprint of instruction `w` on core `c` (06 R179); `lsw`: the layer status word that a layer mark writes (09 R266). -/
def footOf (lsw : Option Nat) (c : Core) (w : IWord) : Foot :=
  match unitOf (fld w 0 0 8) with
  | 1 => footPass c w
  | 2 => footDrain c w
  | 3 => footReduce c w
  | 4 => footDma c w
  | 6 => match lsw with
    | some o => if fld w 0 8 2 = 2 then { writes := [(o, 4)] } else {}
    | none => {}
  | _ => {}

/-! ## The queues of the units (06 R177) -/

/-- The core with the registers and slots that a queued instruction read when it issued (06 R178). -/
def Issued.on (e : Issued) (c : Core) : Core := { c with x := e.x, slots := e.slots, tables := e.tables, pc := e.pc, loops := [] }

/-- The unit of a queued instruction. -/
def Issued.unit (e : Issued) : Nat := unitOf (fld e.instr 0 0 8)

/-- The queued instructions of a unit. -/
def Core.queued (c : Core) (u : Nat) : List Issued := c.queue.filter fun e => e.unit == u

/-- Outstanding instructions, each with its footprint: queued ones, DMA, passes that have not completed, drains, held writes (06 R179). -/
def footprints (c : Core) : Nat :=
  c.queue.length + c.dma.length + (c.tiles.filter fun t => t.phase == .completing).length +
    (c.tiles.filter fun t => t.drain.isSome).length + c.held.length

/-- Instructions that a unit executes: passes that wait for the shadow (04 R106), drains that have not left, DMA, signal operations that
have not taken effect. -/
def unitBusy (c : Core) (u : Nat) : Nat :=
  if u = 1 then (c.tiles.filter fun t => t.phase == .completing && !t.retry).length
  else if u = 2 then (c.tiles.filter fun t => t.drain.isSome).length
  else if u = 4 then c.dma.length
  else if u = 5 then c.adds.length + b2n c.wait.isSome
  else 0

/-- The queue of an opcode's unit, or the scoreboard, is full (06 R177, R179). -/
def queueFull (c : Core) (op : Nat) : Bool :=
  let u := unitOf op
  u != 0 && (decide (queueDepth ≤ (c.queued u).length + unitBusy c u) || (u != 5 && decide (footprintLimit ≤ footprints c)))

/-- Some range of the one list meets one of the other. -/
def meetAny (a b : List (Nat × Nat)) : Bool := a.any fun p => b.any fun r => meets p r

/-- Two footprints overlap, at least one of the two writing the overlap (06 R179). -/
def Foot.clash (a b : Foot) : Bool := meetAny a.writes (b.reads ++ b.writes) || meetAny a.reads b.writes

/-- Instructions of these units bear on one another beside their footprints: a drain takes the tile of its pass, and a drain feeds the
contexts that reduction instructions name (06 R166, R167). -/
def unitsBear (a b : Nat) : Bool := a == b || (a == 2 && (b == 1 || b == 3)) || (b == 2 && (a == 1 || a == 3))

/-- Instruction `w` must wait on core `c` for earlier ones: for those that execute, and for the queued ones `older` (06 R177, R179; DEDUCED,
log 15). -/
def hazard (lsw : Option Nat) (c : Core) (older : List Issued) (w : IWord) : Bool :=
  let f := footOf lsw c w
  let u := unitOf (fld w 0 0 8)
  u != 0 && (stalls c (f.reads ++ f.writes) || (u == 3 && stallsCtx c (ctxFirst w) (ctxCount w)) ||
    older.any fun e => unitsBear e.unit u || (footOf lsw (e.on c) e.instr).clash f)

/-- The layer status word of a job's bundle (09 R266). -/
def lswOf (s : State) (r : Run) : Option Nat :=
  match s.bundle r.bundle with
  | some b => if b.sched.lswEn then some b.sched.lsw else none
  | none => none

/-- The instruction enters the queue of its unit with the registers and slots of this moment, and the PC advances (06 R177, R178). -/
def enqueue (s : State) (n : Nat) (w : IWord) : Out :=
  done (s.setCore n fun c => advance { c with queue := c.queue ++ [⟨w, c.pc, c.x, c.slots, c.tables⟩] })

/-- The core of `s` with what the sequencer had before a queued instruction executed: the PC, the registers, the slots (06 R178). -/
def backTo (c : Core) (n : Nat) (s : State) : State :=
  s.setCore n fun k => { k with x := c.x, slots := c.slots, tables := c.tables, pc := c.pc, loops := c.loops }

/-- A queued instruction executes: it sees the registers and slots of its issue (06 R177, R178). -/
def runQueued (s : State) (n : Nat) (e : Issued) (f : State → Core → Out) : Out :=
  let c := s.core n
  let s := s.setCore n fun c => { e.on c with queue := c.queue.erase e }
  match f s (s.core n) with
  | .next t => .next (backTo c n t)
  | o => o

/-- The sequencer of core `n` may issue instruction `w` of opcode `op`, which stands at its PC: no SIG_WAIT holds it, and its queue and
the scoreboard are not full (06 R173, R177). -/
def mayIssue (c : Core) (w : IWord) (op : Nat) : Bool :=
  c.store.getD c.pc [] == w && !c.holds op && !queueFull c op

/-- Instruction `w` of core `n`, of opcode `op`: the dies are awake (19 R550), its job runs a step and has lent no core (20 R575), the core
runs. The oldest queued
instruction of the unit executes where it is this one and no hazard stands. Otherwise the sequencer issues the instruction at its PC,
where it may: it executes, or it waits in the queue of its unit. `f` is given the state, the job and the core. Otherwise nothing happens
(DESIGN CHOICE, log 11). -/
def issue (s : State) (n : Nat) (w : IWord) (op : Nat) (f : State → Run → Core → Out) : Out :=
  let c := s.core n
  match s.run (s.partOfCore n) with
  | none => done s
  | some r =>
    if s.awake = true ∧ r.state = .running ∧ r.phase = .run ∧ r.borrow = none ∧ r.cores.contains n ∧ c.run = .running ∧ w.length = 8 ∧ fld w 0 0 8 = op then
      let lsw := lswOf s r
      match c.queued (unitOf op) with
      | e :: _ =>
        if e.instr = w ∧ hazard lsw (e.on c) (c.queue.takeWhile fun o => o != e) w = false then runQueued s n e fun s c => f s r c
        else if mayIssue c w op then enqueue s n w
        else done s
      | [] =>
        if mayIssue c w op = false then done s
        else if hazard lsw c c.queue w then enqueue s n w
        else f s r c
    else done s

end Sys2Proof.Machine
end

