-- ==== Sys2Proof/Machine/CorePass.lean ====
section
/-!
DEFINITION. CorePass.lean: PASS (06 R164-R166; 04 R94-R109; 05 R124-R130).
-/
namespace Sys2Proof.Machine

/-- K0 and K against the stored tensor, and the alignment of K0 (04 R100, 06 R165). `n`: ROWS or COLS. -/
def extentOk (o : Slot) (n k0 k : Nat) : Bool :=
  if o.layout = 1 then
    k0 % blockLen o == 0 && (if o.axis = 1 then decide (n ≤ o.tCols) else decide (k0 + k ≤ o.tCols))
  else
    decide ((k0 + k) * fmtBits o.fmt ≤ o.elemStride * 8) &&
      (o.layout == 2 || (k0 % 32 == 0 && decide (k0 + k ≤ 64 * o.l1Stride)))

/-- What a slot's codes break where an instruction issues: a reserved code reaches it, or its layout does not allow its format (02 R33; 06
R185). -/
def slotReason (o : Slot) : Option Nat :=
  if 5 ≤ o.fmt ∨ o.layout = 3 then some reasonReserved else if !fmtLayoutOk o.fmt o.layout then some reasonFieldRange else none

/-- The formats may be paired: B1 only with B1 (04 R97). -/
def pairOk (a b : Slot) : Bool := (a.fmt == 4) == (b.fmt == 4)

/-- The scale-apply period of code PERIOD (06 R164). -/
def periodCode (p : Nat) : Nat := [32, 8, 4].getD p 0

/-- The excluded lines below `n` of a 32-byte mask (04 R102). -/
def maskLines (c : Core) (o n : Nat) : List Nat :=
  (List.range n).filter fun i => (spadByte c (o + i / 8)).getLsbD (i % 8)

/-- The row and column masks of a pass (DEDUCED, log 45). A mask on a granule with an uncorrectable error gives its stored bits and sets
no POISON: 04 R116 and 10 R282 name no outcome for masks (DESIGN CHOICE, log 101). -/
def passMasks (c : Core) (w : IWord) (p : PassArgs) : List Nat × List Nat :=
  match p.masks with
  | none => ([], [])
  | some o =>
    (if fld w 0 20 1 = 1 then maskLines c o p.rows else [], if fld w 0 21 1 = 1 then maskLines c (o + 32) p.cols else [])

/-- The first rule of 04 R99 or 06 R165 that the pass breaks before it reads the scratchpad, by reason (DEDUCED, log 42). -/
def passReason (w : IWord) (p : PassArgs) : Option Nat :=
  if fld w 0 18 2 = 3 then some reasonReserved
  else if p.rows = 0 ∨ 256 < p.rows ∨ p.cols = 0 ∨ 256 < p.cols ∨ p.k = 0 ∨ 65536 < p.k then some reasonFieldRange
  else if let some e := (slotReason p.a).or (slotReason p.b) then some e
  else if !pairOk p.a p.b then some reasonFormatPair
  else if periodOf p.a p.b < periodCode (fld w 0 18 2) then some reasonPeriod
  else if (p.a.axis = 1 && p.a.layout ≠ 1) || (p.b.axis = 1 && p.b.layout ≠ 1) then some reasonAxis
  else if !extentOk p.a p.rows p.k0 p.k || !extentOk p.b p.cols p.k0 p.k then some reasonFieldRange
  else none

/-- The limits of accumulation groups (04 R105) and of undrained tiles (06 R166). -/
def groupOk (c : Core) (p : PassArgs) (rm cm : List Nat) : Bool :=
  (match c.group with
    | some g => p.cont && g.rows == p.rows && g.cols == p.cols && g.rowMask == rm && g.colMask == cm &&
        g.fmtRow == p.a.fmt && g.fmtCol == p.b.fmt && decide (g.passes < 64)
    | none => !p.cont) &&
    (p.hold || !(c.tiles.any fun t => t.drain.isNone))

/-- The values of a chain-in frame, row by row (05 R128); none where an entry's high bits do not repeat bit 39. -/
def chainValues (bs : List Byte) (rows cols : Nat) : Option (List (List Int)) :=
  let v := fun i j => leNat ((bs.drop (32 + 8 * (i * cols + j))).take 8)
  let ok := (List.range rows).all fun i => (List.range cols).all fun j =>
    v i j = unsigned 64 (signed 40 (v i j))
  if ok then some ((List.range rows).map fun i => (List.range cols).map fun j => signed 40 (v i j)) else none

/-- A chain-in frame's values, or the reason of its fault (05 R128, R130, R143; 06 R165). A frame that breaks both a check of its format
and the continuity of its index faults with CHAIN_FORMAT, and the limits of groups come before either (DEDUCED, log 42). SEEN other than 0
is a broken format; OVF and NAN are ignored (DESIGN CHOICE, log 105). -/
def chainIn (c : Core) (w : IWord) (p : PassArgs) (o : Nat) : Except Nat (List (List Int)) :=
  match hdrOf (spadBytes c o 32) with
  | none => .error reasonChainFormat
  | some h =>
    if h.kind ≠ 5 ∨ h.chainId ≠ fld w 6 0 32 ∨ h.a ≠ p.rows ∨ h.b ≠ p.cols ∨ h.seen ≠ 0 then .error reasonChainFormat
    else match chainValues (spadBytes c o (32 + 8 * p.rows * p.cols)) p.rows p.cols with
      | none => .error reasonChainFormat
      | some v => if h.next = p.gbase then .ok v else .error reasonChainGap

/-- The group a clearing pass starts. -/
def startGroup (p : PassArgs) (rm cm : List Nat) (rl cl : List Nat) (chain : Option (List (List Int))) (bad : Bool) :
    Group :=
  let (cells, ckCol, ckRow, corner) := freshCells p.rows p.cols chain
  { rows := p.rows, cols := p.cols, rowMask := rm, colMask := cm, fmtRow := p.a.fmt, fmtCol := p.b.fmt, passes := 0,
    gbase := p.gbase, total := 0, rowL := rl, colL := cl, cells := cells, ckCol := ckCol, ckRow := ckRow,
    corner := corner, poison := bad, own := bad, recs := [] }

/-- The operand rows of one side of a pass: the values, and whether any row set POISON. -/
def sideRows (c : Core) (o : Slot) (mask l2 : List Nat) (n k0 k : Nat) : List OpRow :=
  (List.range n).map fun i => operandRow c o (mask.contains i) (l2.getD i 0) i k0 k

/-- Level-two codes on bad granules of rows that are read (04 R116). -/
def badL2 (c : Core) (o : Slot) (mask : List Nat) (n : Nat) : Bool :=
  (List.range n).any fun i => !mask.contains i && (slotL2 c o i).2

/-- The group after a pass has accumulated in every cell (04 R94, R105, R109): `g` as earlier passes left it, if any. `c` is the core as
the feeder reads it. -/
def passGroup (c : Core) (g : Option Group) (p : PassArgs) (w : IWord) (rm cm : List Nat) (chain : Option (List (List Int)))
    (chainBad : Bool) : Group :=
  let g := match g with
    | some g => g
    | none =>
      let bad := chainBad || badL2 c p.a rm p.rows || badL2 c p.b cm p.cols
      startGroup p rm cm ((List.range p.rows).map fun i => (slotL2 c p.a i).1)
        ((List.range p.cols).map fun i => (slotL2 c p.b i).1) chain bad
  let xs := sideRows c p.a rm g.rowL p.rows p.k0 p.k
  let ys := sideRows c p.b cm g.colL p.cols p.k0 p.k
  let h := addPass g (xs.map fun r => r.vals) (ys.map fun r => r.vals) p.gbase p.k (!p.hold)
    ((xs ++ ys).any fun r => r.poison) ((xs ++ ys).any fun r => r.own)
  { h with recs := g.recs ++ [⟨p, w⟩] }

/-- The bytes of a chain-in frame lie on a bad granule: its values enter as they are read, and POISON is set (DESIGN CHOICE, log 101:
04 R116 and 10 R282 speak of elements, codes and rows). -/
def chainBad (c : Core) (p : PassArgs) : Bool :=
  match p.chain with
  | some o => badIn c [(o, 32 + 8 * p.rows * p.cols)]
  | none => false

/-- A recompute streams the passes of a group again from its first (04 R112). `v` is the core as the feeder reads it now. -/
def regroup (v : Core) (g : Group) : Group :=
  let again := fun (acc : Option Group) (r : PassRec) =>
    let chain := match r.args.chain with
      | some o => (match chainIn v r.instr r.args o with | .ok vs => some vs | .error _ => none)
      | none => none
    some (passGroup v acc r.args r.instr g.rowMask g.colMask chain (chainBad v r.args))
  (g.recs.foldl again none).getD g

/-- The core after the pass: the tile stays live, or it is delivered (04 R105; 06 R166). -/
def passCore (p : PassArgs) (g : Group) (w : IWord) (c : Core) : Core :=
  if p.hold then { c with group := some g }
  else { c with
    group := none
    tileSeq := c.tileSeq + 1
    tiles := c.tiles ++ [{ seq := c.tileSeq, grp := g, phase := .completing, drain := none, retry := false,
                           mm := none, skipped := false, pc := c.pc, instr := w }] }

/-- The pass executes: its reads take effect, and the cells accumulate. -/
def runPass (n : Nat) (w : IWord) (p : PassArgs) (found : List Finding) (s : State) : Out :=
  let (s, v) := s.scan n (passRanges p) found
  let (rm, cm) := passMasks v w p
  if !groupOk v p rm cm then pfault s n w reasonGroup
  else match p.chain with
    | none => retire s n (passCore p (passGroup v v.group p w rm cm none false) w)
    | some o =>
      match chainIn v w p o with
      | .error r => pfaultAt s n w r o .scratchpad
      | .ok vs => retire s n (passCore p (passGroup v v.group p w rm cm (some vs) (chainBad v p)) w)

/-- PASS (06 R164). A slot that no STREAM has loaded faults with FIELD_RANGE, as a drain's does (DESIGN CHOICE, log 123). -/
def execPass (n : Nat) (w : IWord) (found : List Finding) (s : State) : Out :=
  issue s n w 0x20 fun s _ c =>
    match Sparse.find c.slots (fld w 0 8 4), Sparse.find c.slots (fld w 0 12 4) with
    | some a, some b =>
      let p := passArgs c w a b
      match passReason w p with
      | some r => pfault s n w r
      | none =>
        if (fld w 0 20 1 = 1 ∨ fld w 0 21 1 = 1) ∧ p.masks.isNone = true then
          pfaultAt s n w reasonAddress (fld w 4 0 23 + getX c (fld w 0 28 4)) .scratchpad
        else if fld w 0 22 1 = 1 ∧ p.chain.isNone = true then
          pfaultAt s n w reasonAddress (fld w 5 0 23 + getX c (fld w 0 28 4)) .scratchpad
        else if !fits (passRanges p) then pfault s n w reasonFieldRange
        else runPass n w p found s
    | _, _ => pfault s n w reasonFieldRange

end Sys2Proof.Machine
end

