-- ==== Sys2Proof/Machine/CoreDrain.lean ====
section
/-!
DEFINITION. CoreDrain.lean: DRAIN (06 R166-R169) and the events of a delivered tile: its completion, its comparison, the
leaving of its slot (04 R96, R106-R117).
-/
namespace Sys2Proof.Machine

/-! ## DRAIN -/

/-- The calibration record of a tensor (03 R91). -/
def Bundle.cal (b : Bundle) (tensor : Nat) : Option CalRec := b.cals.find? fun k => k.tensor == tensor

/-- The tensor is marked adaptive, in a generation job (03 R73). -/
def Bundle.adapts (b : Bundle) (tensor : Nat) : Bool :=
  b.kind == 1 && match b.cal tensor with | some k => k.adaptive | none => false

/-- The rows of a table adapt: those of an adaptive tensor in the standard layout (03 R73, R77, R78). -/
def Bundle.tableAdapts (b : Bundle) (t : ReqTable) : Bool := t.layout == 0 && b.adapts t.tensor

/-- The key of a (sequence, tensor) pair. -/
def pairKey (entry adaptIndex : Nat) : Nat := entry * 65536 + adaptIndex

/-- The address of the record of entry `n` and adaptive tensor `t` of job `r` (03 R89): the region lies in the job's private board memory
(07 R194), at the offset that the bundle declares (DESIGN CHOICE, log 118). -/
def scaleAddr (s : State) (r : Run) (b : Bundle) (n t : Nat) : Nat :=
  r.privBase + b.view.scaleBase + 16 * (n % s.entriesPer * b.res.adaptiveT + t)

/-- The 16 bytes of a scale record (03 R89). -/
def ScalePair.bytes (q : ScalePair) : List Byte :=
  leBytes 4 (q.l + 65536 * b2n q.sat) ++ leBytes 4 q.step ++ leBytes 4 q.total ++ leBytes 4 q.adapts

/-- The predicted level-two scale of a row (03 R73). -/
def predicted (r : Run) (b : Bundle) (t : ReqTable) (entry : Nat) : Nat :=
  match b.cal t.tensor with
  | none => l2One
  | some k =>
    if t.layout = 2 then l2One
    else if b.tableAdapts t then
      match Sparse.find r.pairs (pairKey entry k.adaptIndex) with | some q => q.l | none => k.calL
    else k.calL

/-- The row map at a scratchpad offset (06 R168). One on a granule with an uncorrectable error gives its stored bits and no fault (DESIGN
CHOICE, log 101). -/
def rowKeys (c : Core) (o rows : Nat) : List RowKey :=
  (List.range rows).map fun i => ⟨bits (leNat (spadBytes c (o + 8 * i) 4)) 0 12, leNat (spadBytes c (o + 8 * i + 4) 4)⟩

/-- A DRAIN of the requantise route, its checks passed up to its reads: the ranges it reads and writes. -/
structure RequantArgs where
  out : Slot
  table : ReqTable
  ch0 : Nat
  deriving DecidableEq, Repr

/-- What a requantise drain names (06 R167); none where it faults with FIELD_RANGE before it loads its entries. -/
def requantArgs (r : Run) (b : Bundle) (c : Core) (w : IWord) : Option RequantArgs :=
  match Sparse.find c.slots (fld w 0 24 4), Sparse.find c.tables (fld w 0 28 3) with
  | some o, some a =>
    match b.tables.find? fun t => t.addr == a with
    | none => none
    | some t =>
      let ch0 := fld w 2 0 16 + getX c (fld w 0 16 4)
      let eps := fld w 5 0 32
      if ch0 % 32 ≠ 0 ∨ t.chans.length ≤ ch0 then none
      else if fld w 0 11 2 ≠ 0 ∧ (!isFinite32 eps || neg32 eps || isZero32 eps) = true then none
      else if r.cores = [] then none
      else some ⟨o, t, ch0⟩
  | _, _ => none

/-- The row factors of a ROWSTAT drain, from one record per tile row (06 R169); none where ROW_STAT faults. -/
def rowFactors (c : Core) (w : IWord) (g : Group) : Option (List B32) :=
  (List.range g.rows).mapM fun i => rowFactor (fld w 0 11 2 = 2) (recOf (spadBytes c (fld w 4 0 23 + 16 * i) 16)) (fld w 5 0 32)

/-- The channel that a table entry gives (03 R64): gain, bias and activation vary between channels (R65). -/
def chanOf (bs : List Byte) : Chan :=
  ⟨signed 24 (bits (dwordAt bs 0) 0 24), signed 32 (dwordAt bs 1), bits (dwordAt bs 2) 0 5⟩

/-- A table with the fields that govern the row as an entry gives them (03 R64, R65). -/
def rowTable (t : ReqTable) (bs : List Byte) : ReqTable :=
  let d := dwordAt bs 2
  let k := bits d 10 4
  { t with
    fmt := bits d 5 3, layout := bits d 8 2, clipRatio := if k ≤ 8 then k else (Config.openClip k).val, stochastic := bit d 14,
    clipThresh := bits d 16 16, adapt := bits (dwordAt bs 0) 24 8, tensor := bits (dwordAt bs 3) 0 16 }

/-- The entries that a drain has loaded: its channels, and the table with the fields that govern the row, which every entry repeats: those
of the first one loaded (03 R65; DESIGN CHOICE, log 102). -/
structure Loaded where
  table : ReqTable
  chans : List Chan
  deriving DecidableEq, Repr

/-- The pages of the table entries that a drain reads. -/
def tablePages (addr ch0 cols : Nat) : List Nat :=
  let a := addr + 16 + 16 * ch0
  (List.range ((a + 16 * cols - 1) / pageBytes - a / pageBytes + 1)).map fun i => a / pageBytes + i

/-- A drain loads the entries of its channels from the table in the device range (03 R67): the entries, whether one is poisoned,
and the state. No entry is kept in a cache: the entries used are the same whether or not they were (DESIGN CHOICE, log 102). -/
def State.loadEntries (s : State) (t : ReqTable) (ch0 cols : Nat) (found : List Finding) : (Loaded × Bool) × State :=
  let n := min cols (t.chans.length - ch0)
  let ((bs, bad), s) := s.devRead ((t.addr + 16 + 16 * ch0) % 2 ^ 48) (16 * n) found
  ((⟨rowTable t bs, (List.range n).map fun i => chanOf ((bs.drop (16 * i)).take 16)⟩, bad), s)

/-- What a requantise drain's entries do not allow: a slot of another format or layout, a missing row map (06 R167, R168). -/
def entriesRefuse (b : Bundle) (w : IWord) (o : Slot) (t : ReqTable) : Bool :=
  o.fmt != t.fmt || o.layout != t.layout || (fld w 0 13 1 == 0 && (t.stochastic || b.adapts t.tensor))

/-- The drain attached to the oldest undrained tile, and tiles that may move to an output slot moved (06 R166; 04 R106,
R108). A recomputed tile keeps the slot it was discarded from (DESIGN CHOICE, log 17). -/
def slotsUsed (c : Core) : Nat :=
  (c.tiles.filter fun t => t.retry || t.phase == .slot || t.phase == .passed).length

/-- The shadow drains into a free output slot (04 R106, R108). -/
def drainShadow (c : Core) : Core :=
  if slotsUsed c < 2 then
    { c with tiles := mapIf (fun t => t.phase == .shadow && t.drain.isSome) (fun t => { t with phase := .slot }) c.tiles }
  else c

/-- The first tile that satisfies `p` changed by `f`. -/
def firstTile (p : Tile → Bool) (f : Tile → Tile) : List Tile → List Tile
  | [] => []
  | t :: ts => if p t then f t :: ts else t :: firstTile p f ts

/-- Attach a drain (06 R166). -/
def attach (d : DrainInfo) (c : Core) : Core :=
  drainShadow { c with tiles := firstTile (fun t => t.drain.isNone) (fun t => { t with drain := some d }) c.tiles }

/-- A table entry that a drain loads is poisoned: the job faults with class poison, for no value derived from it may be stored (04
R117; DESIGN CHOICE, log 102: 10 R282 lists no such reader). -/
def State.entryFault (s : State) (n : Nat) (w : IWord) (addr : Nat) : State :=
  (s.latch (.job (s.partOfCore n))
    { status := 0x0F03, core := some n, pc := (s.core n).pc, addr := addr, space := .device, instr := w }).setCore n
      fun c => { c with run := .stopped }

/-- The requantise route of DRAIN. -/
def drainRequant (n : Nat) (w : IWord) (found entries : List Finding) (r : Run) (c : Core) (t : Tile) (status : Nat) (s : State) :
    Out :=
  match s.bundle r.bundle with
  | none => pfault s n w reasonFieldRange
  | some b =>
    match requantArgs r b c w with
    | none => pfault s n w reasonFieldRange
    | some a =>
      let g := t.grp
      let mapped := fld w 0 13 1 = 1
      let stat := fld w 0 11 2
      let reads := (if mapped then [(fld w 3 0 23, 8 * g.rows)] else []) ++
        (if stat = 0 then [] else [(fld w 4 0 23, 16 * g.rows)])
      let writes := requantRanges a.out g.rows g.cols a.ch0
      if !fits (reads ++ writes) then pfault s n w reasonFieldRange
      else
        let (s, v) := s.scan n reads found
        let ((l, lost), s) := (s.touch (s.partOfCore n) (tablePages a.table.addr a.ch0 g.cols)).loadEntries a.table a.ch0 g.cols entries
        if stat ≠ 0 ∧ badIn v [(fld w 4 0 23, 16 * g.rows)] = true then done (s.poisonFault n w (fld w 4 0 23) true)
        else if lost then done (s.entryFault n w (a.table.addr + 16 + 16 * a.ch0))
        else if entriesRefuse b w a.out l.table then pfault s n w reasonFieldRange
        else
          let keys := rowKeys v (fld w 3 0 23) g.rows
          let rho := if stat = 0 then some none else (rowFactors v w g).map some
          match rho with
          | none => pfault s n w reasonRowStat
          | some rho =>
            let entry := fun i => if mapped then (keys.getD i ⟨0, 0⟩).entry else 0
            let stepOf := fun i =>
              if b.kind = 1 then (match Sparse.find s.seqs.entries (entry i) with | some e => e.seqStep | none => 0)
              else getX c 1
            let d : DrainInfo :=
              { route := 0, frame := false, dest := 0, status := status, out := some a.out, table := some l.table, chans := l.chans,
                ch0 := a.ch0, rowMap := if mapped then some keys else none, rho := rho, aux := 0,
                rowBase := fld w 6 0 32, gidx := 0, steps := (List.range g.rows).map stepOf,
                predL := (List.range g.rows).map fun i => predicted r b l.table (entry i), pc := c.pc, instr := w }
            retire s n (attach d)

/-- The reduce route of DRAIN (06 R167; 05 R135). -/
def drainReduce (n : Nat) (w : IWord) (c : Core) (t : Tile) (status : Nat) (s : State) : Out :=
  let first := fld w 2 0 8 + getX c (fld w 0 16 4)
  if 256 < first + t.grp.rows then pfault s n w reasonFieldRange
  else if !((List.range t.grp.rows).all fun i => (Sparse.find c.ctxs (first + i)).isSome) then pfault s n w reasonClosed
  else
    let d : DrainInfo :=
      { route := 1, frame := false, dest := first, status := status, out := none, table := none, chans := [], ch0 := 0, rowMap := none,
        rho := none, aux := 0, rowBase := 0, gidx := fld w 7 0 32, steps := [], predL := [], pc := c.pc, instr := w }
    retire s n (attach d)

/-- The raw route of DRAIN (06 R167). -/
def drainRaw (n : Nat) (w : IWord) (c : Core) (t : Tile) (status : Nat) (s : State) : Out :=
  match effOff c (fld w 2 0 23) (fld w 0 16 4) 64 with
  | none => pfaultAt s n w reasonAddress (fld w 2 0 23 + getX c (fld w 0 16 4)) .scratchpad
  | some dest =>
    let frame := fld w 0 10 1 = 1
    let d : DrainInfo :=
      { route := 2, frame := frame, dest := dest, status := status, out := none, table := none, chans := [], ch0 := 0, rowMap := none,
        rho := none, aux := fld w 4 0 23, rowBase := fld w 6 0 32, gidx := 0, steps := [], predL := [], pc := c.pc,
        instr := w }
    let ranges := drainWrites d t.grp.rows t.grp.cols
    if !fits ranges then pfault s n w reasonFieldRange
    else retire s n (attach d)

/-- DRAIN (06 R166, R167). `found`: what its reads of the scratchpad find; with the word, what the load of its table entries finds
(03 R67). -/
def execDrain (n : Nat) (w : WithFound IWord) (found : List Finding) (s : State) : Out :=
  match w with
  | ⟨w, entries⟩ =>
    issue s n w 0x30 fun s r c =>
      match c.tiles.find? fun t => t.drain.isNone with
      | none => pfault s n w reasonGroup
      | some t =>
        match effOff c (fld w 1 0 23) (fld w 0 20 4) 4 with
        | none => pfaultAt s n w reasonAddress (fld w 1 0 23 + getX c (fld w 0 20 4)) .scratchpad
        | some status =>
          match fld w 0 8 2 with
          | 0 => drainRequant n w found entries r c t status s
          | 1 => drainReduce n w c t status s
          | 2 => drainRaw n w c t status s
          | _ => pfault s n w reasonReserved

/-! ## The events of a tile -/

/-- Core `n` works for a job that has not ended: its units act. -/
def State.coreWorks (s : State) (n : Nat) : Option Run :=
  match s.run (s.partOfCore n) with
  | some r =>
    let c := (s.core n).run
    if (r.state == .running || r.state == .ending || r.state == .parking) && r.cores.contains n &&
        (c == .running || c == .atStepEnd || c == .halted) then some r else none
  | none => none

/-- The completing tile that moves next: the first streamed of those that can (04 R106, DESIGN CHOICE, log 17). -/
def nextComplete (c : Core) : Option Tile :=
  let free := !(c.tiles.any fun t => t.phase == .shadow)
  (c.tiles.filter fun t => t.phase == .completing && (t.retry || free)).foldl (fun m t =>
    match m with
    | none => some t
    | some u => if t.seq < u.seq then some t else some u) none

/-- TILE_COMPLETE: the pass is complete in every cell and its tile moves to the shadow (04 R96, R106). A recompute has streamed its
group again from the scratchpad, which still holds the bytes that it read (R112, R113): `found`, what its reads find. `upsets`: cells that
a physical upset has inverted meanwhile. -/
def execTileComplete (n : Nat) (upsets : WithFound (List Upset)) (s : State) : Out :=
  match upsets with
  | ⟨upsets, found⟩ =>
    match s.coreWorks n, nextComplete (s.core n) with
    | some _, some t =>
      let (s, v) := s.scan n (if t.retry then t.grp.ranges else []) found
      let g := upsets.foldl upset (if t.retry then regroup v t.grp else t.grp)
      done (s.setCore n fun c => drainShadow { c with
        tiles := firstTile (fun u => u.seq == t.seq)
          (fun u => { u with grp := g, phase := if u.retry then .slot else .shadow }) c.tiles })
    | _, _ => done s

/-- One checksum mismatch of core `n` in its lifetime counter (04 R114). -/
def State.countMismatch (s : State) (n : Nat) : State :=
  let l := Sparse.set 0 s.life.coreMismatch n (sat64 (Sparse.get 0 s.life.coreMismatch n + 1))
  { s with life := { s.life with coreMismatch := l } }

/-- The status word of a tile that does not leave is written when the job faults (04 R115). -/
def State.writeStatus (s : State) (n : Nat) (t : Tile) (fail : Bool) (found : List Finding) : State :=
  match t.drain with
  | some d => s.writeSpad n d.status (leBytes 4 (tileStatus t fail)) found
  | none => s

/-- The tile's job faults, and its core stops (04 R112, R117). -/
def State.tileFault (s : State) (n : Nat) (t : Tile) (status : Nat) (fail : Bool) (found : List Finding) : State :=
  let d := t.drain
  let s := s.writeStatus n t fail found
  (s.latch (.job (s.partOfCore n))
    { status := status, core := some n, pc := (d.map (·.pc)).getD t.pc, tile := tileStatus t fail,
      instr := (d.map (·.instr)).getD t.instr }).setCore n fun c => { c with run := .stopped }

/-- A tile passes its comparison, or is not compared (04 R110, R111, R117; 20 R573); writes that waited for it are made (R113). -/
def State.tilePass (s : State) (n : Nat) (t : Tile) (found : List Finding) : State :=
  let s := if t.retry && s.flt.flagFirst then s.flagCore n else s
  if t.grp.poison then
    let s := s.tileFault n t 0x0F03 false found
    if t.grp.own then s.flagCore n else s
  else (s.setCore n fun c => { c with
    tiles := firstTile (fun u => u.seq == t.seq) (fun u => { u with skipped := t.skipped, phase := .passed })
      c.tiles }).releaseWrites n found

/-- TILE_COMPARE (04 R110-R114, R117): the oldest drained tile that has not been compared. -/
def execTileCompare (n : WithFound Nat) (s : State) : Out :=
  match n with
  | ⟨n, found⟩ =>
    match s.coreWorks n, (s.core n).tiles.find? fun t => t.phase == .slot with
    | some _, some t =>
      if groupSat t.grp then done (s.tilePass n { t with skipped := true } found)
      else match compareTile t.grp with
        | none => done (s.tilePass n t found)
        | some mm =>
          let s := s.countMismatch n
          if t.retry then done ((s.tileFault n t 0x0F01 true found).flagCore n)
          else done (s.setCore n fun c => { c with
            tileSeq := c.tileSeq + 1
            tiles := firstTile (fun u => u.seq == t.seq)
              (fun u => { u with phase := .completing, retry := true, mm := some mm, seq := c.tileSeq })
              c.tiles })
    | _, _ => done s

/-- The clips of a drained row: to its pair in a generation job, to the job's total for the tensor otherwise (03 R80,
R82; DEDUCED, log 47). A transposable output counts into the totals (R78); the clips of an unscaled one count, and it never adapts
(R77). -/
def addClips (b : Bundle) (d : DrainInfo) (t : ReqTable) (r : Run) (c : Nat × Nat) : Run :=
  let toTotal := { r with clips := Sparse.set 0 r.clips t.tensor (sat32 (Sparse.get 0 r.clips t.tensor + c.2)) }
  match d.rowMap, b.cal t.tensor with
  | some m, some k =>
    if b.adapts t.tensor && t.layout != 1 then
      let add := fun (p : ScalePair) => { p with step := sat32 (p.step + c.2), total := sat32 (p.total + c.2) }
      { r with pairs := Sparse.adjust r.pairs (pairKey (m.getD c.1 ⟨0, 0⟩).entry k.adaptIndex) add }
    else toTotal
  | _, _ => toTotal

/-- The clips that a drain has counted show in the records of its pairs (03 R89). -/
def State.showClips (s : State) (p : Nat) (b : Bundle) (d : DrainInfo) (t : ReqTable) : State :=
  match s.run p, d.rowMap, b.cal t.tensor with
  | some r, some m, some k =>
    if b.adapts t.tensor && t.layout != 1 then
      (m.map (·.entry)).foldl (fun s n =>
        match Sparse.find r.pairs (pairKey n k.adaptIndex) with
        | some q => s.poke (scaleAddr s r b n k.adaptIndex + 4) ((q.bytes.drop 4).take 8)
        | none => s) s
    else s
  | _, _, _ => s

/-- What a drain's route produces (04 R107). -/
def drainOut (b : Option Bundle) (t : Tile) (d : DrainInfo) : DrainOut :=
  match d.route with
  | 0 =>
    match b, d.out, d.table with
    | some b, some o, some q => requantOut t.grp d q b.luts o
    | _, _, _ => {}
  | 1 => reduceOut t.grp d
  | _ => rawOut t.grp d

/-- Row by row into the contexts; the first reason that faults (05 R135, R136, R138). -/
def feedRows (c : Core) : List (Nat × List (Nat × B32 × Bool)) → Except Nat Core
  | [] => .ok c
  | (k, es) :: t =>
    match Sparse.find c.ctxs k with
    | none => .error reasonClosed
    | some x =>
      match feedAll x es with
      | .error r => .error r
      | .ok x => feedRows { c with ctxs := Sparse.put c.ctxs k x } t

/-- SLOT_LEAVE: the oldest tile, passed, leaves its slot for the scratchpad (04 R108, R115, R126; 03 R80), unless its writes are held
back (R113). `found`: what the reads of its narrow writes find (10 R285); `pairs`: what those of its scale records find. -/
def execSlotLeave (n : WithFound (WithFound Nat)) (s : State) : Out :=
  match n with
  | ⟨⟨n, found⟩, pairs⟩ =>
    match s.coreWorks n, (s.core n).tiles with
    | some r, t :: rest =>
      match t.phase, t.drain with
      | .passed, some d =>
        let b := s.bundle r.bundle
        let o := drainOut b t d
        if heldBack (s.core n) ((d.status, 4) :: o.bytes) then done s
        else match feedRows (s.core n) o.feeds with
        | .error e => done (s.programFault n e 0 0 .none d.instr d.pc)
        | .ok c =>
          let s := s.setCore n fun _ => { c with tiles := rest }
          let s := (s.writeFields n o.fields found).writeSpad n d.status (leBytes 4 (tileStatus t false)) found
          let s := s.setCore n drainShadow
          let s := s.setRun (s.partOfCore n) fun r =>
            let r := if groupSat t.grp then { r with satCount := r.satCount + 1 } else r
            match b, d.table with
            | some b, some q => o.clips.foldl (addClips b d q) r
            | _, _ => r
          done (match b, d.table with
            | some b, some q => s.finding pairs fun s => s.showClips (s.partOfCore n) b d q
            | _, _ => s)
      | _, _ => done s
    | _, _ => done s

end Sys2Proof.Machine
end

