-- ==== Sys2Proof/Machine/Link.lean ====
section
/-!
DEFINITION. Link.lean: sending on the Wyrdlink: routes, credits, flits, requests and their failure (17 R499-R519).
-/
namespace Sys2Proof.Machine

/-! ## Messages and flits as bytes (17 R499, R502, R503) -/

/-- The bytes of payload that follow a header: none for a READ, an acknowledgement, or a response whose RSTATUS is not OK (DESIGN CHOICE,
log 12). -/
def payloadLen (cls op rstatus len : Nat) : Nat :=
  match cls with
  | 0 => len
  | 1 => if rstatus ≠ 0 then 0 else match op with | 0 => len | 1 => 0 | _ => 8
  | 3 => 8
  | _ => if op = 1 then len else 0

/-- Bytes completed with zeros to a multiple of `n`. -/
def padTo (n : Nat) (bs : List Byte) : List Byte := bs ++ List.replicate (ceilDiv bs.length n * n - bs.length) 0

/-- A message: its 16-byte header, and its payload padded to a multiple of 16 bytes (17 R502). -/
def Msg.bytes (m : Msg) : List Byte :=
  leBytes 4 (m.cls + 2 ^ 3 * m.op + 2 ^ 8 * b2n m.poison + 2 ^ 16 * m.tag) ++ leBytes 4 (m.src + 2 ^ 16 * m.dst) ++
    leBytes 8 (m.addr + 2 ^ 48 * (m.len - 1) + 2 ^ 60 * m.rstatus) ++ padTo 16 m.payload

/-- The message that a byte string begins with (17 R502). -/
def msgOf (bs : List Byte) : Msg :=
  let d := dwordAt bs 0
  let cls := bits d 0 3
  let op := bits d 3 5
  let len := bits (qwordAt bs 2) 48 12 + 1
  let rstatus := bits (qwordAt bs 2) 60 4
  { cls := cls, op := op, poison := bit d 8, tag := bits d 16 16, src := bits (dwordAt bs 1) 0 16, dst := bits (dwordAt bs 1) 16 16,
    addr := bits (qwordAt bs 2) 0 48, len := len, rstatus := rstatus, payload := (bs.drop 16).take (payloadLen cls op rstatus len) }

/-- The bytes that the message takes on the wire. -/
def msgSize (bs : List Byte) : Nat := let m := msgOf bs; 16 + ceilDiv (payloadLen m.cls m.op m.rstatus m.len) 16 * 16

/-- The whole messages that a byte string holds, one behind the other, and the rest: a message that goes on, or nothing where a header of
zeros follows (DESIGN CHOICE, log 12). The number bounds the messages. -/
def parseMsgs : Nat → List Byte → List Msg × List Byte
  | 0, _ => ([], [])
  | n + 1, bs =>
    if bs.length < 16 ∨ (bs.take 16).all (fun b => b == 0) then ([], [])
    else if bs.length < msgSize bs then ([], bs)
    else
      let (l, r) := parseMsgs n (bs.drop (msgSize bs))
      (msgOf bs :: l, r)

/-- The messages that a flit completes, after the bytes `part` of one that went on, and the bytes of one that goes on (17 R499). -/
def Flit.messages (f : Flit) (part : List Byte) : List Msg × List Byte :=
  let cut := if f.first = 0xFF then 240 else 16 * f.first
  let buf := part ++ f.payload.take cut
  let whole := !part.isEmpty && decide (msgSize buf ≤ buf.length)
  let head := if whole then [msgOf buf] else []
  if f.first = 0xFF then (head, if whole || part.isEmpty then [] else buf)
  else
    let (l, r) := parseMsgs 15 (f.payload.drop cut)
    (head ++ l, r)

/-- The 252 bytes that a flit's CRC covers. -/
def Flit.body (f : Flit) : List Byte :=
  leBytes 4 (f.seq + 2 ^ 12 * f.ack + 2 ^ 24 * b2n f.nak + 2 ^ 25 * f.cls + 2 ^ 28 * b2n f.idle) ++ leBytes 4 f.first ++
    f.payload.take 240 ++ List.replicate (240 - f.payload.length) 0 ++ leBytes 4 (f.crClass + 2 ^ 4 * f.crUnits)

/-- The 256 bytes of a flit (17 R499). -/
def Flit.bytes (f : Flit) : List Byte := Flit.body f ++ leBytes 4 (crc32c (Flit.body f))

/-- A flit as it is received; none where its CRC fails. -/
def flitOf (bs : List Byte) : Option Flit :=
  let d := dwordAt bs 0
  let c := dwordAt bs 62
  if bs.length = 256 ∧ crc32c (bs.take 252) = dwordAt bs 63 then
    some { seq := bits d 0 12, ack := bits d 12 12, nak := bit d 24, cls := bits d 25 3, idle := bit d 28, first := bits (dwordAt bs 1) 0 8,
           payload := (bs.drop 8).take 240, crClass := bits c 0 3, crUnits := bits c 4 12 }
  else none

/-- Credit units of a message: its header and its payload, in 16-byte units (17 R501, R502). -/
def Msg.units (m : Msg) : Nat := 1 + ceilDiv m.payload.length 16

/-- Flits of a message, each of 15 units (17 R499; DESIGN CHOICE, log 12: a message begins a flit of its own). -/
def Msg.flits (m : Msg) : Nat := ceilDiv (Msg.units m) 15

/-- Receive buffers per class, in 16-byte units: the credits of a trained port (17 R501). -/
def classCredits : List Nat := [64, 4096, 4096, 256, 2048, 2048]

/-- Port `p`. -/
def State.port (s : State) (p : Nat) : Port := s.wlk.ports.getD p {}

/-- Change port `p`. -/
def State.setPort (s : State) (p : Nat) (f : Port → Port) : State :=
  { s with wlk := { s.wlk with ports := modifyAt s.wlk.ports p f } }

/-- The port on which a message for `dst` leaves (17 R504). -/
def State.route (s : State) (dst : Nat) : Option Nat :=
  let r := Sparse.get {} s.wlk.routes dst
  if r.valid ∧ (s.port r.port).state = .up then some r.port else none

/-- The credits that the next flit of a port returns: those of one class, the lowest first (17 R499; DESIGN CHOICE, log 12). -/
def Port.returns (t : Port) : Nat × Nat :=
  match t.owed.zipIdx.find? fun e => decide (0 < e.1) with
  | some e => (e.2, min e.1 4095)
  | none => (0, 0)

/-- The port once its next flit has returned them. -/
def Port.returned (t : Port) : Port := { t with owed := modifyAt t.owed t.returns.1 fun x => x - t.returns.2 }

/-- The flit that carries 240 bytes of a message, as the port sends it next (17 R499). -/
def Port.msgFlit (t : Port) (m : Msg) (part : Nat) : Flit :=
  { seq := t.txSeq, ack := t.ackOut, nak := t.nakOut, cls := m.cls, idle := false, first := if part = 0 then 0 else 0xFF,
    payload := ((Msg.bytes m).drop (240 * part)).take 240, crClass := t.returns.1, crUnits := t.returns.2 }

/-- An idle flit as the port sends it next (17 R499; DESIGN CHOICE, log 12: its unused fields). -/
def Port.idleFlit (t : Port) : Flit :=
  { seq := 0, ack := t.ackOut, nak := t.nakOut, cls := 0, idle := true, first := 0xFF, payload := [], crClass := t.returns.1,
    crUnits := t.returns.2 }

/-- A flit leaves on port `p`: it has carried the port's acknowledgement (17 R499, R500). -/
def State.putFlit (s : State) (p : Nat) (f : Flit) : State :=
  { s with
    wlOut := s.wlOut ++ [(p, Flit.bytes f)]
    wlk := { s.wlk with ports := modifyAt s.wlk.ports p fun t => { t with nakOut := false, ackDue := false } } }

/-- The classes in the order in which a port serves them: MGMT, RSP, and the others in turns (17 R501). -/
def Port.classOrder (t : Port) : List Nat := 0 :: 1 :: (List.range 4).map fun i => 2 + (t.lastClass + 3 + i) % 4

/-- The sources of a class in the order of their turns: ports 0 to 3, the hub, and what a lost port left (17 R501). -/
def Port.sourceOrder (t : Port) (k : Nat) : List Nat := (List.range 6).map fun i => (t.lastSrc.getD k 4 + 1 + i) % 6

/-- The message of class `k` that the port begins next, with its source: the oldest of the source whose turn it is, where the class's
credits cover the whole of it (17 R501). -/
def Port.begins (t : Port) (k : Nat) : Option (Nat × Msg) :=
  match (t.sourceOrder k).findSome? fun q => t.outq.find? fun e => e.1 == q && e.2.cls == k with
  | some e => if Msg.units e.2 ≤ t.credits.getD k 0 then some e else none
  | none => none

/-- What the next flit of class `k` carries: the message that goes on, or one that begins, with its source; and which 240 bytes. -/
def Port.nextOf (t : Port) (k : Nat) : Option (Option Nat × Sending) :=
  match t.sending.getD k none with
  | some x => some (none, x)
  | none => (t.begins k).map fun e => (some e.1, ⟨e.2, 0⟩)

/-- What the next flit of a port carries, where the replay buffer has room: classes take turns flit by flit (17 R500, R501). -/
def Port.next (t : Port) : Option (Option Nat × Sending) :=
  if 1024 ≤ t.replay.length then none else t.classOrder.findSome? t.nextOf

/-- The port once that flit has left: it is numbered and kept for replay, its class has had its turn, and a message that began took its
credits (17 R500, R501). -/
def Port.sent (t : Port) (x : Option Nat × Sending) : Port :=
  let m := x.2.msg
  let t := match x.1 with
    | some q => { t with
        outq := t.outq.erase (q, m)
        lastSrc := modifyAt t.lastSrc m.cls fun _ => q
        credits := modifyAt t.credits m.cls fun c => c - Msg.units m }
    | none => t
  { t.returned with
    replay := t.replay ++ [⟨t.msgFlit m x.2.part, 1⟩]
    sending := modifyAt t.sending m.cls fun _ => if x.2.part + 1 < Msg.flits m then some ⟨m, x.2.part + 1⟩ else none
    lastClass := if 2 ≤ m.cls then m.cls else t.lastClass
    txSeq := (t.txSeq + 1) % 4096
    txFlits := sat64 (t.txFlits + 1) }

/-- A message that came on port `p` leaves its receive buffer: its credits are owed (17 R501). Messages of the hub hold none. -/
def State.owe (s : State) (p : Nat) (m : Msg) : State :=
  s.setPort p fun t => { t with owed := modifyAt t.owed m.cls fun x => x + Msg.units m }

/-- One numbered flit leaves on port `p` (17 R499-R501). One of a class other than MGMT is activity (19 R553). -/
def State.sendFlit (s : State) (p : Nat) (x : Option Nat × Sending) : State :=
  let pwr := if x.2.msg.cls = 0 then s.pwr else s.activity.pwr
  let s := match x.1 with | some q => s.owe q x.2.msg | none => s
  let f := (s.port p).msgFlit x.2.msg x.2.part
  { (s.setPort p fun t => t.sent x).putFlit p f with pwr := pwr }

/-- Up to `n` flits leave while the port is UP and credits last. -/
def pump : Nat → Nat → State → State
  | 0, _, s => s
  | n + 1, p, s =>
    if (s.port p).state = .up then
      match (s.port p).next with
      | some x => pump n p (s.sendFlit p x)
      | none => s
    else s

/-- Flits that the messages of a port still take. -/
def Port.backlog (t : Port) : Nat :=
  t.outq.foldl (fun n e => n + Msg.flits e.2) 0 +
    t.sending.foldl (fun n x => match x with | some x => n + Msg.flits x.msg | none => n) 0

/-- What port `p` may send leaves. -/
def State.send (s : State) (p : Nat) : State := pump (s.port p).backlog p s

/-- An idle flit leaves on port `p`. -/
def State.sendIdle (s : State) (p : Nat) : State :=
  (s.putFlit p (s.port p).idleFlit).setPort p Port.returned

/-- Up to `n` idle flits leave, while a discarded or an accepted flit is unanswered or credits are owed. -/
def flush : Nat → Nat → State → State
  | 0, _, s => s
  | n + 1, p, s =>
    let t := s.port p
    if t.state = .up ∧ (t.nakOut ∨ t.ackDue ∨ t.owed.any (0 < ·)) then flush n p (s.sendIdle p) else s

/-- What port `p` owes its neighbour that no numbered flit has carried leaves in idle flits (17 R499-R501; DESIGN CHOICE, log 12). -/
def State.flush (s : State) (p : Nat) : State := Machine.flush 16 p s

/-- The replay buffer of port `p` is sent again, with the acknowledgement as it stands (17 R500). -/
def State.replayFlits (s : State) (p : Nat) : State :=
  let l := (s.port p).replay
  let n := l.length
  let s := s.setPort p fun t => { t with retry := sat64 (t.retry + n), txFlits := sat64 (t.txFlits + n) }
  let s := { s with life := { s.life with portReplays := bump s.life.portReplays p n } }
  l.foldl (fun s f => s.putFlit p { f.flit with ack := (s.port p).ackOut, nak := (s.port p).nakOut }) s

/-- A message from a source queued on port `p`. -/
def State.enqueueFrom (s : State) (src p : Nat) (m : Msg) : State :=
  (s.setPort p fun t => { t with outq := t.outq ++ [(src, m)] }).send p

/-- A message of this module queued on port `p`. -/
def State.enqueue (s : State) (p : Nat) (m : Msg) : State := s.enqueueFrom 4 p m

/-- One message counted as undeliverable at this module (17 R505). -/
def State.undeliverable (s : State) : State :=
  { s with wlk := { s.wlk with undeliv := sat64 (s.wlk.undeliv + 1) } }.wlkEvt 11

/-- A response, or a notice, for module `dst`: to this module's own inbox, on its route, or dropped (17 R504, R505). -/
def State.respond (s : State) (m : Msg) : State :=
  if m.dst = s.gen.moduleId then { s with wlk := { s.wlk with inbox := s.wlk.inbox ++ [(4, m)] } }
  else
    match s.route m.dst with
    | some p => s.enqueue p m
    | none => s.undeliverable

/-- The response to `m`: operation `op` of class RSP, with its tag. -/
def Msg.answer (s : State) (m : Msg) (op rstatus : Nat) (poison : Bool) (addr len : Nat) (payload : List Byte) : Msg :=
  { cls := 1, op := op, poison := poison, tag := m.tag, src := s.gen.moduleId, dst := m.src, addr := addr, len := len,
    rstatus := rstatus, payload := payload }

/-- The response operation that answers a request (17 R503). -/
def Msg.answerOp (m : Msg) : Nat := if m.cls = 3 then 2 else if m.op = 0 then 0 else 1

/-- A response without data: REFUSED, UNDELIVERABLE or PENDING (17 R502). -/
def State.answerStatus (s : State) (m : Msg) (rstatus : Nat) : State :=
  s.respond (Msg.answer s m (Msg.answerOp m) rstatus false m.addr 0 [])

/-- Where a request of this module leaves: port 4 for itself. -/
def State.exitPort (s : State) (dst : Nat) : Option Nat := if dst = s.gen.moduleId then some 4 else s.route dst

/-- The `n` lowest free tags, where there are that many (17 R503). -/
def freeTags (s : State) (n : Nat) : Option (List Nat) :=
  let used := s.wlk.requests.map (·.tag)
  let l := ((List.range (used.length + n)).filter fun t => !used.contains t).take n
  if used.length + n ≤ 65536 then some l else none

/-- The receive space of a request's whole response, in 16-byte units (17 R501, R503). -/
def Msg.respUnits (m : Msg) : Nat :=
  if m.cls = 3 then 2 else if m.op = 0 then ceilDiv m.len 256 + ceilDiv m.len 16 else 1

/-- The receive path of port `p` has space for the whole response of a request (17 R501). -/
def State.respFits (s : State) (p : Nat) (m : Msg) : Bool :=
  p == 4 || decide (((s.wlk.requests.filter fun r => r.sent && r.port == p).foldl (fun n r => n + Msg.respUnits r.msg) 0) + Msg.respUnits m ≤
    classCredits.getD 1 0)

/-- A request held: an earlier one for its destination is unanswered on another port, or is held itself (17 R506), or its response has no
space yet (17 R501). -/
def State.holds (s : State) (m : Msg) (port : Nat) : Bool :=
  (s.wlk.requests.any fun r => r.msg.dst == m.dst && (r.port != port || !r.sent)) || !s.respFits port m

/-- Put a request of this module on its way, or hold it (17 R506). The route exists. -/
def State.launch (s : State) (by_ : Requester) (m : Msg) (port : Nat) : State :=
  let held := s.holds m port
  let s := { s with wlk := { s.wlk with
    requests := s.wlk.requests ++ [{ tag := m.tag, port := port, by_ := by_, msg := m, since := s.time, sent := !held }] } }
  if held then s
  else if port = 4 then { s with wlk := { s.wlk with inbox := s.wlk.inbox ++ [(4, m)] } }
  else s.enqueue port m

/-- A request of this module: its class, operation, destination, address, length and payload. -/
def State.mkReq (s : State) (cls op tag dst addr len : Nat) (poison : Bool) (payload : List Byte) : Msg :=
  { cls := cls, op := op, poison := poison, tag := tag, src := s.gen.moduleId, dst := dst, addr := addr, len := len,
    rstatus := 0, payload := payload }

/-- The request with a tag. -/
def State.request (s : State) (tag : Nat) : Option Request := s.wlk.requests.find? fun r => r.tag == tag

/-! ## Signal cells (16 R490-R494, 17 R510, 18 R530) -/

/-- The value of local cell `n`. -/
def State.cell (s : State) (n : Nat) : Nat := Sparse.get 0 s.sig.cells n

/-- The comparison of the watches after an operation on cell `n` (18 R530). -/
def State.watchCell (s : State) (n : Nat) : State :=
  let v := s.cell n
  let ws := mapIf (fun (w : Watch) => w.en && w.mode && w.cell == n && decide (w.thresh ≤ v))
    (fun w => { w with hit := true }) s.evc.watches
  { s with evc := { s.evc with watches := ws } }

/-- Host SIG_WAITs that the cell's value ends (16 R490). -/
def State.hostWaits (s : State) (n : Nat) : State :=
  let v := s.cell n
  let ends := fun (w : CellWait) => w.cell == n && decide (w.threshold ≤ v)
  let met := s.sig.waits.filter ends
  let s := { s with sig := { s.sig with waits := s.sig.waits.filter (fun w => !ends w) } }
  met.foldl (fun s w => s.ok w.cmd v) s

/-- Held remote waits that the cell's value ends (17 R510). -/
def State.remoteWaits (s : State) (n : Nat) : State :=
  let v := s.cell n
  let ends := fun (w : HeldWait) => w.cell == n && decide (w.threshold ≤ v)
  let met := s.wlk.waits.filter ends
  let s := { s with wlk := { s.wlk with waits := s.wlk.waits.filter (fun w => !ends w) } }
  met.foldl (fun s w => s.respond
    { cls := 1, op := 2, poison := false, tag := w.tag, src := s.gen.moduleId, dst := w.src, addr := n, len := 8,
      rstatus := 0, payload := leBytes 8 v }) s

/-- A waiting entry's gate is cell `n` of this module (08 R219). -/
def State.gatedBy (s : State) (n : Nat) (e : Nat × SeqEntry) : Bool :=
  e.2.gated && e.2.state == .waiting && match s.run (e.1 / s.entriesPer) with
    | some r => match r.binding e.2.gateBind with
      | some b => b.module == s.gen.moduleId && b.cell == n
      | none => false
    | none => false

/-- The partitions whose waiting sequences cell `n` gates run their passes again (08 R224). -/
def State.callGates (s : State) (n : Nat) : State :=
  (s.seqs.entries.filter (s.gatedBy n)).foldl (fun s e => s.callPass (e.1 / s.entriesPer)) s

/-- A value stored in cell `n` (16 R491): the cell, its watches, the waits it ends, and the passes it calls for. -/
def State.writeCell (s : State) (n v : Nat) : State :=
  let s := { s with sig := { s.sig with cells := Sparse.set 0 s.sig.cells n (v % 2 ^ 64) } }
  (((s.watchCell n).hostWaits n).remoteWaits n).callGates n

/-- A host's value stored in cell `n`; where it is the upper half alone, the cell keeps its lower 32 bits (16 R494). -/
def State.storeCell (s : State) (n v : Nat) (upper : Bool) : State :=
  s.writeCell n (if upper then s.cell n % 2 ^ 32 + v / 2 ^ 32 * 2 ^ 32 else v)

/-- BAR2 writes are unanswered by peers, or wait for a wake (17 R513; 19 R556). -/
def State.bar2Waits (s : State) : Bool :=
  (s.wlk.requests.any fun r => match r.by_ with | .bar2Write _ _ => true | .bar2Merge _ _ _ _ _ => true | _ => false) ||
    s.mem.bar2Held.any fun h => h.bytes.isSome

/-- Cell writes of the host that waited for the acknowledgements of its remote writes are performed (17 R513). -/
def State.releaseCells (s : State) : State :=
  if s.bar2Waits then s
  else s.sig.held.foldl (fun s e => s.storeCell e.1 e.2.1 e.2.2) { s with sig := { s.sig with held := [] } }

/-! ## Requests that fail, and requests that R506 held -/

/-- One BAR2 access dropped (09 R244, 17 R509). -/
def State.bar2Drop (s : State) : State :=
  { s with mig := { s.mig with bar2Drop := sat64 (s.mig.bar2Drop + 1) } }.migEvt 12

/-- The bytes of a BAR2 read's request have arrived, or read 0xFF where it was refused or failed (17 R509); the read completes with its last
request, and counts once where it was dropped. -/
def State.bar2Part (s : State) (tag : Nat) (bs : List Byte) (poison lost : Bool) : State :=
  match s.mem.bar2.find? fun b => b.tags.any fun t => t.1 == tag with
  | none => s
  | some b =>
    let off := ((b.tags.find? fun t => t.1 == tag).map (·.2)).getD 0
    let b' := { b with
      bytes := b.bytes.take off ++ bs ++ b.bytes.drop (off + bs.length)
      poisoned := b.poisoned || poison
      dropped := b.dropped || lost
      tags := b.tags.filter fun t => t.1 != tag }
    let s := if lost && !b.dropped then s.bar2Drop else s
    if b'.tags = [] then
      let c : Completion := ⟨(b'.bytes.drop (b'.addr % 64)).take b'.len, b'.poisoned⟩
      { s with mem := { s.mem with bar2 := s.mem.bar2.erase b, completion := some c } }
    else { s with mem := { s.mem with bar2 := s.mem.bar2.map fun x => if x = b then b' else x } }

/-- The loss of a request of BAR2 write `access` has been counted. -/
def Requester.counted (access : Nat) : Requester → Requester
  | .bar2Write a c => .bar2Write a (c || a == access)
  | .bar2Merge a c k o bs => .bar2Merge a (c || a == access) k o bs
  | b => b

/-- A request of a BAR2 write was refused or failed: the access counts once (17 R509). -/
def State.bar2Lost (s : State) (access : Nat) (counted : Bool) : State :=
  if counted then s
  else
    { s with wlk := { s.wlk with requests := s.wlk.requests.map fun (r : Request) => { r with by_ := r.by_.counted access } } }.bar2Drop

/-- A job ends by link loss: class 0x0F05, with the module it names (20 R563, R572). -/
def State.linkFault (s : State) (p module : Nat) : State :=
  s.latch (.job p) { status := 0x0F05, addr := module, space := .module }

/-- What the failure of a request does to who waits for it; `status` is the reply of a host command (17 R509, R519). -/
def State.failEffects (s : State) (r : Request) (status : Nat) : State :=
  match r.by_ with
  | .coreDma n | .coreAdd n | .coreWait n => s.linkFault (s.partOfCore n) r.msg.dst
  | .hostSig c _ => s.reply c status 0
  | .gate p => s.linkFault p r.msg.dst
  | .bar2Read => s.bar2Part r.tag (List.replicate r.msg.len 0xFF) false true
  | .bar2Write a c => s.bar2Lost a c
  | .bar2Merge a c _ _ _ => s.bar2Lost a c
  | .abandoned => s

/-- A request is gone. -/
def State.dropRequest (s : State) (tag : Nat) : State :=
  { s with wlk := { s.wlk with requests := s.wlk.requests.filter fun r => r.tag != tag } }

/-- A held request may leave: every earlier one of its destination is answered or went the same way, and its response has space; one that
no route takes leaves, to fail, when every earlier one is answered (17 R501, R504, R506). -/
def State.mayLeave (s : State) (r : Request) : Bool :=
  let sent := s.wlk.requests.filter fun o => o.sent && o.msg.dst == r.msg.dst
  match s.exitPort r.msg.dst with
  | some p => (sent.all fun o => o.port == p) && s.respFits p r.msg
  | none => sent.isEmpty

/-- The oldest held request that may leave, none overtaking another for its destination; `dsts` are the destinations passed. -/
def State.nextHeld (s : State) : List Nat → List Request → Option Request
  | _, [] => none
  | dsts, r :: t =>
    if r.sent then s.nextHeld dsts t
    else if !dsts.contains r.msg.dst && s.mayLeave r then some r
    else s.nextHeld (r.msg.dst :: dsts) t

/-- Held requests leave (17 R501, R506). -/
def releaseHeld : Nat → State → State
  | 0, s => s
  | n + 1, s =>
    match s.nextHeld [] s.wlk.requests with
    | some r =>
      match s.exitPort r.msg.dst with
      | some p =>
        let s := { s with wlk := { s.wlk with
          requests := mapIf (fun o => o.tag == r.tag) (fun o => { o with sent := true, port := p, since := s.time })
            s.wlk.requests } }
        let s := if p = 4 then { s with wlk := { s.wlk with inbox := s.wlk.inbox ++ [(4, r.msg)] } }
          else s.enqueue p r.msg
        releaseHeld n s
      | none => releaseHeld n ((s.dropRequest r.tag).undeliverable.failEffects r 0x0801)
    | none => s

/-- A request is answered or has failed: its tag is free. -/
def State.endRequest (s : State) (tag : Nat) : State :=
  let s := s.dropRequest tag
  (releaseHeld s.wlk.requests.length s).releaseCells

/-- A request fails as peer lost (17 R509, R519). -/
def State.failRequest (s : State) (r : Request) : State := (s.endRequest r.tag).failEffects r 0x0802

/-- A notice's payload (17 R516). -/
def noticeBytes (type about job status : Nat) : List Byte :=
  leBytes 4 (type + about * 65536) ++ leBytes 4 (job + status * 65536) ++ leBytes 8 0

/-- A notice sent on a port to its neighbour. -/
def State.notice (s : State) (p type about : Nat) : State :=
  s.enqueue p ⟨0, 1, false, 0, s.gen.moduleId, (s.port p).peer, 0, 16, 0, noticeBytes type about 0 0⟩

/-- DEPARTING on every UP port (17 R516). -/
def State.departing (s : State) : State :=
  [0, 1, 2, 3].foldl (fun s p => if (s.port p).state = .up then s.notice p 2 s.gen.moduleId else s) s

end Sys2Proof.Machine
end

