-- ==== Sys2Proof/Machine/CoreSig.lean ====
section
/-!
DEFINITION. CoreSig.lean: the signal instructions of a core (06 R173-R175) and the completion of its waits; 17 R510, R513.
-/
namespace Sys2Proof.Machine

/-- The operations of class SIG (17 R503). -/
def sigRead : Nat := 0
def sigSet : Nat := 1
def sigAdd : Nat := 2
def sigWait : Nat := 3

/-- A signal request of this module to another: tag, port and message, or what prevents it. -/
inductive Launch where
  | ready (tag port : Nat)
  | noTag
  | noRoute
  deriving DecidableEq, Repr

/-- Whether a request can be sent to module `dst` (17 R503, R504). -/
def State.canLaunch (s : State) (dst : Nat) : Launch :=
  match s.exitPort dst with
  | none => .noRoute
  | some p => match freeTags s 1 with
    | some (t :: _) => .ready t p
    | _ => .noTag

/-- A signal request sent (17 R510). -/
def State.sendSig (s : State) (by_ : Requester) (op dst cell value tag port : Nat) : State :=
  s.launch by_ (s.mkReq 3 op tag dst cell 8 false (leBytes 8 value)) port

/-- The adds of core `n` whose earlier DMA instructions have completed, in order; a remote one waits for its answer (06
R174; 17 R513). -/
def performAdds : Nat → Nat → State → State
  | 0, _, s => s
  | k + 1, n, s =>
    match (s.core n).adds with
    | a :: t =>
      if a.dmaBefore ≠ 0 ∨ a.tag.isSome then s
      else if a.module = s.gen.moduleId then
        performAdds k n ((s.setCore n fun c => { c with adds := t }).writeCell a.cell (s.cell a.cell + a.value))
      else
        match s.canLaunch a.module with
        | .noTag => s
        | .noRoute => s.undeliverable.linkFault (s.partOfCore n) a.module
        | .ready tag port =>
          (s.setCore n fun c => { c with adds := { a with tag := some tag } :: t }).sendSig (.coreAdd n) sigAdd a.module
            a.cell a.value tag port
    | [] => s

/-- Every add of core `n` that may take effect takes it. -/
def State.adds (s : State) (n : Nat) : State := performAdds (s.core n).adds.length n s

/-- The wait of core `n`, once every earlier signal operation has taken effect, is sent to its module where it is another one (06 R174,
R177; 17 R510). -/
def State.sendWait (s : State) (n : Nat) : State :=
  match (s.core n).wait with
  | none => s
  | some t =>
    if t.module = s.gen.moduleId ∨ t.tag.isSome ∨ (s.core n).adds ≠ [] then s
    else match s.canLaunch t.module with
      | .noTag => s
      | .noRoute => s.undeliverable.linkFault (s.partOfCore n) t.module
      | .ready tag port =>
        (s.setCore n fun c => { c with wait := some { t with tag := some tag } }).sendSig (.coreWait n) sigWait t.module t.cell
          t.threshold tag port

/-- The signal operations of core `n` that may take effect do, in program order, while its job is not stopped (06 R174, R175, R177). -/
def State.signals (s : State) (n : Nat) : State := if (s.coreWorks n).isSome then (s.adds n).sendWait n else s

/-- A signal operation of the core waits for a tag (17 R503). -/
def Core.wantsTag (c : Core) : Bool :=
  match c.adds with
  | a :: _ => a.dmaBefore == 0 && a.tag.isNone
  | [] => match c.wait with | some t => t.tag.isNone | none => false

/-- The gate reads of partition `p` that have not been sent are sent (17 R510); where no route reaches a module, the job faults with class
link loss (R519). -/
def State.sendGates (s : State) (p : Nat) : State :=
  match s.run p with
  | none => s
  | some r => r.gates.foldl (fun s g =>
      if g.tag.isSome || g.value.isSome then s
      else match s.canLaunch g.module with
        | .noTag => s
        | .noRoute => s.undeliverable.linkFault p g.module
        | .ready tag port =>
          (s.setRun p fun r => { r with gates := mapIf (fun x => x == g) (fun x => { x with tag := some tag }) r.gates }).sendSig
            (.gate p) sigRead g.module g.cell 0 tag port) s

/-- VALUE plus its register (06 R173). -/
def sigValue (c : Core) (w : IWord) : Nat := (fld w 2 0 32 + 2 ^ 32 * fld w 3 0 32 + getX c (fld w 0 12 4)) % 2 ^ 64

/-- SIG_ADD of a core (06 R173, R174). -/
def execCoreSigAdd (n : Nat) (w : IWord) (s : State) : Out :=
  issue s n w 0x71 fun s r c =>
    match r.binding (fld w 1 0 8) with
    | none => pfault s n w reasonSignal
    | some b =>
      let add : PendingAdd := ⟨b.module, b.cell, sigValue c w, c.dma.length + (c.queued 4).length, none⟩
      done ((s.setCore n fun c => advance { c with adds := c.adds ++ [add] }).signals n)

/-- SIG_WAIT of a core (06 R173, R174): a wait on another module is sent to it (17 R510). -/
def execCoreSigWait (n : Nat) (w : IWord) (s : State) : Out :=
  issue s n w 0x70 fun s r c =>
    match r.binding (fld w 1 0 8) with
    | none => pfault s n w reasonSignal
    | some b =>
      let wait : CoreWait := ⟨b.module, b.cell, sigValue c w, fld w 0 8 1 = 0, none⟩
      let s := if b.module = s.gen.moduleId then s.watchCell b.cell else s
      done ((s.setCore n fun c => advance { c with wait := some wait }).signals n)

/-- CORE_SIG_WAIT_COMPLETE: core `n` observes its local cell at or above the threshold, its earlier adds having taken effect (06 R174,
R175, R177). A wait on another module completes with its SIG_DATA; one that has not been sent is sent. -/
def execCoreSigWaitComplete (n : Nat) (s : State) : Out :=
  match s.coreWorks n, (s.core n).wait with
  | some _, some t =>
    if (s.core n).adds = [] ∧ t.module = s.gen.moduleId ∧ t.threshold ≤ s.cell t.cell then
      done (((s.watchCell t.cell).setCore n fun c => { c with wait := none }).wake 1)
    else done (s.signals n)
  | _, _ => done s

end Sys2Proof.Machine
end

