-- ==== Sys2Proof/Machine/Migrate.lean ====
section
/-!
DEFINITION. Migrate.lean: the migration engine: staging, victims, deadlines, the shadow path (09 R245-R267; 07 R202).
-/
namespace Sys2Proof.Machine

/-- A range of the schedule that is resident for the job's life (09 R258). -/
def RangeRec.resident (r : RangeRec) : Bool := r.place == 2

/-- The range records of layer `l`. -/
def Schedule.layerRanges (c : Schedule) (l : Nat) : List RangeRec :=
  match c.layers[l]? with
  | some y => (c.ranges.drop y.first).take y.n
  | none => []

/-- Page `i` of a range goes to this die (09 R258, R259). -/
def placeDie (s : State) (p : Nat) (r : RangeRec) (i : Nat) : Nat :=
  if r.place = 1 then p * s.diesPer + r.die % s.diesPer else p * s.diesPer + i % s.diesPer

/-- The pages of a range with their dies, apertures left out (17 R507). -/
def rangePages (s : State) (p : Nat) (r : RangeRec) : List (Nat × Nat) :=
  ((List.range r.pages).map fun i => (r.addr / pageBytes + i, placeDie s p r i)).filter
    fun e => (s.aperture (e.1 * pageBytes)).isNone

/-- The working set of layer `l`. -/
def layerPages (s : State) (p : Nat) (c : Schedule) (l : Nat) : List (Nat × Nat) :=
  (c.layerRanges l).flatMap (rangePages s p)

/-- The pages of the shadow copies of a bundle's ranges, placed as their ranges are (09 R258, R262; 07 R188 type 0x0A). -/
def shadowPages (s : State) (p : Nat) (b : Bundle) : List (Nat × Nat) :=
  match b.shadowBase with
  | none => []
  | some base => (b.sched.ranges.filter (·.shadow)).flatMap fun r =>
      (List.range r.shadowPages).map fun i => ((base + r.shadowAddr) / pageBytes + i, placeDie s p r i)

/-- Pages that stay for the job's life, taken from PRIV_STACKED beside the staging area: resident ranges and shadow copies (09
R247). -/
def fixedPages (s : State) (p : Nat) (b : Bundle) (shadow : Bool) : List (Nat × Nat) :=
  (b.sched.ranges.filter RangeRec.resident).flatMap (rangePages s p) ++ if shadow then shadowPages s p b else []

/-- The page is stacked-resident on a die of partition `p`, or has a copy there (09 R263). -/
def residentIn (s : State) (p page : Nat) : Bool :=
  s.mem.resident.any fun r => r.1 == page &&
    match r.2 with
    | .stacked d _ _ => s.partOfDie d == p
    | .copy (some d) _ => s.partOfDie d == p
    | .copy none _ => false

/-- A write-back of partition `p` is under way: its frame is not free yet (09 R245). -/
def writingBack (s : State) (p : Nat) : Nat :=
  (s.mem.flights.filter fun f => f.partition == p && f.dst.isNone && decide (f.page * pageBytes < kvBase)).length

/-- Frames of its staging area that the job of partition `p` has taken: staged pages, pages in flight to it, and pages that are
written back from it (09 R245, R247). -/
def stagedFrames (s : State) (p : Nat) (b : Bundle) (r : Run) : Nat :=
  let fixed := fixedPages s p b r.shadow
  r.staging.length + writingBack s p +
    (s.mem.flights.filter fun f => f.partition == p && f.dst.isSome && !(fixed.any fun e => e.1 == f.page)).length

/-- The layers whose pages are protected: the current one and the next LEAD (09 R255), wrapping under CYCLIC (R262). -/
def nextLayers (c : Schedule) (r : Run) (from_ : Nat) : List Nat :=
  let n := c.layers.length
  let base := match r.current with | some l => l | none => 0
  ((List.range (r.lead + 1)).filterMap fun i =>
    let l := base + i
    if l < n then some l else if c.cyclic && 0 < n then some (l % n) else none).drop from_

/-- A staged page is protected (09 R255). -/
def protectedPage (s : State) (p : Nat) (c : Schedule) (r : Run) (page : Nat) : Bool :=
  (nextLayers c r 0).any (fun l => (layerPages s p c l).any fun e => e.1 == page) ||
    c.ranges.any fun g => g.resident && decide (g.addr / pageBytes ≤ page ∧ page < g.addr / pageBytes + g.pages)

/-- The victim ranks first: done hints by time, then last touch, then address (09 R255). -/
def victimBefore (a b : Staged) : Bool :=
  match a.done, b.done with
  | some x, some y => decide (x < y) || (x == y && decide (a.page < b.page))
  | some _, none => true
  | none, some _ => false
  | none, none => decide (a.touch < b.touch) || (a.touch == b.touch && decide (a.page < b.page))

/-- The victim of the job's own staging area. -/
def victim (s : State) (p : Nat) (c : Schedule) (r : Run) : Option Staged :=
  (r.staging.filter fun g => !protectedPage s p c r g.page).foldl (fun m g =>
    match m with
    | none => some g
    | some v => if victimBefore g v then some g else some v) none

/-- A page in flight (09 R248). -/
def State.flying (s : State) (page : Nat) : Bool := s.mem.flights.any fun f => f.page == page

/-- Copy channels of each die (09 R254). -/
def channels : Nat := 16

/-- A copy channel of die `d` is free: each moves one page at a time (09 R254). -/
def channelFree (s : State) (d : Nat) : Bool := decide ((s.mem.flights.filter fun f => f.die == d).length < channels)

/-- A staged page leaves stacked memory: at once where its board frame or its blocks are current, by a write-back where it is
dirty (09 R249, R254). -/
def State.demote (s : State) (p : Nat) (v : Staged) : State :=
  let s := s.setRun p fun r => { r with staging := r.staging.filter fun g => !(g.page == v.page && g.die == v.die) }
  let isDirty := s.mem.resident.any fun r => r.1 == v.page && match r.2 with | .stacked _ d _ => d | _ => false
  if isDirty then { s with mem := { s.mem with flights := s.mem.flights ++ [⟨v.page, p, v.die, none⟩] } }
  else s.leaveDie v.page v.die

/-- A logical block holds data. -/
def State.holdsData (s : State) (k : Nat) : Bool := decide (zoneOff k < (s.zone (zoneOf k)).wp)

/-- The pages of flash that the staging of a flash-backed page reads: its blocks that hold data (13 R383). -/
def State.stageReads (s : State) (page : Nat) : List Nat :=
  match s.blockOf (page * pageBytes) with
  | some b => (s.pageReads b 512).filter s.holdsData
  | none => []

/-- Staging of a page begins: it is in flight to a die, or to a board frame (09 R245, R248, R254); a flash-backed one is read from its
zone blocks, with the standing of any other read (13 R383). -/
def State.fly (s : State) (p page die : Nat) (dst : Option Nat) : State :=
  let s := { s with mem := { s.mem with flights := s.mem.flights ++ [⟨page, p, die, dst⟩] } }
  if page * pageBytes < flashBase then s
  else { s with fl := { s.fl with reads := s.fl.reads ++ [{ by_ := .stage page, waiting := s.stageReads page }] } }

/-- The engine may stage a page of this owner for partition `p`: it never moves a page of another partition's job, and holds nothing
else in stacked memory (09 R246, R254). -/
def Owner.movable (p : Nat) : Owner → Bool
  | .host => true
  | .bundle _ => true
  | .filter _ => true
  | .priv q => q == p
  | .pinned _ => false
  | .evict _ => false
  | .cocoon _ => false

/-- The page may be staged to die `die` for partition `p`: a general-window page that is stacked nowhere and not in flight, or a
flash-backed page without a copy there, present or in flight (09 R245, R254, R256). -/
def stageable (s : State) (p page die : Nat) : Bool :=
  let a := page * pageBytes
  (s.aperture a).isNone &&
    if a < kvBase then
      (match s.allocOf page with | some x => x.owner.movable p | none => false) &&
        !(s.mem.resident.any fun r => r.1 == page) && !s.flying page
    else
      s.mapped a && !(s.mem.resident.any fun r => r.1 == page && match r.2 with | .copy (some d) _ => d == die | _ => false) &&
        !(s.mem.flights.any fun f => f.page == page && f.dst == some die)

/-- A stage request that finds no frame: a flash-backed page may be copied to a board frame instead (09 R245, R254; DESIGN CHOICE,
log 99). Otherwise staging waits, as the status says (R277). -/
def State.noFrame (s : State) (p page die : Nat) : State :=
  if flashBase ≤ page * pageBytes ∧ Config.boardStage page = true ∧ 1 ≤ s.boardFree ∧
      !(s.mem.resident.any fun r => r.1 == page) ∧ !s.flying page then s.fly p page die none
  else { s with mig := { s.mig with stagingWait := modifyAt s.mig.stagingWait p fun _ => true } }

/-- A stage request (09 R254-R256): into a free frame, or into the frame of a victim. The flag says that it is settled, taken up or
declined; where it is not, the requests behind it wait with it. -/
def State.stage (s : State) (p page die : Nat) : State × Bool :=
  match s.run p with
  | none => (s, true)
  | some r =>
    match s.bundle r.bundle with
    | none => (s, true)
    | some b =>
      if !stageable s p page die then (s, true)
      else if !channelFree s die then (s, false)
      else if (fixedPages s p b r.shadow).any (fun e => e.1 == page) || decide (stagedFrames s p b r < b.sched.stagePages) then
        (s.fly p page die (some die), true)
      else if 0 < writingBack s p then (s, false)
      else match victim s p b.sched r with
        | none => (s.noFrame p page die, false)
        | some v =>
          if !channelFree s v.die then (s, false)
          else
            let s := s.demote p v
            if s.flying v.page then (s, false) else (s.fly p page die (some die), true)

/-- Requests taken up in order, up to the first that waits. -/
def stageAll (p : Nat) : List (Nat × Nat) → State → State
  | [], s => s
  | e :: t, s =>
    match s.stage p e.1 e.2 with
    | (s, true) => stageAll p t s
    | (s, false) => s

/-- What the engine is to stage for the job of partition `p`: the pages that stay, the layers ahead in layer order and within a layer
in range order, then the pages of stage hints (09 R254, R262; DESIGN CHOICE, log 99 for the place of the hints). -/
def wanted (s : State) (p : Nat) (b : Bundle) (r : Run) : List (Nat × Nat) :=
  fixedPages s p b r.shadow ++
    (nextLayers b.sched r (if r.current.isSome then 1 else 0)).flatMap (layerPages s p b.sched) ++ r.hints

/-- The engine takes up what it can of the requests of partition `p` (09 R254-R256, R262). -/
def State.serve (s : State) (p : Nat) : State :=
  match s.run p with
  | none => s
  | some r =>
    match s.bundle r.bundle with
    | none => s
    | some b =>
      let s := { s with mig := { s.mig with stagingWait := modifyAt s.mig.stagingWait p fun _ => false } }
      let s := stageAll p (wanted s p b r) s
      s.setRun p fun r => { r with hints := r.hints.filter fun e => stageable s p e.1 e.2 }

/-- The page takes a place in stacked memory, or in a board frame (09 R245). -/
def State.settlePage (s : State) (page : Nat) (x : Resident) : State :=
  { s with mem := { s.mem with resident := s.mem.resident ++ [(page, x)] } }

/-- A page staged to die `d` enters the staging area of partition `p`, unless it stays for the job's life (09 R247). -/
def State.enterStaging (s : State) (p page d : Nat) : State :=
  let fixed := match s.run p with
    | some r => match s.bundle r.bundle with | some b => (fixedPages s p b r.shadow).any fun e => e.1 == page | none => false
    | none => false
  if fixed then s else s.setRun p fun r => { r with staging := r.staging ++ [⟨page, d, r.advances, none⟩] }

/-- `n` pages copied by the engine (09 R275). -/
def State.countCopied (s : State) (n : Nat) : State := { s with mig := { s.mig with copied := sat64 (s.mig.copied + n) } }

/-- The page's copy has arrived: its descriptor switches (09 R245, R248, R249). A copy in a board frame gives way to one on a die. -/
def State.land (s : State) (f : Flight) (lost : List Nat) (found : List Finding) : State :=
  let s := { s with mem := { s.mem with flights := s.mem.flights.erase f } }.countCopied 1
  let flash := decide (flashBase ≤ f.page * pageBytes)
  match f.dst with
  | none =>
    if flash then (s.copyBlocks 5 f.page lost).settlePage f.page (.copy none f.partition)
    else (s.copyPage (f.die + 1) 0 f.page found).leaveDie f.page f.die
  | some d =>
    if flash then
      let s := (s.copyBlocks (d + 1) f.page lost).dropFrame 5 f.page
      let s := { s with mem := { s.mem with resident := s.mem.resident.filter fun r =>
        !(r.1 == f.page && match r.2 with | .copy none _ => true | _ => false) } }
      (s.settlePage f.page (.copy (some d) f.partition)).enterStaging f.partition f.page d
    else ((s.copyPage 0 (d + 1) f.page found).settlePage f.page (.stacked d false f.partition)).enterStaging f.partition f.page d

/-- The reads of a staging of a flash-backed page. -/
def State.stageRead (s : State) (page : Nat) : Option FlashRead := s.fl.reads.find? fun r => r.by_ == ReadFor.stage page

/-- The dies have not delivered every page of a staging (13 R376, R383). -/
def State.stageWaits (s : State) (page : Nat) : Bool :=
  match s.stageRead page with
  | some r => r.waiting != []
  | none => false

/-- The reads of a staging end: the blocks that they lost, numbered from the page's first, and the state after, its blocks counted as read
(20 R583). -/
def State.endStaging (s : State) (page : Nat) : List Nat × State :=
  match s.stageRead page, s.blockOf (page * pageBytes) with
  | some r, some b =>
    let n := (((List.range 512).map fun i => b + i).filter s.holdsData).length
    (r.bad.map fun k => k - b, { s with fl := { s.fl with reads := s.fl.reads.erase r } }.lifeAdd 27 n)
  | _, _ => ([], s)

/-! ## Hints and marks -/

/-- The pages a hint names that lie in the job's regions (06 R176). -/
def hintPages (s : State) (p : Nat) (r : Run) (c : Core) (w : IWord) : List Nat :=
  let a := (fld w 1 0 32 + 2 ^ 32 * fld w 2 0 16 + getX c (fld w 0 12 4)) % 2 ^ 48
  let held := fun page =>
    let b := page * pageBytes
    (match s.bundle r.bundle with
      | some x => x.view.declared.any fun d => decide (d.1 / pageBytes ≤ page ∧ page * pageBytes < d.1 + d.2)
      | none => false) ||
    (match s.allocOf page with
      | some m => m.owner == .bundle r.bundle || m.owner == .priv p
      | none => false) ||
    r.grants.any fun g => g.kind == 0 && decide (g.base ≤ b ∧ b < g.base + g.count * pageBytes)
  ((List.range (fld w 3 0 16)).map fun i => a / pageBytes + i).filter held

/-- PF_HINT of kind stage (06 R176; 09 R254-R256): its pages are to be staged on the core's own die. -/
def execPfHintStage (n : Nat) (w : IWord) (s : State) : Out :=
  if fld w 0 8 2 ≠ 0 then done s
  else issue s n w 0x80 fun s r c =>
    let p := s.partOfCore n
    let fresh := ((hintPages s p r c w).map fun page => (page, n / 24)).filter fun e => !r.hints.contains e
    done (((s.setCore n advance).setRun p fun r => { r with hints := r.hints ++ fresh }).serve p)

/-- PF_HINT of kind done (06 R176; 09 R255). -/
def execPfHintDone (n : Nat) (w : IWord) (s : State) : Out :=
  if fld w 0 8 2 ≠ 1 then done s
  else issue s n w 0x80 fun s r c =>
    let p := s.partOfCore n
    let pages := hintPages s p r c w
    let s := s.setCore n advance
    done (s.setRun p fun r => { r with
      doneSeq := r.doneSeq + 1
      staging := mapIf (fun g => pages.contains g.page && g.done.isNone) (fun g => { g with done := some r.doneSeq })
        r.staging })

/-- The first mark of layer `l` in the step: its deadline and its path (09 R263-R267). -/
def State.judge (s : State) (p l : Nat) (b : Bundle) (r : Run) : State :=
  let met := (layerPages s p b.sched l).all fun e => residentIn s p e.1
  let s := s.setRun p fun r => { r with judged := l :: r.judged }
  if met then s
  else
    let s := { s with mig := { s.mig with miss := bump s.mig.miss p 1 } }.migEvt p
    if r.shadow && b.sched.lswEn && (b.sched.layerRanges l).any fun g => g.shadow then
      let s := { s with mig := { s.mig with shadow := bump s.mig.shadow p 1 } }.migEvt (4 + p)
      s.setRun p fun r => { r with shadowed := l :: r.shadowed, timing := true }
    else s

/-- The current layer after a mark: the lowest that every active core has marked (09 R262; DEDUCED, log 46). -/
def State.advanceLayer (s : State) (p : Nat) : State :=
  match s.run p with
  | none => s
  | some r =>
    let marks := r.cores.map fun k => (s.core k).mark
    if marks.all fun m => m.isSome then
      let low := marks.foldl (fun a m => match a, m with | some x, some y => some (min x y) | none, m => m | a, none => a) none
      if low = r.current then s
      else (s.setRun p fun r => { r with current := low, advances := r.advances + 1 }).serve p
    else s

/-- The layer status word (09 R266). -/
def lsw (layer : Nat) (shadow : Bool) : List Byte := leBytes 4 (layer + 65536 * b2n shadow)

/-- LAYER_MARK: PF_HINT of kind layer mark (06 R176; 09 R262-R267). LAYER plus its register is not reduced: a sum of 2^32 or more is
a mark of LAYERS or more (DEDUCED, log 41). -/
def execLayerMark (n : Nat) (w : IWord) (s : State) : Out :=
  if fld w 0 8 2 ≠ 2 then done s
  else issue s n w 0x80 fun s r c =>
    let p := s.partOfCore n
    match s.bundle r.bundle with
    | none => done s
    | some b =>
      let l := fld w 3 0 16 + getX c (fld w 0 12 4)
      let ignored := decide (b.sched.layers.length ≤ l) || match c.mark with | some m => decide (l < m) | none => false
      let s := if !ignored && !r.judged.contains l then s.judge p l b r else s
      let shadow := match s.run p with | some r => r.shadowed.contains l | none => false
      let s := s.setCore n fun c =>
        let c := if ignored then c else { c with mark := some l }
        advance (if b.sched.lswEn then spadWrite c b.sched.lsw (lsw (l % 65536) shadow) else c)
      done (if ignored then s else s.advanceLayer p)

end Sys2Proof.Machine
end

