-- ==== Sys2Proof/Machine/CoreDma.lean ====
section
/-!
DEFINITION. CoreDma.lean: the DMA instructions and their completion (06 R171, R172, R180; 10 R280-R282; 17 R507, R512).
-/
namespace Sys2Proof.Machine

/-! ## Where a job may reach (06 R172; 16 R475; 11 R305) -/

/-- A grant covers granule address `a` (16 R475; 11 R305: an index grant gives read access to the stores after the header
page and to the code mappings; a header page lies outside every grant). -/
def grantCovers (s : State) (a : Nat) (write : Bool) (g : Grant) : Bool :=
  if g.kind = 0 then
    (!write || g.write) && decide (g.base ≤ a ∧ a < g.base + g.count * pageBytes) && !s.inHeader a
  else if g.kind = 2 then
    !write && match Sparse.find s.idx.indexes g.base with
      | some x =>
        decide (x.defn.region + pageBytes ≤ a ∧ a < x.defn.region + x.defn.pagesAll * pageBytes) ||
          match s.mappingOf (a / pageBytes) with
          | some m => x.owned.any fun o => o.map == m.1
          | none => false
      | none => false
  else false

/-- The job of partition `p` may read, or write, the granule at device address `a` (06 R172). -/
def mayReach (s : State) (p : Nat) (r : Run) (a : Nat) (write : Bool) : Bool :=
  let declared := match s.bundle r.bundle with
    | some b => (b.view.declared.any fun d => decide (d.1 ≤ a ∧ a < d.1 + d.2)) ||
        b.refs.any fun w => decide (w.addr ≤ a ∧ a < w.addr + ceilDiv w.len pageBytes * pageBytes)
    | none => false
  let held := match s.allocOf (a / pageBytes) with
    | some m => decide (a < kvBase) && (m.owner == .bundle r.bundle || m.owner == .priv p || m.owner == .pinned p)
    | none => false
  let kv := decide (kvBase ≤ a ∧ a < kvEnd) && match Sparse.find s.mem.kvMap ((a - kvBase) / 65536) with
    | some (.pool q) => q == p
    | some (.evict q) => q == p
    | _ => false
  s.served a && (declared || held || kv || r.grants.any (grantCovers s a write)) &&
    !(write && (decide (flashBase ≤ a) || s.inRegion a))

/-- A zone of which the job holds a grant (16 R475). -/
def zoneGranted (r : Run) (z : Nat) : Bool :=
  r.grants.any fun g => g.kind == 1 && decide (g.base ≤ z ∧ z < g.base + g.count)

/-! ## Granules of a DMA -/

/-- One granule of a DMA: scratchpad offset and device address. -/
structure Gran where
  sp : Nat
  dev : Nat
  deriving DecidableEq, Repr

/-- The granules of a DMA, row by row, device addresses modulo 2^48. -/
def Dma.granules (d : Dma) : List Gran :=
  d.rows.flatMap fun r => (List.range d.grans).map fun i => ⟨r.sp + 64 * i, (r.dev + 64 * i) % 2 ^ 48⟩

/-- The first granule that breaks 06 R171 or R172. -/
def dmaBad (s : State) (p : Nat) (r : Run) (d : Dma) : Option Nat :=
  match d.rows.find? fun x => x.bad with
  | some x => some x.dev
  | none =>
    if d.kind = .zone then
      (d.rows.find? fun x =>
        !(zoneGranted r (zoneOf x.dev) && decide (zoneOff x.dev + d.grans / 64 ≤ zoneBlocks) &&
          s.readable x.dev (d.grans / 64))).map fun x => x.dev
    else
      let write := d.kind == .out || d.kind == .scatter
      (d.granules.find? fun g => !mayReach s p r g.dev write).map fun g => g.dev

/-! ## Remote granules (17 R507) -/

/-- A request of a DMA to a peer: module, class, address there, scratchpad offset and device address, bytes, poison. -/
structure RemoteReq where
  module : Nat
  cls : Nat
  addr : Nat
  sp : Nat
  dev : Nat
  len : Nat
  poison : Bool
  data : List Byte
  deriving DecidableEq, Repr

/-- A request of one granule, where an aperture covers it. -/
def remoteOf (s : State) (g : Gran) (poison : Bool) (data : List Byte) : Option RemoteReq :=
  (s.aperture g.dev).map fun a =>
    { module := a.module, cls := a.cls, addr := a.remoteBase + (g.dev - a.localBase), sp := g.sp, dev := g.dev, len := 64,
      poison := poison, data := data }

/-- Requests joined with their neighbours: `size` bytes at most, within one `size`-byte block (17 R503). -/
def joinReqs (size : Nat) : List RemoteReq → List RemoteReq
  | [] => []
  | r :: t =>
    match joinReqs size t with
    | n :: u =>
      if r.module = n.module ∧ r.cls = n.cls ∧ r.addr + 64 = n.addr ∧ r.sp + 64 = n.sp ∧ r.poison = n.poison ∧
          r.addr / size = n.addr / size
      then { r with len := 64 + n.len, data := r.data ++ n.data } :: u
      else r :: n :: u
    | [] => [r]

/-- The class of an aperture's requests as its WLK_APa names it: 0 MEM, 1 CHAIN, 2 MERGE; reads go as MEM (17 R503). -/
def reqClass (cls : Nat) (write : Bool) : Nat := if !write || cls = 0 then 2 else 3 + cls

/-- The DMA's requests sent, each with a tag (17 R503, R506); none where tags are short. -/
def sendReqs (n : Nat) (write : Bool) : List RemoteReq → List Nat → State → State × List (Nat × Nat × Nat)
  | r :: rs, t :: ts, s =>
    match s.exitPort r.module with
    | some p =>
      let m := s.mkReq (reqClass r.cls write) (b2n write) t r.module r.addr r.len r.poison r.data
      let (s, l) := sendReqs n write rs ts (s.launch (.coreDma n) m p)
      (s, (t, r.sp, r.dev) :: l)
    | none => (s, [])
  | _, _, s => (s, [])

/-- The rows of an outgoing DMA as granules. -/
def Dma.items (d : Dma) : List (Gran × List Byte × Bool) :=
  let rows := d.data.flatMap fun (row : List Byte) => (List.range d.grans).map fun i => (row.drop (64 * i)).take 64
  d.granules.zip (rows.zip (d.bad.flatMap id))

/-! ## Issue -/

/-- The rows of a strided DMA (06 R171). -/
def stridedRows (w : IWord) (sp dev : Nat) : List DmaRow :=
  (List.range (fld w 4 0 13)).map fun i => ⟨sp + i * fld w 6 0 23, (dev + i * fld w 7 0 32) % 2 ^ 48, false⟩

/-- The rows of a listed DMA, as the list is read; an entry on a granule with an uncorrectable error gives its stored bits (DESIGN CHOICE,
log 101): gather and scatter add their entry to DEV, DMA_ZONE takes it as a block address (06 R171). -/
def listedRows (c : Core) (w : IWord) (zone : Bool) (sp dev : Nat) : List DmaRow :=
  (List.range (fld w 4 0 13)).map fun i =>
    let e := leNat (spadBytes c (fld w 7 0 23 + 8 * i) 8)
    if zone then ⟨sp + i * fld w 6 0 23, e, false⟩
    else
      let a := (dev + e) % 2 ^ 48
      ⟨sp + i * fld w 6 0 23, a, decide (2 ^ 48 ≤ e ∨ a % 64 ≠ 0)⟩

/-- The oldest DMA of a core changed. -/
def firstDma (f : Dma → Dma) (c : Core) : Core :=
  { c with dma := match c.dma with | d :: t => f d :: t | [] => [] }

/-- The oldest DMA of core `n` begins: its remote granules are requested, its flash pages read; none where tags are short. -/
def State.startDma (s : State) (n : Nat) (d : Dma) : Option State :=
  let write := d.kind == .out || d.kind == .scatter
  let item := fun (g : Gran × List Byte × Bool) => remoteOf s g.1 g.2.2 g.2.1
  let data := if write then d.items else d.granules.map fun g => (g, [], false)
  let reqs := if d.kind = .zone then [] else joinReqs (if write then 256 else 4096) (data.filterMap item)
  let lost := reqs.find? fun r => (s.exitPort r.module).isNone
  match lost, freeTags s reqs.length with
  | some r, _ => some (s.undeliverable.linkFault (s.partOfCore n) r.module)
  | none, none => none
  | none, some ts =>
    let (s, tags) := sendReqs n write reqs ts s
    let s := if d.kind = .zone then
        let waiting := d.rows.flatMap fun r => s.pageReads r.dev (d.grans / 64)
        { s with fl := { s.fl with reads := s.fl.reads ++ [{ by_ := .dma n, waiting := waiting }] } }
      else s
    let far := if d.kind = .zone then [] else (d.granules.filter fun g => (s.aperture g.dev).isSome).map (·.dev)
    some (s.setCore n (firstDma fun d => { d with started := true, far := far, tags := tags }))

/-- The oldest DMA of core `n` executes if it has not begun (06 R171, R172, R177, R180): its list entries, its addresses and the write
pointers of its zones are checked at that moment. -/
def State.tryDma (s : State) (n : Nat) : State :=
  match s.run (s.partOfCore n), (s.core n).dma with
  | some r, d :: _ =>
    if d.started then s
    else match dmaBad s (s.partOfCore n) r d with
      | some a => s.programFault n reasonDevice 0 a (if d.kind = .zone then .zone else .device) d.instr d.pc
      | none => (s.startDma n d).getD s
  | _, _ => s

/-- DEV plus its register, modulo 2^48 (06 R157, R171). -/
def dmaDev (c : Core) (w : IWord) : Nat := (fld w 2 0 32 + 2 ^ 32 * fld w 3 0 16 + getX c (fld w 0 12 4)) % 2 ^ 48

/-- The first rule of 06 R157 or R171 that the fields break, by reason. DEV plus its register of a DMA_ZONE, which names no device address,
is not checked (DESIGN CHOICE, log 124). -/
def dmaReason (c : Core) (w : IWord) (kind : DmaKind) : Option Nat :=
  let rows := fld w 4 0 13
  let grans := fld w 5 0 17
  if kind ≠ .zone ∧ dmaDev c w % 64 ≠ 0 then some reasonAddress
  else if fld w 6 0 23 % 64 ≠ 0 ∨ (kind.listed = false ∧ fld w 7 0 32 % 64 ≠ 0) then some reasonAddress
  else if rows = 0 ∨ 4096 < rows ∨ grans = 0 ∨ 65536 < grans ∨ (kind = .zone ∧ grans % 64 ≠ 0) then some reasonFieldRange
  else none

/-- The DMA that the instruction makes; `v` is the core as the reads of its scratchpad see it. An outgoing one takes its bytes
now (06 R179). -/
def dmaMake (v : Core) (w : IWord) (kind : DmaKind) (sp dev pc : Nat) : Dma :=
  let grans := fld w 5 0 17
  let rs := if kind.listed then listedRows v w (kind == .zone) sp dev else stridedRows w sp dev
  { kind := kind, rows := rs, grans := grans,
    data := if kind.outgoing then rs.map fun r => spadBytes v r.sp (64 * grans) else [],
    bad := if kind.outgoing then rs.map fun r => (List.range grans).map fun i => spadBad v (r.sp + 64 * i) else [],
    started := false, far := [], tags := [], got := [], pc := pc, instr := w }

/-- The common part of the five DMA instructions (06 R171, R172, R177-R179): the instruction enters the queue, and executes where no other
one stands before it. -/
def dmaIssue (n : Nat) (w : IWord) (kind : DmaKind) (found : List Finding) (c : Core) (s : State) : Out :=
  let dev := dmaDev c w
  match effOff c (fld w 1 0 23) (fld w 0 8 4) 64 with
  | none => pfaultAt s n w reasonAddress (fld w 1 0 23 + getX c (fld w 0 8 4)) .scratchpad
  | some sp =>
    match dmaReason c w kind with
    | some e => if kind ≠ .zone ∧ dev % 64 ≠ 0 then pfaultAt s n w e dev .device else pfault s n w e
    | none =>
      let ranges := dmaList w kind ++ dmaArea w sp
      if !fits ranges then pfault s n w reasonFieldRange
      else
        let (s, v) := s.scan n (dmaList w kind ++ if kind.outgoing then dmaArea w sp else []) found
        let d := dmaMake v w kind sp dev c.pc
        done ((s.setCore n fun c => advance { c with dma := c.dma ++ [d] }).tryDma n)

/-- DMA_IN (06 R171). -/
def execDmaIn (n : Nat) (w : IWord) (found : List Finding) (s : State) : Out :=
  issue s n w 0x60 fun s _ c => dmaIssue n w .into found c s

/-- DMA_OUT (06 R171). -/
def execDmaOut (n : Nat) (w : IWord) (found : List Finding) (s : State) : Out :=
  issue s n w 0x61 fun s _ c => dmaIssue n w .out found c s

/-- DMA_GATHER (06 R171). -/
def execDmaGather (n : Nat) (w : IWord) (found : List Finding) (s : State) : Out :=
  issue s n w 0x62 fun s _ c => dmaIssue n w .gather found c s

/-- DMA_SCATTER (06 R171). -/
def execDmaScatter (n : Nat) (w : IWord) (found : List Finding) (s : State) : Out :=
  issue s n w 0x63 fun s _ c => dmaIssue n w .scatter found c s

/-- DMA_ZONE (06 R171). -/
def execDmaZone (n : Nat) (w : IWord) (found : List Finding) (s : State) : Out :=
  issue s n w 0x64 fun s _ c => dmaIssue n w .zone found c s

/-! ## Completion -/

/-- A granule arrives in a scratchpad: sound, or with the poison pattern in each word (10 R282). -/
def putGranule (c : Core) (sp : Nat) (bs : List Byte) (poison : Bool) : Core :=
  let c := spadWrite c sp bs
  if poison then (List.range 8).foldl (fun c i => badWord (sp / 8 + i) c) c else c

/-- Granules read from the device range into core `n`, but for those asked of a peer (10 R280-R282; 17 R507). -/
def pullGranules (n : Nat) (found : List Finding) (far : List Nat) : List Gran → State → State
  | [], s => s
  | g :: t, s =>
    if far.contains g.dev then pullGranules n found far t s
    else
      let ((bs, bad), s) := s.readGranule (g.dev / 64) found false
      pullGranules n found far t (s.setCore n fun c => putGranule c g.sp bs bad)

/-- A granule of a DMA out of scratchpad arrives: sound, or written poisoned (10 R282). -/
def State.pushGranule (s : State) (dev : Nat) (bs : List Byte) (bad : Bool) : State :=
  let s := (s.dirty (dev / pageBytes)).storeGranule (dev / 64) bs
  if bad then s.poison (dev / 64) else s

/-- Granules written to the device range, but for those sent to a peer (17 R507). -/
def pushGranules (far : List Nat) : List (Gran × List Byte × Bool) → State → State
  | [], s => s
  | (g, bs, bad) :: t, s =>
    if far.contains g.dev then pushGranules far t s else pushGranules far t (s.pushGranule g.dev bs bad)

/-- The blocks of a DMA_ZONE arrive. -/
def pullBlocks (n : Nat) (d : Dma) (s : State) : State :=
  d.rows.foldl (fun s r => s.setCore n fun c => spadWrite c r.sp (s.blocksBytes r.dev (d.grans / 64))) s

/-- Logical blocks that a DMA of granules reads from zones (20 R583). -/
def zoneBlocksRead (s : State) (d : Dma) : Nat :=
  let here := d.granules.filter fun g => !d.far.contains g.dev && s.fromZone (g.dev / 64)
  (here.foldl (fun l g => if l.contains (g.dev / 4096) then l else (g.dev / 4096) :: l) []).length

/-- What a DMA that completes does on this module. -/
def dmaEffect (n : Nat) (found : List Finding) (d : Dma) (s : State) : State :=
  match d.kind with
  | .into | .gather =>
    d.got.foldl (fun s g => s.setCore n fun c => putGranule c g.1 g.2.1 g.2.2) (pullGranules n found d.far d.granules (s.lifeAdd 27 (zoneBlocksRead s d)))
  | .zone =>
    let reads := match s.fl.reads.find? fun r => r.by_ == ReadFor.dma n with
      | some r => s.fl.reads.erase r
      | none => s.fl.reads
    pullBlocks n d ({ s with fl := { s.fl with reads := reads } }.lifeAdd 27 (d.rows.length * (d.grans / 64)))
  | .out | .scatter => pushGranules d.far d.items s

/-- A DMA_ZONE whose pages the dies have not all delivered (13 R376). -/
def zoneReading (s : State) (n : Nat) : Bool :=
  match s.fl.reads.find? fun r => r.by_ == ReadFor.dma n with
  | some r => r.waiting != []
  | none => false

/-- The oldest DMA of a core may not take its effect yet: an answer or a flash page is outstanding, or its writes are held back (04 R113;
13 R376; 17 R507). -/
def dmaWaits (s : State) (n : Nat) (d : Dma) : Bool :=
  d.tags != [] || (d.kind == .zone && zoneReading s n) || (d.incoming && heldBack (s.core n) (d.rows.map fun r => (r.sp, 64 * d.grans)))

/-- DMA_COMPLETE: the oldest DMA of core `n` takes its effect, the adds that waited for it may, and the next one executes (06 R174, R177,
R180). One that could not begin for want of tags begins. -/
def execDmaComplete (n : Nat) (found : List Finding) (s : State) : Out :=
  match s.coreWorks n, (s.core n).dma with
  | some _, d :: rest =>
    if d.started = false then done (s.tryDma n)
    else if dmaWaits s n d then done s
    else
      let pages := if d.kind = .zone then [] else d.granules.map fun g => g.dev / pageBytes
      let s := (dmaEffect n found d s).touch (s.partOfCore n) pages
      let after := fun (c : Core) =>
        let adds := c.adds.map fun a => { a with dmaBefore := a.dmaBefore - 1 }
        { c with dma := rest, adds := adds }
      done (((s.setCore n after).signals n).tryDma n)
  | _, _ => done s

end Sys2Proof.Machine
end

