-- ==== Sys2Proof/Machine/CmdBase.lean ====
section
/-!
DEFINITION. CmdBase.lean: what the opcode rows share: HANDLE, and the reads of their buffers (14 R409, R410; 16 R467 step 5).
-/
namespace Sys2Proof.Machine

/-- HANDLE: dword 1 of the packet. -/
def Cmd.handle (c : Cmd) : Nat := c.dw 1

/-- A command's buffer of at least `n` bytes, read in full: BUFFER_SHORT where it is shorter, HOST_ACCESS where the read
fails (14 R410). -/
def readBuf (h : HostCmd) (c : Cmd) (b n : Nat) (s : State) (f : List Byte → State → State) : State :=
  if c.len b < n then s.reply h.ref 0x0105 0
  else if n = 0 then f [] s
  else match h.buf b with
    | some bs => if bs.length < n then s.reply h.ref 0x0106 0 else f (bs.take n) s
    | none => s.reply h.ref 0x0106 0

/-- A buffer that the module writes `n` bytes to: BUFFER_SHORT where it is shorter (14 R410). -/
def writeBuf (h : HostCmd) (c : Cmd) (b n : Nat) (s : State) (f : State → State) : State :=
  if c.len b < n then s.reply h.ref 0x0105 0 else f s

/-- The live commands that were fetched before `c`. -/
def State.before (s : State) (c : Cmd) : List Cmd := s.q.cmds.filter fun d => decide (d.seq < c.seq)

/-- The command passes its point of no return (14 R432). -/
def State.commitCmd (s : State) (r : CmdRef) : State := s.setCmd r fun c => { c with pnr := true }

end Sys2Proof.Machine
end

