-- ==== Sys2Proof/Machine/Tiers.lean ====
section
/-!
DEFINITION. Tiers.lean: BAR2 accesses and the commands of the device range (09 R244, R250-R253; 16 R471, R472; 17 R507, R509).
-/
namespace Sys2Proof.Machine

/-! ## BAR2 (09 R244) -/

/-- A request of the host link: it lies in BAR2 and does not cross a 4 KiB bound (14 R402; DEDUCED, log 60). -/
def bar2Fits (off n : Nat) : Bool := decide (1 ≤ n ∧ off % 4096 + n ≤ 4096 ∧ off + n ≤ 2 ^ 36)

/-- The granules of a byte range. -/
def granulesOf (a n : Nat) : List Nat := (List.range ((a + n - 1) / 64 - a / 64 + 1)).map fun i => a / 64 + i

/-- A read of granules that an aperture sends to a peer, one request each (17 R507, R509). -/
def bar2Remote (a n : Nat) (w : Aperture) (s : State) : State :=
  let gs := granulesOf a n
  match s.exitPort w.module, freeTags s gs.length with
  | some p, some ts =>
    let r : Bar2Read :=
      ⟨a, n, List.replicate (64 * gs.length) 0, false, false, ts.zipIdx.map fun (e : Nat × Nat) => (e.1, 64 * e.2)⟩
    let s := { s with mem := { s.mem with bar2 := s.mem.bar2 ++ [r] } }
    (gs.zip ts).foldl (fun s (e : Nat × Nat) =>
      s.launch .bar2Read (s.mkReq 2 0 e.2 w.module (w.remoteBase + (64 * e.1 - w.localBase)) 64 false []) p) s
  | _, _ => { s with mem := { s.mem with completion := some ⟨List.replicate n 0xFF, false⟩ } }.undeliverable.bar2Drop

/-- The device address of BAR2 offset `off` as MIG_BAR2_BASE stands (09 R244). -/
def State.bar2Addr (s : State) (off : Nat) : Nat := (s.mig.bar2Base + off) % 2 ^ 48

/-- A host read of `n` bytes at device address `a` reaches memory, or the peer of an aperture over it (09 R244; 10 R282; 17 R507). -/
def State.bar2Read (s : State) (a : Nat) (win : Option Aperture) (n : Nat) (found : List Finding) : State :=
  match win with
  | some w => bar2Remote a n w s
  | none =>
    if s.served a then
      let ((bs, bad), s) := s.devRead a n found
      let s := if bad then s.aerLog .poisoned else s
      { s with mem := { s.mem with completion := some ⟨bs, bad⟩ } }
    else { s with mem := { s.mem with completion := some ⟨List.replicate n 0xFF, false⟩ } }.bar2Drop

/-- The blocks of a write that an aperture sends to a peer, within granules: address and bytes (17 R507). -/
def bar2Blocks (a : Nat) (bs : List Byte) : List (Nat × List Byte) :=
  (cuts (bs.length / 64 + 2) a bs).map fun c => (64 * c.1 + c.2.1, c.2.2)

/-- A block of a BAR2 write for a peer is sent: a WRITE of whole dwords; or the granule is read first, where it covers less (17 R503,
R507; DESIGN CHOICE, log 128). -/
def bar2Block (w : Aperture) (access p : Nat) (s : State) (e : (Nat × List Byte) × Nat) : State :=
  let ((a, bs), tag) := e
  let there := fun (x : Nat) => w.remoteBase + (x - w.localBase)
  let cls := reqClass w.cls true
  if a % 4 = 0 ∧ bs.length % 4 = 0 then s.launch (.bar2Write access false) (s.mkReq cls 1 tag w.module (there a) bs.length false bs) p
  else s.launch (.bar2Merge access false cls (a % 64) bs) (s.mkReq 2 0 tag w.module (there (a / 64 * 64)) 64 false []) p

/-- A write that an aperture sends to a peer (17 R507, R509). -/
def bar2RemoteWrite (a : Nat) (bs : List Byte) (w : Aperture) (s : State) : State :=
  let blocks := bar2Blocks a bs
  match s.exitPort w.module, freeTags s blocks.length with
  | some p, some ts =>
    let n := s.mem.bar2Next
    (blocks.zip ts).foldl (bar2Block w n p) { s with mem := { s.mem with bar2Next := n + 1 } }
  | _, _ => s.undeliverable.bar2Drop

/-- A host write at device address `a` reaches memory, or the peer of an aperture over it (09 R244; 10 R285, R286; 11 R305; 17 R507). -/
def State.bar2Write (s : State) (a : Nat) (win : Option Aperture) (bytes : List Byte) (found : List Finding) : State :=
  match win with
  | some w => bar2RemoteWrite a bytes w s
  | none => if s.allocated a && !s.inRegion a then s.devWrite a bytes found else s.bar2Drop

/-- A BAR2 access reaches memory. -/
def State.bar2Access (s : State) (h : HeldBar2) : State :=
  match h.bytes with
  | some bs => s.bar2Write h.addr h.win bs h.found
  | none => s.bar2Read h.addr h.win h.len h.found

/-- Requests that a BAR2 access through an aperture takes. -/
def HeldBar2.requests (h : HeldBar2) : Nat :=
  match h.bytes with
  | some bs => (bar2Blocks h.addr bs).length
  | none => (granulesOf h.addr h.len).length

/-- A BAR2 access waits: while memory is in self-refresh (19 R556), behind the read of a granule that an earlier write merges into, and for
free tags (17 R503). -/
def State.bar2Stuck (s : State) (h : HeldBar2) : Bool :=
  s.holdsRequests || (s.wlk.requests.any fun r => match r.by_ with | .bar2Merge _ _ _ _ _ => true | _ => false) ||
    match h.win with
    | some w => (s.exitPort w.module).isSome && (freeTags s h.requests).isNone
    | none => false

/-- BAR2 accesses that waited reach memory, in order, up to the first that still waits. -/
def bar2List : List HeldBar2 → State → State
  | [], s => s
  | h :: t, s => if s.bar2Stuck h then { s with mem := { s.mem with bar2Held := h :: t } } else bar2List t (s.bar2Access h)

/-- The BAR2 accesses that waited, in order, and the cell writes that waited behind them (17 R513; 19 R556). -/
def State.bar2Go (s : State) : State := (bar2List s.mem.bar2Held { s with mem := { s.mem with bar2Held := [] } }).releaseCells

/-- A BAR2 access arrives: it reaches memory, or waits behind those that wait. -/
def State.bar2Arrive (s : State) (h : HeldBar2) : State :=
  if s.mem.bar2Held = [] ∧ s.bar2Stuck h = false then s.bar2Access h
  else { s with mem := { s.mem with bar2Held := s.mem.bar2Held ++ [h] } }

/-- BAR2_READ: a host read of `n` bytes at BAR2 offset `off`; it waits while memory is in self-refresh (09 R244; 19 R553, R556). -/
def execBar2Read (off n : Nat) (found : List Finding) (s : State) : Out :=
  let a := s.bar2Addr off
  if bar2Fits off n = false then done s else done (s.activity.bar2Arrive ⟨a, s.aperture a, n, none, found⟩)

/-- BAR2_WRITE: a host write at BAR2 offset `off`; it waits while memory is in self-refresh (09 R244; 19 R553, R556). -/
def execBar2Write (off : Nat) (bytes : List Byte) (found : List Finding) (s : State) : Out :=
  let a := s.bar2Addr off
  if bar2Fits off bytes.length = false then done s
  else done (s.activity.bar2Arrive ⟨a, s.aperture a, bytes.length, some bytes, found⟩)

/-- Tags have become free: what waited for one is sent (17 R503): signal operations of cores, gate reads, BAR2 accesses. -/
def State.tagsFreed (s : State) : State :=
  let s := ((List.range 96).filter fun n => (s.core n).wantsTag).foldl State.signals s
  let s := ((List.range 4).filter fun p => (s.run p).isSome).foldl State.sendGates s
  if s.mem.bar2Held = [] then s else s.bar2Go

/-! ## Ranges of pages -/

/-- ADDR of a memory command. -/
def Cmd.addr (c : Cmd) : Nat := c.qw 4

/-- A range of pages lies in the general window at page bounds, 1 page or more (16 R471). -/
def generalRange (a n : Nat) : Bool := decide (1 ≤ n ∧ n ≤ 25165824) && a % pageBytes == 0 && decide (a + n * pageBytes ≤ kvBase)

/-- A range of pages lies in the flash window at page bounds. -/
def flashRange (a n : Nat) : Bool :=
  decide (1 ≤ n ∧ n ≤ 25165824) && a % pageBytes == 0 && decide (flashBase ≤ a) && decide (a + n * pageBytes ≤ 2 ^ 48)

/-- Pages of `[p, p + n)` that an allocated run holds. -/
def heldPages (p n : Nat) (a : Alloc) : Nat := min (p + n) (a.page + a.pages) - max p a.page

/-- Memory grants of queued and running jobs. -/
def State.memGrants (s : State) : List Grant :=
  (s.jobs.queue.flatMap (·.grants) ++ s.jobs.parts.flatMap fun p => match p.job with | some r => r.grants | none => []).filter
    fun g => g.kind == 0

/-- Pages `[p, p + n)` meet a region granted to a queued or running job (09 R250). -/
def State.granted (s : State) (p n : Nat) : Bool :=
  s.memGrants.any fun g => overlap p (p + n) (g.base / pageBytes) (g.base / pageBytes + g.count)

/-- Pages `[p, p + n)` meet the region or the feed region of an index (11 R304, R316; DEDUCED, log 62). -/
def State.indexed (s : State) (p n : Nat) : Bool :=
  s.idx.indexes.any fun (e : Nat × Index) =>
    let d := e.2.defn
    overlap p (p + n) (d.region / pageBytes) (d.region / pageBytes + d.regionPages) ||
      (d.feedEn && overlap (p * pageBytes) ((p + n) * pageBytes) d.feedBase (d.feedBase + feedBytes d))

/-- Pages `[p, p + n)` meet pages that a bundle, a job, a cocoon, a filter, a grant or an index holds (09 R250). -/
def State.pagesInUse (s : State) (p n : Nat) : Bool :=
  (s.mem.allocs.any fun a => a.owner != .host && decide (0 < heldPages p n a)) || s.granted p n || s.indexed p n

/-- MEM_ALLOC (09 R250; 16 R471; DESIGN CHOICE, log 59). -/
def execMemAlloc (h : HostCmd) (s : State) : Out :=
  withCmd s h.ref 0x40 fun c s =>
    let n := c.dw 6
    let p := c.addr / pageBytes
    if generalRange c.addr n = false ∨ (s.mem.allocs.any fun a => decide (0 < heldPages p n a)) then s.reply h.ref 0x0402 0
    else if s.boardFree < n then s.reply h.ref 0x0401 0
    else
      let s := State.zeroPages { s with mem := { s.mem with allocs := s.mem.allocs ++ [⟨p, n, .host⟩] } } p n
      s.ok h.ref 0

/-- A run without the pages `[p, p + n)`. -/
def cutRun (p n : Nat) (a : Alloc) : List Alloc :=
  if heldPages p n a = 0 then [a]
  else [⟨a.page, p - a.page, a.owner⟩, ⟨p + n, a.page + a.pages - (p + n), a.owner⟩].filter fun b => b.pages != 0

/-- The pages become free, with the apertures over them disabled (09 R250; 17 R507). -/
def State.freePages (s : State) (p n : Nat) : State :=
  let hit := fun q => decide (p ≤ q ∧ q < p + n)
  let s := { s with
    mem := { s.mem with
      allocs := s.mem.allocs.flatMap (cutRun p n)
      resident := s.mem.resident.filter fun r => !hit r.1
      flights := s.mem.flights.filter fun f => !hit f.page }
    wlk := { s.wlk with
      apertures := mapIf (fun (w : Aperture) => overlap p (p + n) (w.localBase / pageBytes) (w.localBase / pageBytes + w.pages))
        (fun w => { w with en := false }) s.wlk.apertures } }
  s.zeroPages p n

/-- MEM_FREE (09 R250; 16 R471). -/
def execMemFree (h : HostCmd) (s : State) : Out :=
  withCmd s h.ref 0x41 fun c s =>
    let n := c.dw 6
    let p := c.addr / pageBytes
    if generalRange c.addr n = false then s.reply h.ref 0x0402 0
    else if s.pagesInUse p n then s.reply h.ref 0x0404 0
    else if s.mem.allocs.foldl (fun k a => k + heldPages p n a) 0 < n then s.reply h.ref 0x0403 0
    else (s.freePages p n).ok h.ref 0

/-- A zone's blocks up to `last` may be mapped: the zone is full or finished, and they lie below its write pointer (09
R251). -/
def mapBlocks (s : State) (first n : Nat) : Bool :=
  (List.range (zoneOf (first + n - 1) - zoneOf first + 1)).all fun i =>
    let z := zoneOf first + i
    let top := min (first + n) ((z + 1) * zoneBlocks) - z * zoneBlocks
    let st := (s.zone z).state
    (st == .full || st == .finished) && decide (top ≤ (s.zone z).wp)

/-- MEM_MAP_ZONE (09 R251; 16 R471). -/
def execMemMapZone (h : HostCmd) (s : State) : Out :=
  withCmd s h.ref 0x42 fun c s =>
    let n := c.dw 6
    let p := c.addr / pageBytes
    let b := c.qw 7
    let clash := s.mem.maps.any fun (m : Nat × Mapping) => overlap p (p + n) m.2.page (m.2.page + m.2.pages)
    if flashRange c.addr n = false ∨ b % 512 ≠ 0 ∨ numZones * zoneBlocks < b + 512 * n ∨ clash = true then
      s.reply h.ref 0x0402 0
    else match lowestFree 4096 fun i => (Sparse.find s.mem.maps i).isSome with
      | none => s.reply h.ref 0x0406 0
      | some i =>
        if mapBlocks s b (512 * n) = false then s.reply h.ref 0x0405 0
        else
          let m : Mapping := ⟨p, n, b, none⟩
          ({ s with mem := { s.mem with maps := Sparse.put s.mem.maps i m } }).ok h.ref i

/-- A bundle's weight reference, a grant or an index names the mapping (09 R252). -/
def mapInUse (s : State) (i : Nat) (m : Mapping) : Bool :=
  m.bundle.isSome || s.granted m.page m.pages ||
    s.idx.indexes.any fun (e : Nat × Index) => e.2.owned.any fun o => o.map == i

/-- A mapping and the copies of its pages are gone (09 R252). -/
def State.unmap (s : State) (i : Nat) (m : Mapping) : State :=
  { s with mem := { s.mem with maps := Sparse.drop s.mem.maps i } }.dropCopies m.page m.pages

/-- MEM_UNMAP (09 R252; 16 R471). -/
def execMemUnmap (h : HostCmd) (s : State) : Out :=
  withCmd s h.ref 0x43 fun c s =>
    let i := bits c.handle 0 12
    match Sparse.find s.mem.maps i with
    | none => s.reply h.ref 0x0403 0
    | some m => if mapInUse s i m then s.reply h.ref 0x0404 0 else (s.unmap i m).ok h.ref 0

/-- The state of a page as MEM_QUERY reports it (16 R472). -/
def pageState (s : State) (p : Nat) : Nat :=
  let here := (s.mem.resident.filter fun r => r.1 == p).map (·.2)
  match s.mem.flights.find? fun f => f.page == p with
  | some f => 5 + 16 * f.die
  | none =>
    if flashBase ≤ p * pageBytes then
      if (s.mappingOf p).isNone then 0
      else here.foldl (fun n r => match r with
        | .copy (some d) _ => n ||| 2 ^ (8 + d)
        | .copy none _ => n ||| 2 ^ 12
        | .stacked _ _ _ => n) 4
    else match s.allocOf p with
      | none => 0
      | some ⟨_, _, .pinned q⟩ => 3 + 16 * s.spreadDie q p
      | some _ => match here with
        | .stacked d dirty _ :: _ => 2 + 16 * d + 64 * b2n dirty
        | _ => 1

/-- MEM_QUERY (09 R253; 16 R472). -/
def execMemQuery (h : HostCmd) (s : State) : Out :=
  withCmd s h.ref 0x44 fun c s =>
    let n := bits (c.dw 6) 0 17
    writeBuf h c 0 (4 * n) s fun s =>
      if 65536 < n ∨ (!generalRange c.addr n && !flashRange c.addr n) = true then s.reply h.ref 0x0402 0
      else
        let bs := (List.range n).flatMap fun i => leBytes 4 (pageState s (c.addr / pageBytes + i))
        (s.hostData h.ref 0 bs).ok h.ref n

end Sys2Proof.Machine
end

