-- ==== Sys2Proof/Machine/Integrity.lean ====
section
/-!
DEFINITION. Integrity.lean: range scrubs, the background scrubber, the sweep of module-reserved memory, and checker test mode (10
R283, R288-R299).
-/
namespace Sys2Proof.Machine

/-! ## Range scrubs (10 R288-R291) -/

/-- What a scrub counts; `left`: granules that it may still read before it is aborted. -/
structure ScrubCount where
  corrected : Nat := 0
  bad : Nat := 0
  poisoned : Nat := 0
  first : Nat := 0
  read : Nat := 0
  left : Nat := 0
  skipped : Nat := 0
  deriving DecidableEq, Repr

/-- A granule of the frame at place `pl` read by a scrub; `repair` writes corrected data back (10 R288). -/
def scrubGranule (repair : Bool) (found : List Finding) (a : ScrubCount × State) (key : Nat) : ScrubCount × State :=
  let (k, s) := a
  let g := key % 2 ^ 48
  let tier := s.tierAt (key / 2 ^ 48) g
  let first := if k.bad + k.poisoned = 0 then 64 * g else k.first
  match s.decodeKey key key (s.devBytes (64 * g) 64) found with
  | .clean => (k, s)
  | .poisoned => ({ k with poisoned := k.poisoned + 1, first := first }, s)
  | .corrected d =>
    let s := s.countCe tier
    let write := fun (s : State) => (if key == s.keyOf g && decide (64 * g < flashBase) then s.storeBytes (64 * g) d else s).cleanKey key
    ({ k with corrected := k.corrected + 1 }, if repair then write s else s)
  | .uncorrectable => ({ k with bad := k.bad + 1, first := first }, (s.countUe tier (ueAddr tier g) 0).poisonKey key)

/-- The granules of `[a, a + n)` in the frame at place `pl` at which a decoder can find anything, as keys: poisoned ones, planted ones,
and the findings. -/
def suspects (s : State) (pl a n : Nat) (found : List Finding) : List Nat :=
  ascending ((s.mem.poison ++ s.mem.check.map (·.1) ++ found.map (·.granule)).filter fun k => k / 2 ^ 48 == pl && inSpan a (a + n) k)

/-- The places at which a scrub reads a page: where its readers read it, or each copy in memory of a flash-backed one (10 R288,
R289). -/
def scrubPlaces (s : State) (a : Nat) : List Nat :=
  if flashBase ≤ a then
    (s.mem.resident.filter fun r => r.1 == a / pageBytes).map fun r => match r.2 with
      | .stacked d _ _ => d + 1
      | .copy (some d) _ => d + 1
      | .copy none _ => 5
  else [s.placeOf (a / 64)]

/-- The page at `a`, of `unit` bytes, read in each of its places, up to `left` granules in all. -/
def scrubFrames (repair : Bool) (found : List Finding) (a unit : Nat) : List Nat → ScrubCount × State → ScrubCount × State
  | [], x => x
  | pl :: t, (k, s) =>
    let n := min k.left (unit / 64)
    let x := (suspects s pl a (64 * n) found).foldl (scrubGranule repair found) (k, s)
    scrubFrames repair found a unit t ({ x.1 with read := x.1.read + n, left := x.1.left - n }, x.2)

/-- Pages read in ascending order while granules are left; a page that is not allocated is skipped and counted (10 R288, R289). -/
def scrubPages (sc : Scrub) (found : List Finding) : List Nat → ScrubCount × State → ScrubCount × State
  | [], x => x
  | i :: t, (k, s) =>
    let a := sc.addr + i * sc.unit
    if k.left = 0 then (k, s)
    else if s.exists_ a then scrubPages sc found t (scrubFrames sc.repair found a sc.unit (scrubPlaces s a) (k, s))
    else scrubPages sc found t ({ k with skipped := k.skipped + 1 }, s)

/-- Granules that the scrub of a range reads. -/
def scrubSize (s : State) (sc : Scrub) : Nat :=
  ((List.range sc.pages).filter fun i => s.exists_ (sc.addr + i * sc.unit)).foldl
    (fun n i => n + (scrubPlaces s (sc.addr + i * sc.unit)).length * (sc.unit / 64)) 0

/-- The scrub of a range, up to `n` granules. -/
def scrubRange (s : State) (sc : Scrub) (n : Nat) (found : List Finding) : ScrubCount × State :=
  scrubPages sc found (List.range sc.pages) ({ left := n }, s)

/-- The 32-byte summary (10 R291). -/
def scrubRecord (k : ScrubCount) : List Byte :=
  leBytes 8 k.read ++ leBytes 4 (sat32 k.corrected) ++ leBytes 4 (sat32 k.bad) ++ leBytes 4 (sat32 k.poisoned) ++
    leBytes 4 (sat32 k.skipped) ++ leBytes 8 k.first

/-- Waiting scrubs run while fewer than four do, oldest first (10 R290). -/
def runScrubs : List Scrub → Nat → List Scrub
  | [], _ => []
  | c :: t, n =>
    if c.running then c :: runScrubs t n
    else if n < 4 then { c with running := true } :: runScrubs t (n + 1) else c :: runScrubs t n

/-- Every waiting scrub that may run. -/
def State.startScrubs (s : State) : State :=
  { s with ecc := { s.ecc with scrubs := runScrubs s.ecc.scrubs (s.ecc.scrubs.filter (·.running)).length } }

/-- MEM_SCRUB (10 R288-R290; 16 R471): accepted, it runs or waits for one of four. -/
def execMemScrub (h : HostCmd) (s : State) : Out :=
  withCmd s h.ref 0x45 fun c s =>
    let a := c.addr
    let n := c.dw 6
    let kv := decide (kvBase ≤ a ∧ a < kvEnd)
    let unit := if kv then 65536 else pageBytes
    let fitsIn := decide (1 ≤ n) && a % unit == 0 &&
      (decide (a + n * unit ≤ kvBase) || (kv && decide (a + n * unit ≤ kvEnd)) ||
        (decide (flashBase ≤ a) && decide (a + n * unit ≤ 2 ^ 48)))
    if c.has 0 && decide (c.len 0 < 32) then s.reply h.ref 0x0105 0
    else if !fitsIn then s.reply h.ref 0x0402 0
    else
      let sc : Scrub := { cmd := h.ref, addr := a, pages := n, unit := unit, repair := bit (c.dw 7) 0, running := false, record := c.has 0 }
      ({ s with ecc := { s.ecc with scrubs := s.ecc.scrubs ++ [sc] } }.startScrubs).wake 1

/-- A scrub leaves, and a waiting one takes its place. -/
def State.endScrub (s : State) (r : CmdRef) : State :=
  { s with ecc := { s.ecc with scrubs := s.ecc.scrubs.filter fun c => c.cmd != r } }.startScrubs

/-- SCRUB_COMPLETE: the range scrub of a command has read its range, and replies (10 R289-R291; DESIGN CHOICE, log 63). -/
def execScrubComplete (qid cid : Nat) (found : List Finding) (s : State) : Out :=
  match s.ecc.scrubs.find? fun c => c.cmd == ⟨qid, cid⟩ && c.running with
  | none => done s
  | some sc =>
    let (k, s) := scrubRange s sc (scrubSize s sc + 1) found
    let s := s.endScrub sc.cmd
    let s := if sc.record then s.hostData sc.cmd 0 (scrubRecord k) else s
    done (s.ok sc.cmd (sat32 k.corrected + 2 ^ 32 * sat32 (k.bad + k.poisoned)))

/-! ## The background scrubber (10 R292, R293) -/

/-- The allocated frames of a tier, ascending: the device address of the page each holds, the page's bytes and the frame's place (10
R292; DESIGN CHOICE, log 29 for their order). -/
def tierFrames (s : State) (tier : Nat) : List (Nat × Nat × Nat) :=
  let home := s.mem.allocs.flatMap fun a => (List.range a.pages).map fun i => ((a.page + i) * pageBytes, pageBytes, 0)
  let kv := s.mem.kvMap.map fun (e : Nat × KvFrame) => (kvBase + 65536 * e.1, 65536, 0)
  let there := s.mem.resident.map fun (r : Nat × Resident) => (r.1 * pageBytes, pageBytes, match r.2 with
    | .stacked d _ _ => d + 1
    | .copy (some d) _ => d + 1
    | .copy none _ => 5)
  sortBy (fun (a b : Nat × Nat × Nat) => decide (a.1 < b.1)) ((home ++ kv ++ there).filter fun f => s.tierAt f.2.2 (f.1 / 64) == tier)

/-- Every allocated frame in the order of the walk, with its tier (10 R292). -/
def scbWalk (s : State) : List (Nat × Nat × Nat × Nat) := (List.range 5).flatMap fun t => (tierFrames s t).map fun f => (t, f)

/-- A frame lies past a position of the walk. -/
def scbPast (at_ : Option (Nat × Nat)) (f : Nat × Nat × Nat × Nat) : Bool :=
  match at_ with
  | none => true
  | some p => decide (p.1 < f.1) || (f.1 == p.1 && decide (p.2 < f.2.1))

/-- A walk of the background scrubber is complete (10 R292). -/
def State.scbPass (s : State) : State :=
  { s with ecc := { s.ecc with scbPasses := sat64 (s.ecc.scbPasses + 1) } }.eccEvt 13

/-- The frame that the scrubber reads next: past its position, or the first one where the walk is complete; `true` where the walk
began again (10 R292, R293). -/
def scbNext (s : State) : Option ((Nat × Nat × Nat × Nat) × Bool) :=
  let w := scbWalk s
  match w.find? (scbPast s.ecc.scbAt) with
  | some f => some (f, false)
  | none => w.head?.map fun f => (f, true)

/-- BACKGROUND_SCRUB_FRAME: the scrubber reads its next frame in REPAIR mode (10 R292, R293). It pauses while a range scrub
runs, and in PS2 and PS3. Each walk counts once, with the frame that ends it. -/
def execBackgroundScrubFrame (found : List Finding) (s : State) : Out :=
  if s.ecc.scbEn = false ∨ (s.ecc.scrubs.any (·.running)) = true ∨ 2 ≤ s.pwr.ps then done s
  else
    match scbNext s with
    | none => done s
    | some ((tier, a, n, pl), again) =>
      let s := if again && !s.ecc.scbWalked then s.scbPass else s
      let (c, s) := (suspects s pl a n found).foldl (scrubGranule true found) ({}, s)
      let last := !(scbWalk s).any (scbPast (some (tier, a)))
      let s := { s with ecc := { s.ecc with
        scbAt := some (tier, a)
        scbWalked := last
        scbCe := sat64 (s.ecc.scbCe + c.corrected)
        scbUe := sat64 (s.ecc.scbUe + c.bad) } }
      done (if last then s.scbPass else s)

/-- A CHECK scrub of the allocated board frames, as the extended self-test makes it (15 R458; 10 R288). -/
def State.checkBoard (s : State) (found : List Finding) : State :=
  (tierFrames s 4).foldl (fun s f => ((suspects s f.2.2 f.1 f.2.1 found).foldl (scrubGranule false found) ({}, s)).2) s

/-! ## Module-reserved memory (10 R283) -/

/-- One granule of module-reserved memory in error: the symbols that err, and the partitions whose jobs it describes. It is decoded for
full strength (10 R279); beyond that its jobs fault, and it is rebuilt before they dispatch again (R283). Its address is a free value: the
spec gives that memory none (DESIGN CHOICE, log 2). -/
def readReserved (s : State) (e : Nat × List Nat) : State :=
  if e.1 = 0 then s
  else if e.1 ≤ reservedStrength then s.countCe 4
  else
    let (a, s) := s.draw
    let s := s.countUe 4 a 0
    let s := { s with mem := { s.mem with reservedBad := s.mem.reservedBad ++ e.2 } }
    e.2.foldl (fun s p => s.latch (.job p) { status := 0x0F02 }) s

/-- A management core interprets command `r`: begun, its row not executed, none of the state machines' (14 R418). -/
def State.interprets (s : State) (r : CmdRef) : Bool :=
  match s.cmd r with
  | some c => c.begun && !c.started && !c.pnr && !stateMachine (c.dw 0 % 256)
  | none => false

/-- A granule in error that describes no job; where a management core meets an uncorrectable one while it interprets a command, the
command ends with class uncorrectable memory error (20 R563). -/
def readPlain (s : State) (e : Nat × Option CmdRef) : State :=
  let bad := decide (reservedStrength < e.1)
  let s := readReserved s (e.1, [])
  match e.2 with
  | some r => if bad && s.interprets r then (s.setCmd r fun c => { c with started := true }).latch (.command r) { status := 0x0F02 } else s
  | none => s

/-- RESERVED_MEMORY_SWEEP: the management cores read all module-reserved memory (10 R283). Its granules in error: `plain`, the
symbols that err in each that describes no job, with the command in whose interpretation it is met; `described`, those that describe jobs,
with the partitions. What earlier sweeps found is rebuilt. -/
def execReservedMemorySweep (plain : List (Nat × Option CmdRef)) (described : List (Nat × List Nat)) (s : State) : Out :=
  done (described.foldl readReserved (plain.foldl readPlain { s with mem := { s.mem with reservedBad := [] } }))

/-! ## Checker test mode (10 R294-R299) -/

/-- TIER, COUNT and EVT of ECC_TEST_CTRL (10 R299). -/
def Ecc.tier (e : Ecc) : Nat := bits e.testCtrl 1 3
def Ecc.count (e : Ecc) : Nat := bits e.testCtrl 16 11
def Ecc.evtOn (e : Ecc) : Bool := bit e.testCtrl 4

/-- The target's first address, and its core (10 R297). -/
def Ecc.target (e : Ecc) : Nat := if e.tier = 5 then bits e.testTarget 0 23 else bits e.testTarget 0 48
def Ecc.core (e : Ecc) : Nat := bits e.testTarget 56 7

/-- A page that test mode may write: board-resident, and named by nothing (10 R295). -/
def freePage (s : State) (p : Nat) : Bool :=
  (match s.allocOf p with | some a => a.owner == .host | none => false) &&
    !(s.mem.resident.any fun r => r.1 == p) && !s.flying p && !s.granted p 1 && !s.indexed p 1

/-- ERROR of a test command: 0 where it may act (10 R295, R299; DESIGN CHOICE, log 30 for the order of several). -/
def testError (s : State) : Nat :=
  let e := s.ecc
  let n := 64 * e.count
  let a := e.target
  if s.gen.pl ≠ 0 then 1
  else if bit e.testCtrl 0 = false then 4
  else if e.count < 1 ∨ 1024 < e.count ∨ a % 64 ≠ 0 then 3
  else if e.tier < 4 then
    if dieFrames * pageBytes < a + n then 3
    else if (s.run (s.partOfDie e.tier)).isSome then 2 else 0
  else if e.tier = 4 then
    let ps := pagesIn a n
    if kvBase < a + n ∨ (ps.any fun p => (s.allocOf p).isNone) then 3
    else if ps.all (freePage s) then 0 else 2
  else if e.tier = 5 then
    if 96 ≤ e.core ∨ spadSize < a + n then 3
    else match s.run (s.partOfCore e.core) with
      | some r => if r.cores.contains e.core then 2 else 0
      | none => 0
  else 3
where
  pagesIn (a n : Nat) : List Nat := (List.range ((a + n - 1) / pageBytes - a / pageBytes + 1)).map fun i => a / pageBytes + i

/-- Granule `g` (address or offset divided by 64) of the target as it stands, with its 8 check symbols or check bytes where WRITE_RAW
planted some. -/
def rawData (s : State) (g : Nat) : List Byte :=
  let e := s.ecc
  if e.tier < 4 then Sparse.getList 0 s.mem.stackRaw (e.tier * 2 ^ 48 + 64 * g) 64
  else if e.tier = 4 then s.devBytes (64 * g) 64
  else spadBytes (s.core e.core) (64 * g) 64

/-- The check bits of granule `g` of the target: planted ones, the poison pattern, or those of the code (10 R294; DESIGN CHOICE, log
7). -/
def rawCheckBits (s : State) (g : Nat) : List Byte :=
  let e := s.ecc
  let data := rawData s g
  if e.tier < 4 then (Sparse.find s.mem.stackCheck (e.tier * 2 ^ 48 + g)).getD (rsBits data)
  else if e.tier = 4 then
    if s.mem.poison.contains (s.keyOf g) then poisonMark data else (Sparse.find s.mem.check (s.keyOf g)).getD (rsBits data)
  else
    let c := s.core e.core
    (List.range 8).map fun i =>
      let word := (data.drop (8 * i)).take 8
      if c.bad.contains (8 * g + i) then poisonBits word
      else (Sparse.find c.rawCheck (8 * g + i)).getD (secdedCheck word)

/-- Granule `g` written with these check bits, verbatim (10 R294). -/
def writeRaw (s : State) (g : Nat) (data check : List Byte) : State :=
  let e := s.ecc
  let s := { s with ecc := { s.ecc with rawWritten := s.ecc.rawWritten ++ [(e.tier, g)] } }
  if e.tier < 4 then { s with mem := { s.mem with
      stackRaw := Sparse.setList 0 s.mem.stackRaw (e.tier * 2 ^ 48 + 64 * g) data
      stackCheck := Sparse.put s.mem.stackCheck (e.tier * 2 ^ 48 + g) check } }
  else if e.tier = 4 then
    let s := s.storeGranule g data
    { s with mem := { s.mem with check := Sparse.put s.mem.check (s.keyOf g) check } }
  else s.setCore e.core fun c =>
    let c := spadWrite c (64 * g) data
    { c with
      rawCheck := (List.range 8).foldl (fun m i => Sparse.put m (8 * g + i) (check.getD i 0)) c.rawCheck
      rawGranules := if c.rawGranules.contains g then c.rawGranules else g :: c.rawGranules }

/-- ECC_TEST_RESULT with new flags; the counts of the last READ_CHECKED stay (10 R299). -/
def State.testFlags (s : State) (v : Nat) : State :=
  { s with ecc := { s.ecc with testResult := v + 2 ^ 16 * bits s.ecc.testResult 16 32 } }

/-- A test command as it acts: ECC_TEST_RESULT takes the error, or DONE, and TEST_DONE is set (10 R298, R299). -/
def testCommand (s : State) (f : List (Nat × Nat) → State → State) : Out :=
  match testError s with
  | 0 =>
    let gs := (List.range s.ecc.count).map fun i => (i, s.ecc.target / 64 + i)
    done (((f gs s).testFlags 2).eccEvt 14)
  | e => done (s.testFlags (4 * e))

/-- WRITE_RAW (10 R294). -/
def execWriteRaw (s : State) : Out :=
  let s := s.activity
  testCommand s fun gs s =>
    gs.foldl (fun (s : State) (g : Nat × Nat) =>
      writeRaw s g.2 (Sparse.getList 0 s.ecc.testData (64 * g.1) 64) (Sparse.getList 0 s.ecc.testCheck (8 * g.1) 8)) s

/-- Entry `i` of the data buffer. -/
def State.testEntry (s : State) (i : Nat) (data : List Byte) : State :=
  { s with ecc := { s.ecc with testData := Sparse.setList 0 s.ecc.testData (64 * i) data } }

/-- Granule `g` of the target into entry `i` of both buffers. -/
def readRaw (s : State) (i g : Nat) : State :=
  let check := rawCheckBits s g
  let s := s.testEntry i (rawData s g)
  { s with ecc := { s.ecc with testCheck := Sparse.setList 0 s.ecc.testCheck (8 * i) check } }

/-- READ_RAW (10 R294). -/
def execReadRaw (s : State) : Out := testCommand s.activity fun gs s => gs.foldl (fun s (g : Nat × Nat) => readRaw s g.1 g.2) s

/-- The words of a scratchpad granule decoded: the data, some corrected, some beyond correction or poisoned (10 R279). -/
def decodeWords (c : Core) (data : List Byte) (g : Nat) (found : List Finding) : List Byte × Bool × Bool :=
  (List.range 8).foldl (fun (a : List Byte × Bool × Bool) i =>
    let w := (data.drop (8 * i)).take 8
    match decodeWord c (8 * g + i) w found with
    | .clean => (a.1 ++ w, a.2)
    | .corrected d => (a.1 ++ d, true, a.2.2)
    | .uncorrectable | .poisoned => (a.1 ++ w, a.2.1, true)) ([], false, false)

/-- Granule `g` of the target through its decoder: data, corrected, uncorrectable or poisoned. -/
def checkedRead (s : State) (g : Nat) (found : List Finding) : List Byte × Bool × Bool :=
  let e := s.ecc
  let data := rawData s g
  let flags := fun (d : Decoded) => match d with
    | .clean => (data, false, false)
    | .corrected d => (d, true, false)
    | .uncorrectable | .poisoned => (data, false, true)
  if e.tier < 4 then flags (decodePlanted (Sparse.find s.mem.stackCheck (e.tier * 2 ^ 48 + g)) g data found)
  else if e.tier = 4 then flags (s.decode g found)
  else decodeWords (s.core e.core) data g found

/-- The events of test errors, where EVT is set (10 R299). -/
def State.testEvents (s : State) (ce ue : Bool) : State :=
  let t := s.ecc.tier
  let s := if ce && s.ecc.evtOn then s.eccEvt (if t < 4 then 4 + t else if t = 4 then 9 else 11) else s
  if ue && s.ecc.evtOn then s.eccEvt (if t < 4 then t else if t = 4 then 8 else 10) else s

/-- READ_CHECKED of one granule; the counts of ECC_TEST_RESULT take what it finds. -/
def readChecked (found : List Finding) (s : State) (i g : Nat) : State :=
  let (data, c, u) := checkedRead s g found
  let s := (s.testEntry i data).testEvents c u
  { s with ecc := { s.ecc with testResult := s.ecc.testResult + 2 ^ 16 * b2n c + 2 ^ 32 * b2n u } }

/-- READ_CHECKED (10 R294, R299). -/
def execReadChecked (found : List Finding) (s : State) : Out :=
  let s := s.activity
  testCommand s fun gs s =>
    gs.foldl (fun s (g : Nat × Nat) => readChecked found s g.1 g.2) { s with ecc := { s.ecc with testResult := 0 } }

/-- The checker test mode ends: EN is cleared, and what WRITE_RAW left in stacked memory and in scratchpads becomes zeros with
correct check bits; board pages stay (10 R296; DESIGN CHOICE, log 64). -/
def State.testOff (s : State) : State :=
  let clean := fun (c : Core) => c.rawGranules.foldl (fun c g => spadWrite c (64 * g) (List.replicate 64 0)) c
  { s with
    ecc := { s.ecc with testCtrl := clearBits s.ecc.testCtrl 1, rawWritten := [] }
    mem := { s.mem with stackRaw := [], stackCheck := [] }
    cores := s.cores.map fun c => if c.rawGranules = [] then c else { clean c with rawGranules := [] } }

/-- ECC_TEST_DISABLE (10 R296). -/
def execEccTestDisable (s : State) : Out := done s.activity.testOff

end Sys2Proof.Machine
end

