-- ==== Sys2Proof/Machine/ProgramCheck.lean ====
section
/-!
DEFINITION. ProgramCheck.lean: the checks of a core program that bundle load applies: those that depend on the program's text
alone (06 R151, R156-R160, R164, R167, R170, R171, R176; 05 R148).
-/
namespace Sys2Proof.Machine

/-- A whole dword. -/
def whole : Nat := 0xFFFFFFFF

/-- A 23-bit scratchpad offset (06 R157). -/
def off23 : Nat := 0x7FFFFF

/-- The bits of the eight dwords that the tables of R158-R176 name for an opcode; none for a reserved opcode (06 R155). -/
def namedBits (op : Nat) : Option (List Nat) :=
  match op with
  | 0x00 | 0x06 | 0x07 | 0x08 => some [0xFF, 0, 0, 0, 0, 0, 0, 0]
  | 0x01 => some [0xF1FFF, 0xFFFFFFF, whole, 0, 0, 0, 0, 0]
  | 0x02 | 0x03 => some [0xF0FFF, 0, whole, 0, 0, 0, 0, 0]
  | 0x04 => some [0x3FFF, off23, whole, 0xFFF, 0, 0, 0, 0]
  | 0x05 => some [0xFF, 0, 0, 0xFFF, 0, 0, 0, 0]
  | 0x09 => some [0xFF, 0xFFFF, 0, 0, 0, 0, 0, 0]
  | 0x10 => some [0x3FFFFFFF, off23, off23, off23, 0xFFFF, off23, 0xFFFFFF, 0]
  | 0x11 => some [0xF7FF, whole, 0xFFFF, 0, 0, 0, 0, 0]
  | 0x20 => some [0xFF7FFFFF, 0x3FFFF, 0x1FFFF, 0xFFFFFF, off23, off23, whole, whole]
  | 0x30 => some [0x7FFF3FFF, off23, off23, off23, off23, whole, whole, whole]
  | 0x40 => some [0xF7FF, 0x1FFFF, whole, 0, off23, 0, 0, 0]
  | 0x41 => some [0xFF0FF, 0x1FFFF, 0, 0, off23, 0x1FFFF, 0xFFFFFF, whole]
  | 0x42 => some [0xF1FF, 0x1FFFF, 0, 0, off23, 0, 0, 0]
  | 0x43 | 0x53 => some [0xF0FF, 0x1FFFF, 0, 0, off23, 0, 0, 0]
  | 0x50 => some [0xF4FF, 0x1FFFF, whole, 0x7FF, off23, 0, 0, 0]
  | 0x51 => some [0xFF3FF, 0x1FFFF, 0, 0, off23, 0x1FFFF, 0xFFFFFF, whole]
  | 0x52 => some [0xF0FF, 0x1FFFF, 0, 0, off23, 0xFFFF, 0, 0]
  | 0x60 | 0x61 => some [0xFFFF, off23, whole, 0xFFFF, 0x1FFF, 0x1FFFF, off23, whole]
  | 0x62 | 0x63 | 0x64 => some [0xFFFF, off23, whole, 0xFFFF, 0x1FFF, 0x1FFFF, off23, off23]
  | 0x70 => some [0xF1FF, 0xFF, whole, whole, 0, 0, 0, 0]
  | 0x71 => some [0xF0FF, 0xFF, whole, whole, 0, 0, 0, 0]
  | 0x80 => some [0xF3FF, whole, 0xFFFF, 0xFFFF, 0, 0, 0, 0]
  | _ => none

/-- The opcode of an instruction (06 R155). -/
def opOf (w : IWord) : Nat := fld w 0 0 8

/-- A reserved opcode, or a bit set that no table names. -/
def reservedBits (w : IWord) : Bool :=
  match namedBits (opOf w) with
  | none => true
  | some m => w.length != 8 || (List.range 8).any fun i => (w.getD i 0).toNat &&& (whole - m.getD i 0) != 0

/-- ROUTE of a DRAIN is requantise, reduce, raw. -/
def drainReserved (w : IWord) : Bool :=
  let route := fld w 0 8 2
  let frame := fld w 0 10 1
  let stat := fld w 0 11 2
  let set := fun (b : Bool) (d lo len : Nat) => b && fld w d lo len != 0
  route == 3 || stat == 3 || set (route != 2) 0 10 1 || set (route != 0) 0 11 3 || set (route != 0) 0 24 7 ||
    set (route != 0 || stat == 0) 5 0 32 || set (fld w 0 13 1 == 0) 3 0 23 ||
    set (route == 1 || (route == 2 && frame == 1) || (route == 0 && stat == 0)) 4 0 23 ||
    set (route == 1 || (route == 2 && frame == 0)) 6 0 32 || set (route != 1) 7 0 32 ||
    set (route == 0) 2 16 7 || set (route == 1) 2 8 15

/-- A reserved code in a field, or a field set that its instruction's form reserves (06 R164, R167, R170, R176; 02 R33;
DEDUCED, log 34). -/
def reservedCode (w : IWord) : Bool :=
  match opOf w with
  | 0x10 => decide (4 < fld w 0 12 3) || fld w 0 15 2 == 3
  | 0x20 => fld w 0 18 2 == 3
  | 0x30 => drainReserved w
  | 0x40 => fld w 0 8 2 == 0 || (fld w 0 10 1 == 0 && fld w 4 0 23 != 0)
  | 0x51 => decide (1 < fld w 0 8 2)
  | 0x80 => fld w 0 8 2 == 3
  | _ => false

/-- FIRST and COUNT name contexts (06 R170). -/
def ctxRange (w : IWord) : Bool := decide (1 ≤ fld w 1 8 9 ∧ fld w 1 0 8 + fld w 1 8 9 ≤ 256)

/-- ROWS and GRANS of a DMA (06 R171). -/
def dmaShape (w : IWord) : Bool :=
  decide (1 ≤ fld w 4 0 13 ∧ fld w 4 0 13 ≤ 4096) && decide (1 ≤ fld w 5 0 17 ∧ fld w 5 0 17 ≤ 65536)

/-- Every immediate lies in its range, and no combination is forbidden (06 R156). -/
def inRange (w : IWord) : Bool :=
  match opOf w with
  | 0x01 => fld w 0 12 1 == 1 || fld w 1 0 16 != 0
  | 0x10 => fmtLayoutOk (fld w 0 12 3) (fld w 0 15 2) && (fld w 0 15 2 != 1 || fld w 6 0 24 % 8 == 0)
  | 0x20 =>
    decide (1 ≤ fld w 1 0 9 ∧ fld w 1 0 9 ≤ 256) && decide (1 ≤ fld w 1 9 9 ∧ fld w 1 9 9 ≤ 256) &&
      decide (1 ≤ fld w 2 0 17 ∧ fld w 2 0 17 ≤ 65536) && !(fld w 0 22 1 == 1 && fld w 0 16 1 == 1)
  | 0x30 =>
    fld w 0 8 2 != 0 || (fld w 2 0 16 % 32 == 0 &&
      (fld w 0 11 2 == 0 || decide (0 < fld w 5 0 32 ∧ fld w 5 0 32 < 0x7F800000)))
  | 0x50 =>
    let k := fld w 3 0 11
    ctxRange w && decide (1 ≤ k ∧ k ≤ 1024 ∧ k * fld w 1 8 9 ≤ 1024)
  | 0x51 => ctxRange w && (fld w 0 8 2 != 0 || fld w 1 8 9 == 1)
  | 0x52 => ctxRange w && fld w 1 8 9 == 1 && fld w 5 0 16 != 0
  | 0x40 | 0x41 | 0x42 | 0x43 | 0x53 => ctxRange w
  | 0x60 | 0x61 | 0x62 | 0x63 => dmaShape w
  | 0x64 => dmaShape w && fld w 5 0 17 % 64 == 0
  | 0x80 => fld w 0 8 2 == 2 || fld w 3 0 16 != 0
  | _ => true

/-- Every immediate offset, address and stride has its field's alignment (06 R156, R157). -/
def isAligned (w : IWord) : Bool :=
  match opOf w with
  | 0x04 => fld w 1 0 23 % 4 == 0
  | 0x10 =>
    fld w 1 0 23 % 64 == 0 && fld w 3 0 23 % 8 == 0 && fld w 4 0 16 % 8 == 0 && fld w 5 0 23 % 2 == 0 &&
      (fld w 0 15 2 == 1 || fld w 2 0 23 % 64 == 0)
  | 0x20 => (fld w 0 20 2 == 0 || fld w 4 0 23 % 64 == 0)
  | 0x30 =>
    fld w 1 0 23 % 4 == 0 &&
      (fld w 0 8 2 != 2 || (fld w 2 0 23 % 64 == 0 && (fld w 0 10 1 == 1 || fld w 4 0 23 % 64 == 0)))
  | 0x60 | 0x61 => fld w 1 0 23 % 64 == 0 && fld w 2 0 32 % 64 == 0 && fld w 6 0 23 % 64 == 0 && fld w 7 0 32 % 64 == 0
  | 0x62 | 0x63 | 0x64 => fld w 1 0 23 % 64 == 0 && fld w 2 0 32 % 64 == 0 && fld w 6 0 23 % 64 == 0
  | _ => true

/-- The reason that an instruction's own text gives for refusal (06 R156, R185; DESIGN CHOICE, log 25 for the order of several). -/
def textReason (w : IWord) : Option Nat :=
  if reservedBits w || reservedCode w then some reasonReserved
  else if !inRange w then some reasonFieldRange
  else if !isAligned w then some reasonAddress
  else none

/-! ## Structure (06 R159, R160) -/

/-- The loops of a program: PC of the LOOP and END_PC. -/
def loopsOf (prog : List IWord) : List (Nat × Nat) :=
  (prog.zipIdx.filter fun e => opOf e.1 == 0x01).map fun e => (e.2, fld e.1 1 16 12)

/-- Instruction `pc` lies in a loop's body. -/
def inBody (l : Nat × Nat) (pc : Nat) : Bool := decide (l.1 < pc ∧ pc ≤ l.2)

/-- A LOOP is well placed: its body lies in the program and wholly within every body that holds it, at depth 8 at most. -/
def loopOk (n : Nat) (loops : List (Nat × Nat)) (l : Nat × Nat) : Bool :=
  decide (l.1 < l.2 ∧ l.2 < n) && (loops.all fun o => !inBody o l.1 || decide (l.2 ≤ o.2)) &&
    decide ((loops.filter fun o => inBody o l.1).length < 8)

/-- A branch from `pc` to `t` is forward, and enters and leaves no body (06 R160). -/
def branchOk (n : Nat) (loops : List (Nat × Nat)) (pc t : Nat) : Bool :=
  decide (pc < t ∧ t < n) && loops.all fun l => inBody l pc == inBody l t

/-- The placement of one instruction. -/
def placeOk (n : Nat) (loops : List (Nat × Nat)) (pc : Nat) (w : IWord) : Bool :=
  match opOf w with
  | 0x01 => loopOk n loops (pc, fld w 1 16 12)
  | 0x04 => fld w 0 12 1 == 1 || branchOk n loops pc (fld w 3 0 12)
  | 0x05 => branchOk n loops pc (fld w 3 0 12)
  | 0x07 => !loops.any fun l => inBody l pc
  | _ => true

/-- The first instruction that load refuses, in PC order, with its reason. -/
def firstBad (n : Nat) (loops : List (Nat × Nat)) : List (IWord × Nat) → Option (Nat × Nat)
  | [] => none
  | (w, pc) :: t =>
    match textReason w with
    | some r => some (pc, r)
    | none => if placeOk n loops pc w then firstBad n loops t else some (pc, reasonStructure)

/-- The refusal of a program: PC and reason (06 R151, R156, R159, R160; 12 R334). `entries`: the PCs at which a step of it
begins; one past the program's end is refused with PC 0 and reason STRUCTURE (DESIGN CHOICE, log 106). -/
def programBad (maxLen : Nat) (entries : List Nat) (prog : List IWord) : Option (Nat × Nat) :=
  let n := prog.length
  if maxLen < n then some (maxLen - 1, reasonStructure)
  else match firstBad n (loopsOf prog) prog.zipIdx with
    | some b => some b
    | none =>
      match prog.getLast? with
      | none => some (0, reasonStructure)
      | some w =>
        if opOf w ≠ 0x07 ∧ opOf w ≠ 0x08 then some (n - 1, reasonStructure)
        else if entries.any fun e => decide (n ≤ e) then some (0, reasonStructure)
        else none

/-- The first program that load refuses, with its number. -/
def programsBad (maxLen : Nat) (entries : List Nat) : List (List IWord × Nat) → Option (Nat × Nat × Nat)
  | [] => none
  | (p, i) :: t => match programBad maxLen entries p with
    | some (pc, r) => some (i, pc, r)
    | none => programsBad maxLen entries t

end Sys2Proof.Machine
end

