-- ==== Sys2Proof/Machine/Image.lean ====
section
/-!
DEFINITION. Image.lean: the bundle image and its sections read from their bytes, and the checks on them (07 R186-R197; 03 R63-R66, R72,
R91; 08 R211; 09 R258-R260).
-/
namespace Sys2Proof.Machine

/-- Bytes `off` … `off + n - 1` of an image. -/
def slice (bs : List Byte) (off n : Nat) : List Byte := (bs.drop off).take n

/-- A section table entry (07 R188). -/
structure Section where
  type : Nat
  count : Nat
  off : Nat
  len : Nat
  deriving DecidableEq, Repr

/-- The section table. -/
def sectionsOf (bs : List Byte) : List Section :=
  (List.range (bits (dwordAt bs 6) 0 7)).map fun i =>
    let e := slice bs (64 + 32 * i) 32
    ⟨bits (dwordAt e 0) 0 8, dwordAt e 1, qwordAt e 2, qwordAt e 4⟩

/-- The section of a type. -/
def sectionOf (bs : List Byte) (t : Nat) : Option Section := (sectionsOf bs).find? fun s => s.type == t

/-- The bytes of a section, none where the image has none. -/
def sectionBytes (bs : List Byte) (t : Nat) : List Byte :=
  match sectionOf bs t with | some s => slice bs s.off s.len | none => []

/-- COUNT of a section, 0 where the image has none. -/
def sectionCount (bs : List Byte) (t : Nat) : Nat := match sectionOf bs t with | some s => s.count | none => 0

/-- Bytes of one item of the types whose items have a fixed size (07 R188). -/
def itemBytes (t : Nat) : Nat :=
  match t with
  | 0x04 => 32 | 0x06 => 516 | 0x07 => 8 | 0x0B => 8
  | _ => 0

/-- Reserved bits and ranges of the header (07 R186, R187). -/
def headerOk (bs : List Byte) : Bool :=
  let n := bs.length
  dwordAt bs 0 == 0x4E415352 && dwordAt bs 1 == 1 && bits (dwordAt bs 3) 0 2 != 3 && bits (dwordAt bs 3) 3 3 != 0 &&
    dwordAt bs 3 / 64 == 0 && qwordAt bs 4 == n && n % 64 == 0 && decide (n ≤ 2 ^ 36) &&
    decide (1 ≤ dwordAt bs 6 ∧ dwordAt bs 6 ≤ 16) && dwordAt bs 7 == 0 &&
    (List.range 6).all fun i => dwordAt bs (10 + i) == 0

/-- A section table entry keeps its place and its reserved bits (07 R186, R188). -/
def sectionOk (bs : List Byte) (i : Nat) : Bool :=
  let e := slice bs (64 + 32 * i) 32
  let t := bits (dwordAt e 0) 0 8
  let off := qwordAt e 2
  let len := qwordAt e 4
  dwordAt e 0 == t && decide (1 ≤ t ∧ t ≤ 0x0B) && off % 4096 == 0 && qwordAt e 6 == 0 &&
    decide (64 + 32 * dwordAt bs 6 ≤ off) && decide (off + len + 112 ≤ bs.length) &&
    decide (dwordAt e 1 * itemBytes t ≤ len)

/-- Bytes between the parts are zero (07 R186). -/
def gapsZero (bs : List Byte) (ss : List Section) : Bool :=
  let parts := (0, 64 + 32 * ss.length) :: (bs.length - 112, 112) :: ss.map fun s => (s.off, s.len)
  bs.zipIdx.all fun (e : Byte × Nat) => e.1 == 0 || parts.any fun (p : Nat × Nat) => decide (p.1 ≤ e.2 ∧ e.2 < p.1 + p.2)

/-- The reserved fields of the trailer (07 R189). -/
def trailerOk (bs : List Byte) : Bool :=
  let t := bs.drop (bs.length - 112)
  decide (dwordAt t 1 ≤ 1) && qwordAt t 2 == 0 && (dwordAt t 1 == 1 || (t.drop 16).all (· == 0))

/-- The reserved bits of the WEIGHT_REFS and LIVE records (07 R188). -/
def itemsOk (bs : List Byte) : Bool :=
  let refs := sectionBytes bs 0x04
  let live := sectionBytes bs 0x0B
  ((List.range (sectionCount bs 0x04)).all fun i => dwordAt refs (8 * i + 7) == 0) &&
    (List.range (sectionCount bs 0x0B)).all fun i => bits (qwordAt live (2 * i)) 23 9 == 0 && bits (qwordAt live (2 * i)) 48 16 == 0

/-- Check 2 of R191: container, header and section table. -/
def formatOk (bs : List Byte) : Bool :=
  let ss := sectionsOf bs
  decide (256 ≤ bs.length) && headerOk bs && (List.range ss.length).all (sectionOk bs) && noDup (ss.map (·.type)) &&
    (ss.zipIdx.all fun (a : Section × Nat) => ss.zipIdx.all fun (b : Section × Nat) =>
      a.2 == b.2 || !overlap a.1.off (a.1.off + a.1.len) b.1.off (b.1.off + b.1.len)) &&
    ([0x01, 0x02, 0x08, 0x09].all fun t => (sectionOf bs t).isSome) && gapsZero bs ss && itemsOk bs && trailerOk bs

/-! ## Tables, lookup tables, calibration (03 R63-R66, R72, R91) -/

/-- The requantisation tables of a section, one after another; none where one does not fit its bytes. -/
def rawTables : Nat → List Byte → Option (List (List Byte))
  | 0, _ => some []
  | n + 1, bs =>
    let e := dwordAt bs 0
    if bs.length < 16 + 16 * e then none else (rawTables n (bs.drop (16 + 16 * e))).map fun l => bs.take (16 + 16 * e) :: l

/-- The entries of a table. -/
def tableEntries (bs : List Byte) : List (List Byte) :=
  (List.range (dwordAt bs 0)).map fun i => slice bs (16 + 16 * i) 16

/-- A table as its bytes say, at its device address. -/
def tableOf (addr : Nat) (bs : List Byte) : ReqTable :=
  let e := slice bs 16 16
  let d2 := dwordAt e 2
  { addr := addr, biasExp := signed 8 (dwordAt bs 1), lutMask := bits (dwordAt bs 2) 0 16, fmt := bits d2 5 3,
    layout := bits d2 8 2, clipRatio := bits d2 10 4, stochastic := bit d2 14, clipThresh := bits d2 16 16,
    adapt := bits (dwordAt e 0) 24 8, tensor := bits (dwordAt e 3) 0 16,
    chans := (tableEntries bs).map fun e =>
      ⟨signed 24 (dwordAt e 0), signed 32 (dwordAt e 1), bits (dwordAt e 2) 0 5⟩ }

/-- An entry's codes and reserved bits (03 R64). -/
def entryOk (e : List Byte) : Bool :=
  let d2 := dwordAt e 2
  let act := bits d2 0 5
  (decide (act ≤ 2) || decide (16 ≤ act)) && decide (bits d2 10 4 ≤ 8) && !bit d2 15 && dwordAt e 3 / 65536 == 0

/-- What every entry of a table shares (03 R65). -/
def sharedBits (e : List Byte) : Nat × Nat × Nat :=
  (bits (dwordAt e 0) 24 8, dwordAt e 2 / 32, dwordAt e 3)

/-- A table that load accepts (03 R66, R77, R78; 07 R196). `luts`: the lookup tables supplied. -/
def tableOk (adapter : Bool) (luts : Nat) (bs : List Byte) : Bool :=
  let es := tableEntries bs
  let e0 := slice bs 16 16
  let d2 := dwordAt e0 2
  let fmt := bits d2 5 3
  let layout := bits d2 8 2
  let mask := es.foldl (fun m e =>
    let act := bits (dwordAt e 2) 0 5
    if 16 ≤ act then setBit m (act - 16) else m) 0
  decide (1 ≤ dwordAt bs 0 ∧ dwordAt bs 0 ≤ 65536) && dwordAt bs 1 / 256 == 0 && dwordAt bs 2 / 65536 == 0 &&
    dwordAt bs 3 == 0 && es.all entryOk && (es.all fun e => sharedBits e == sharedBits e0) &&
    fmtLayoutOk fmt layout && (fmt != 4 || layout == 2) && (adapter || (!bit d2 14 && layout != 1)) &&
    mask == bits (dwordAt bs 2) 0 16 && decide (mask < 2 ^ luts)

/-- Lookup table `n` of the LUTS section: its n-th item (03 R72; DEDUCED, log 26). -/
def lutOf (bs : List Byte) : Lut :=
  { inShift := signed 8 (leNat (bs.take 1)), outShift := signed 8 (leNat (slice bs 1 1)),
    t := (List.range 256).map fun i => signed 16 (leNat (slice bs (4 + 2 * i) 2)) }

/-- The sixteen tables of a bundle. -/
def lutsOf (bs : List Byte) : List (Option Lut) :=
  let n := sectionCount bs 0x06
  let l := sectionBytes bs 0x06
  (List.range 16).map fun i => if i < n then some (lutOf (slice l (516 * i) 516)) else none

/-- The calibration records (03 R91). -/
def calsOf (bs : List Byte) : List CalRec :=
  let l := sectionBytes bs 0x07
  (List.range (sectionCount bs 0x07)).map fun i =>
    let d0 := dwordAt l (2 * i)
    let d1 := dwordAt l (2 * i + 1)
    ⟨bits d0 0 16, bits d0 16 16, bit d1 0, bits d1 16 16⟩

/-- The sections that the Required column of R188 asks for where its condition holds: TABLES, WEIGHTS, WEIGHT_REFS, LUTS and
CALIBRATION. -/
def requiredOk (v : BundleView) (bs : List Byte) : Bool :=
  let has := fun t => (sectionOf bs t).isSome
  let tables := (rawTables (sectionCount bs 0x05) (sectionBytes bs 0x05)).getD []
  let requantises := fun w => opOf w == 0x30 && fld w 0 8 2 == 0
  (has 0x05 || !(v.programs.any fun p => p.any requantises)) && (has 0x03 || v.weights.all (·.zoned)) &&
    (has 0x04 || v.weights.all fun w => !w.zoned) && (has 0x06 || tables.all fun t => bits (dwordAt t 2) 0 16 == 0) &&
    (has 0x07 || tables.all fun t => (tableOf 0 t).layout == 2)

/-- Check 7 of R191: tables and calibration records (03 R66, R72, R91). Reserved bits of a calibration record and of a lookup table that
are not zero are refused too (DEDUCED, log 121). -/
def tablesOk (bs : List Byte) (adapter : Bool) : Bool :=
  let luts := sectionCount bs 0x06
  let lb := sectionBytes bs 0x06
  let cals := calsOf bs
  let cb := sectionBytes bs 0x07
  match rawTables (sectionCount bs 0x05) (sectionBytes bs 0x05) with
  | none => false
  | some ts =>
    decide (luts ≤ 16) && ((List.range luts).all fun i => leNat (slice lb (516 * i + 2) 2) == 0) &&
      ts.all (tableOk adapter luts) &&
      (cals.all fun k => decide (0x80 ≤ k.calL ∧ k.calL ≤ 0x7F7F)) && noDup (cals.map (·.tensor)) &&
      noDup ((cals.filter (·.adaptive)).map (·.adaptIndex)) &&
      ((List.range cals.length).all fun i => bits (dwordAt cb (2 * i + 1)) 1 15 == 0) &&
      ts.all fun t => (tableOf 0 t).layout == 2 || cals.any fun k => k.tensor == (tableOf 0 t).tensor

/-! ## Operators (07 R195, R196; 08 R211) -/

/-- The KV pool record; none where a reserved field is not zero (08 R211). -/
def kvRecordOf (bs : List Byte) : Option KvRecord :=
  let reserved := bits (dwordAt bs 1) 23 9 + bits (dwordAt bs 2) 21 11 + leNat (slice bs 16 16)
  if bs.length < 32 ∨ reserved ≠ 0 then none
  else some ⟨dwordAt bs 0, bits (dwordAt bs 1) 0 23, bits (dwordAt bs 2) 0 21, dwordAt bs 3⟩

/-- Fields of the KV pool record are in range (08 R211). -/
def kvOk (k : KvRecord) : Bool :=
  k.kvBytes % 64 == 0 && decide (64 ≤ k.kvBytes ∧ k.kvBytes ≤ 16777216) &&
    decide (2 ≤ k.contextLimit ∧ k.contextLimit ≤ 4194304) && decide (2 ≤ k.vocab ∧ k.vocab ≤ 1048576) &&
    decide (k.evictPages < 2 ^ 32)

/-- A binary32 ε is positive and finite. -/
def epsOk (e : Nat) : Bool := decide (0 < e ∧ e < 0x7F800000)

/-- An operator lies within its limits, in a bundle of this kind (07 R195, R196). -/
def operatorOk (kind : Nat) (adapterTuning : Bool) (o : Operator) : Bool :=
  match o with
  | .linear k n => decide (1 ≤ k ∧ k ≤ 16777216) && decide (1 ≤ n ∧ n ≤ 65536)
  | .embedding r n => decide (r ≤ 2 ^ 32) && decide (n ≤ 65536)
  | .gather r n | .scatter r n => decide (r ≤ 4096) && n % 64 == 0
  | .elementwise a b c => a == b && decide (c ≤ 65536)
  | .layerNorm c e | .rmsNorm c e => decide (c ≤ 65536) && epsOk e
  | .activation a => decide (a ≤ 2) || decide (16 ≤ a ∧ a ≤ 31)
  | .attention q k d n f m =>
    decide (1 ≤ q ∧ q ≤ 256) && decide (1 ≤ k) && q % k == 0 && decide (64 ≤ d ∧ d ≤ 256) && d % 32 == 0 &&
      decide (n ≤ 4194304) && decide (f ≤ 1) && decide (m ≤ 2)
  | .decoder l => decide (l ≤ 256) && kind != 2
  | .encoder l n => decide (l ≤ 256) && decide (n ≤ 65536) && kind != 1
  | .routing e k => decide (2 ≤ e ∧ e ≤ 1024) && decide (1 ≤ k ∧ k ≤ 16)
  | .scan w n => decide (w ≤ 65536) && decide (n ≤ 4194304)
  | .convolution k c a f => decide (2 ≤ k ∧ k ≤ 64) && decide (c ≤ 65536) && decide (a ≤ 1) && decide (f ≤ 1)
  | .reranker n => decide (n ≤ 1024)
  | .indexEncode d => decide (64 ≤ d ∧ d ≤ 4096) && d % 32 == 0
  | .samplingHead v => decide (v ≤ 1048576)
  | .adapter r frozen => adapterTuning && decide (1 ≤ r ∧ r ≤ 256) && frozen
  | .adapterUpdate r c => adapterTuning && decide (r ≤ 65536) && decide (c ≤ 256)
  | .unknown => false

/-- A weight tensor has a layout that its reader takes: the backward pass of an adapter the transposable one or a transposed copy,
every other operator the standard or the unscaled one, or the transposable one where a backward pass reads the tensor too (07 R197;
DEDUCED, log 109). -/
def weightOk (l : List WeightUse) (w : WeightUse) : Bool :=
  if w.backward then w.layout == 1 || w.copied
  else w.layout == 0 || w.layout == 2 || (w.layout == 1 && l.any fun u => u.backward && u.tensor == w.tensor)

/-- The place of the first operator that check 9 of R191 refuses: one beyond its limits, or one that reads a weight tensor in a layout
that it does not take (07 R195-R197). -/
def badOperator (kind : Nat) (adapterTuning : Bool) (v : BundleView) : Option Nat :=
  (v.operators.zipIdx.find? fun (e : Operator × Nat) =>
    !operatorOk kind adapterTuning e.1 || v.weights.any fun w => w.op == e.2 && !weightOk v.weights w).map (·.2)

/-! ## Resources and the prefetch schedule (07 R194; 09 R258-R260) -/

/-- The resource record (07 R194). -/
def resourcesOf (bs : List Byte) : Resources :=
  let l := sectionBytes bs 0x09
  { scratchKib := bits (dwordAt l 0) 0 14, bindings := bits (dwordAt l 1) 0 9, grants := bits (dwordAt l 1) 16 7,
    privStacked := qwordAt l 2, privBoard := qwordAt l 4, kvPagesMin := dwordAt l 6, adaptiveT := bits (dwordAt l 7) 0 16,
    liveKib := dwordAt l 8, descOffset := bits (dwordAt l 9) 0 23, descKib := bits (dwordAt l 10) 0 14 }

/-- Stacked memory of the smallest partition size that PART_SIZES allows (01 R23; 09 R243). -/
def smallestStack (partSizes : Nat) : Nat :=
  (if bit partSizes 0 then 1 else if bit partSizes 1 then 2 else 4) * 147456 * 2097152

/-- The resource record lies within the module's limits (07 R194). -/
def resourcesOk (bs : List Byte) (kind partSizes : Nat) : Bool :=
  let l := sectionBytes bs 0x09
  let r := resourcesOf bs
  let stack := smallestStack partSizes
  decide (64 ≤ l.length) && dwordAt l 0 == r.scratchKib && dwordAt l 1 == r.bindings + 65536 * r.grants &&
    dwordAt l 7 == r.adaptiveT && dwordAt l 9 == r.descOffset && dwordAt l 10 == r.descKib &&
    ((List.range 5).all fun i => dwordAt l (11 + i) == 0) && decide (1 ≤ r.scratchKib ∧ r.scratchKib ≤ 8192) &&
    decide (r.bindings ≤ 256) && decide (r.grants ≤ 64) && decide (r.privStacked ≤ stack) &&
    decide (r.kvPagesMin * 65536 ≤ stack - r.privStacked) && (kind == 1 || r.kvPagesMin == 0) && r.descOffset % 64 == 0 &&
    (if kind = 0 then r.descKib == 0 else decide (33 ≤ r.descKib ∧ r.descKib ≤ 8192)) &&
    decide (r.descOffset + r.descKib * 1024 ≤ r.scratchKib * 1024)

/-- A range record; none where a reserved bit is set (09 R258). -/
def rangeOf (l : List Byte) : Option RangeRec :=
  let a := qwordAt l 0
  let d3 := dwordAt l 3
  let sa := qwordAt l 4
  if 2 ^ 48 ≤ a ∨ d3 / 32 ≠ 0 ∨ 2 ^ 48 ≤ sa ∨ dwordAt l 7 ≠ 0 ∨ bits d3 0 2 = 3 ∨ dwordAt l 2 = 0 ∨ a % 2097152 ≠ 0 then none
  else some ⟨a, dwordAt l 2, bits d3 0 2, bits d3 2 2, bit d3 4, sa, dwordAt l 6⟩

/-- A layer record. -/
def layerOf (l : List Byte) : Option LayerRec :=
  if 65536 ≤ dwordAt l 1 then none else some ⟨dwordAt l 0, bits (dwordAt l 1) 0 16⟩

/-- The prefetch schedule; none where a reserved field is not zero or a field is out of range (09 R258). -/
def scheduleOf (l : List Byte) : Option Schedule :=
  let d0 := dwordAt l 0
  let nl := bits d0 0 16
  let nr := dwordAt l 1
  let d2 := dwordAt l 2
  if d0 / 2 ^ 21 ≠ 0 ∨ bits d2 23 8 ≠ 0 ∨ d2 % 4 ≠ 0 ∨ nl < 1 ∨ 4096 < nl ∨ 1048576 < nr ∨ qwordAt l 4 ≠ 0 ∨ qwordAt l 6 ≠ 0 ∨
      l.length < 32 + 8 * nl + 32 * nr then none
  else
    match (List.range nl).mapM (fun i => layerOf (slice l (32 + 8 * i) 8)),
        (List.range nr).mapM (fun i => rangeOf (slice l (32 + 8 * nl + 32 * i) 32)) with
    | some ls, some rs =>
      if ls.all fun y => decide (y.first + y.n ≤ nr) then
        some { lead := bits d0 16 4, cyclic := bit d0 20, lsw := bits d2 0 23, lswEn := bit d2 31, stagePages := dwordAt l 3,
               layers := ls, ranges := rs }
      else none
    | _, _ => none

/-- A range lies in its window, general or flash (09 R242). -/
def inWindow (a n : Nat) : Bool := decide (a + n ≤ 0x300000000000) || (decide (0x400000000000 ≤ a) && decide (a + n ≤ 2 ^ 48))

/-- Pages of a layer that staging takes: resident ranges apart (09 R260). -/
def layerLoad (c : Schedule) (y : LayerRec) : Nat :=
  ((c.ranges.drop y.first).take y.n).foldl (fun n g => if g.place = 2 then n else n + g.pages) 0

/-- The largest load of LEAD + 1 consecutive layers (09 R260). -/
def windowLoad (c : Schedule) : Nat :=
  let loads := c.layers.map (layerLoad c)
  let n := loads.length
  (List.range n).foldl (fun m i =>
    let w := (List.range (c.lead + 1)).foldl (fun a j =>
      if i + j < n then a + loads.getD (i + j) 0
      else if c.cyclic && decide (j < n) then a + loads.getD ((i + j) % n) 0 else a) 0
    max m w) 0

/-- The pages that a bundle declares, as ranges of device addresses: those of its regions and of its weight references. -/
def declaredPages (v : BundleView) (refs : List WeightRef) : List (Nat × Nat) :=
  (v.declared.map fun d => (d.1 / 2097152 * 2097152, ceilDiv (d.1 + d.2) 2097152 * 2097152)) ++
    refs.map fun w => (w.addr, w.addr + ceilDiv w.len 2097152 * 2097152)

/-- A range of the schedule lies in the regions that the bundle declares and in those of `more`, granted ones (09 R260). -/
def rangeDeclared (v : BundleView) (refs : List WeightRef) (more : List (Nat × Nat)) (g : RangeRec) : Bool :=
  let l := declaredPages v refs ++ more
  spanned l.length g.addr (g.addr + g.pages * 2097152) l

/-- The schedule passes check 10 of R191 (09 R260): of a bundle that asks for grants, a range beyond the declared regions is checked
against them at JOB_START (DEDUCED, log 27). -/
def scheduleOk (v : BundleView) (refs : List WeightRef) (r : Resources) (c : Schedule) : Bool :=
  let resident := (c.ranges.filter fun g => g.place == 2).foldl (fun n g => n + g.pages) 0
  let copies := (c.ranges.filter (·.shadow)).foldl (fun n g => n + g.shadowPages) 0
  (c.ranges.all fun g => inWindow g.addr (g.pages * 2097152) && (r.grants != 0 || rangeDeclared v refs [] g)) &&
    decide (windowLoad c ≤ c.stagePages) && decide ((c.stagePages + resident + copies) * 2097152 ≤ r.privStacked)

/-- The weight references (07 R188; DEDUCED, log 28). -/
def refsOf (bs : List Byte) : List WeightRef :=
  let l := sectionBytes bs 0x04
  (List.range (sectionCount bs 0x04)).map fun i =>
    let e := slice l (32 * i) 32
    ⟨qwordAt e 0, qwordAt e 2, qwordAt e 4, dwordAt e 6⟩

/-- The LIVE ranges: offset and bytes (07 R188). -/
def liveOf (bs : List Byte) : List (Nat × Nat) :=
  let l := sectionBytes bs 0x0B
  (List.range (sectionCount bs 0x0B)).map fun i =>
    let q := qwordAt l (2 * i)
    (bits q 0 23, 64 * bits q 32 16)

/-- Entries of the largest share of the sequence table among the partition sizes that PART_SIZES allows (01 R23; 03 R89). -/
def largestShare (partSizes : Nat) : Nat := if bit partSizes 2 then 4096 else if bit partSizes 1 then 2048 else 1024

/-- The tables of the TABLES section, each with its device address (07 R193). -/
def placedTables (bs : List Byte) (v : BundleView) : List (Nat × List Byte) :=
  v.tableAddrs.zip ((rawTables (sectionCount bs 0x05) (sectionBytes bs 0x05)).getD [])

/-- Every address the bundle declares lies in its window; the scale-state region of `share` entries lies in the job's private board memory
(03 R89; DESIGN CHOICE, log 118); references lie in the flash window at page bounds (07 R191 check 10; 09 R242). -/
def addressesOk (bs : List Byte) (v : BundleView) (refs : List WeightRef) (share : Nat) : Bool :=
  (v.declared.all fun d => decide (d.1 + d.2 ≤ 0x300000000000)) &&
    ((placedTables bs v).all fun t => decide (t.1 + t.2.length ≤ 0x300000000000)) &&
    ((resourcesOf bs).adaptiveT == 0 || decide (v.scaleBase + 16 * share * (resourcesOf bs).adaptiveT ≤ (resourcesOf bs).privBoard)) &&
    refs.all fun w => decide (0x400000000000 ≤ w.addr) && w.addr % 2097152 == 0 &&
      decide (w.addr + ceilDiv w.len 2097152 * 2097152 ≤ 2 ^ 48)

end Sys2Proof.Machine
end

