-- ==== Sys2Proof/Machine/SysFlashOps.lean ====
section
/-!
DEFINITION. SysFlashOps.lean: the system flash: the host area, the xSPI port's queue, configuration (13 R388-R393;
15 R452; 16 R468-R470; 21 R599), its records (21 R594, R602-R607), a lowering (13 R397).
-/
namespace Sys2Proof.Machine

/-! ## Configuration -/

/-- The configuration in force: the intact copy with the larger SEQ (21 R599). -/
def State.config (s : State) : ConfigCopy :=
  (s.sf.configs.filter (·.valid)).foldl (fun m c => if m.seq ≤ c.seq then c else m) ⟨0, [], none, [], true⟩

/-- The bundle verification keys in force: those before a key command while the write of its configuration runs (22 R615). -/
def State.keysInForce (s : State) : List BundleKey := s.phys.keysOld.getD s.config.keys

/-- The older copy: one that is not intact, else the one with the smaller SEQ. -/
def olderCopy (l : List ConfigCopy) : Nat :=
  match l with
  | [a, b] => if !a.valid then 0 else if !b.valid then 1 else if b.seq < a.seq then 1 else 0
  | _ => 0

/-- The four sectors of a configuration copy (13 R389). -/
def copySectors (copy : Nat) : List Nat := (List.range 4).map fun i => 2 + 4 * copy + i

/-- First device sector of an imago slot, and of the host area (13 R389). -/
def slotSector (slot : Nat) : Nat := 16 + 512 * slot
def hostSector (k : Nat) : Nat := 3086 + k

/-! ## Records of system flash -/

/-- The sector, 0 or 1, of the boot selector record in force (21 R594). -/
def State.selectorAt (s : State) : Option Nat :=
  match s.sf.selector with
  | [a, b] => if a.valid && b.valid then some (if a.seq < b.seq then 1 else 0) else if a.valid then some 0
    else if b.valid then some 1 else none
  | _ => none

/-- The slot that the boot selector names: A where no record is intact. -/
def State.selectedSlot (s : State) : Nat :=
  match s.selectorAt with | some i => ((s.sf.selector.getD i ⟨0, 0, 0, false⟩)).slot | none => 0

/-- A boot selector record as its sector holds it behind the status word: the CRC leaves ATTEMPTS out (21 R594). -/
def Selector.bytes (r : Selector) : List Byte :=
  let body := leBytes 4 r.seq ++ leBytes 4 (r.slot % 2)
  body ++ leBytes 4 (r.attempts % 256) ++ leBytes 4 (crc32c body)

/-- A boot selector record is written into the other sector (21 R594). -/
def State.writeSelector (s : State) (slot : Nat) : State :=
  let i := match s.selectorAt with | some i => 1 - i | none => 0
  let seq := match s.selectorAt with | some i => (s.sf.selector.getD i ⟨0, 0, 0, false⟩).seq + 1 | none => 1
  let s := s.rewriteSector i
  { s with sf := { s.sf with selector := modifyAt s.sf.selector i fun _ => ⟨seq, slot, 0xFF, true⟩ } }

/-- The sector, 0 or 1, of the protection state record with the larger SEQ (21 R604). -/
def State.protAt (s : State) : Option Nat :=
  match s.sf.prot with
  | [a, b] => if a.valid && b.valid then some (if a.seq < b.seq then 1 else 0) else if a.valid then some 0
    else if b.valid then some 1 else none
  | _ => none

/-- A protection state record as its sector holds it behind the status word (21 R604). -/
def ProtRec.bytes (r : ProtRec) : List Byte :=
  let body := leBytes 4 r.seq ++ leBytes 4 (r.level % 4 + 256 * (r.minSvn % 256))
  body ++ leBytes 4 (crc32c body)

/-- A protection state record is written into the other sector (21 R604). -/
def State.writeProt (s : State) (level minSvn : Nat) : State :=
  let i := match s.protAt with | some i => 1 - i | none => 0
  let seq := match s.protAt with | some i => (s.sf.prot.getD i ⟨0, 0, 0, false⟩).seq + 1 | none => 1
  let s := s.rewriteSector (12 + i)
  { s with sf := { s.sf with prot := modifyAt s.sf.prot i fun _ => ⟨seq, level, minSvn, true⟩ } }

/-- MIN_SVN rises to a security version that exceeds it (21 R597). -/
def State.raiseSvn (s : State) (svn : Nat) : State :=
  if s.gen.minSvn < svn then { s.writeProt s.gen.pl svn with gen := { s.gen with minSvn := svn } } else s

/-- The tally of a setting (21 R605). -/
def tallyOf (setting : Nat) : Nat := match setting with | 1 => 32 | 2 => 8 | _ => 16

/-- A record consumes its count: it is live, and its bytes are whole (21 R606, R607). -/
def TallyRec.counts (t : TallyRec) : Bool := t.live && t.torn.isNone

/-- Counts that remain of a setting: its tally less its live records (21 R606). -/
def State.remaining (s : State) (setting : Nat) : Nat :=
  tallyOf setting - (s.sf.tallies.filter fun t => t.setting == setting && t.counts).length

/-- A record place of the tally sectors is left (21 R605). -/
def State.tallyRoom (s : State) : Bool := decide (s.sf.tallies.length < 1016)

/-- A tally record is written (21 R606). -/
def State.tally (s : State) (setting old new generation : Nat) : State :=
  let r : TallyRec :=
    { setting := setting, remaining := s.remaining setting - 1, old := old, new := new, time := s.time, powered := s.powered,
      generation := generation }
  { s with sf := { s.sf with tallies := s.sf.tallies ++ [r] } }

/-! ## The xSPI port (13 R393) -/

/-- The sectors 10 and 11 of the data key records: the one that the generation in force does not hold (13 R397). -/
def State.spareKey (s : State) : Nat :=
  match s.sf.keyRecs with
  | some r :: _ => if r.generation = s.fl.keyGen then 1 else 0
  | _ => 0

/-- Sectors that are about to be erased (13 R390). -/
def State.intendSectors (s : State) (ks : List Nat) : State := ks.foldl (fun s k => s.setWord k wordIntent) s

/-- The configuration copies of some places are not intact. -/
def State.spoilConfig (s : State) (copies : List Nat) : State :=
  { s with sf := { s.sf with configs := copies.foldl (fun l i => modifyAt l i fun c => { c with valid := false }) s.sf.configs } }

/-- The operation at the head of the queue starts: its command passes its point of no return (14 R432), an erase records its
intent first (13 R385, R390), an imago slot is no longer valid (15 R454), a configuration copy no longer intact. -/
def State.startSf (s : State) : State :=
  let pnr := fun (s : State) (c : Option CmdRef) => match c with | some r => s.commitCmd r | none => s
  match s.sf.ops with
  | .erase k c :: _ => pnr (s.journal (.sfIntent (hostSector k))) c
  | .program _ _ c :: _ => pnr s c
  | .slotErase slot n c :: _ =>
    let s := (List.range n).foldl (fun s i => s.journal (.sfIntent (slotSector slot + i))) (pnr s c)
    { s with sf := { s.sf with slots := modifyAt s.sf.slots slot fun x => { x with valid := false, factory := false } } }
  | .slotProgram _ :: _ => s
  | .config copy _ _ :: _ => (s.intendSectors (copySectors copy)).spoilConfig [copy]
  | .lowerKey _ _ :: _ =>
    let k := 10 + s.spareKey
    (if s.sectorWord k = wordErased then s else s.eraseSector k).setWord k wordOpen
  | .lowerCommit _ _ :: _ => s
  | .lowerRest _ :: _ => s.intendSectors ((10 + s.spareKey) :: (List.range 8).map fun i => 2 + i)
  | [] => s

/-- An operation joins the queue. -/
def State.pushSf (s : State) (o : SfOp) : State :=
  let idle := s.sf.ops.isEmpty
  let s := { s with sf := { s.sf with ops := s.sf.ops ++ [o] } }
  if idle then s.startSf else s

/-- The configuration after the writes that are queued; none stands after a lowering (13 R397 step 3). -/
def State.newestConfig (s : State) : ConfigCopy :=
  s.sf.ops.foldl (fun m o => match o with | .config _ v _ => v | .lowerRest _ => ⟨0, [], none, [], true⟩ | _ => m) s.config

/-- A configuration written: the older copy first with SEQ + 1, then the other (21 R599). -/
def State.writeConfig (s : State) (f : ConfigCopy → ConfigCopy) (next : SfThen) : State :=
  let old := s.newestConfig
  let new := { f old with seq := old.seq + 1, valid := true }
  let k := olderCopy s.sf.configs
  (s.pushSf (.config k new .nothing)).pushSf (.config (1 - k) new next)

/-- A program's bytes into the host area: 0xFF leaves a byte blank (13 R391). -/
def State.programHost (s : State) (off : Nat) (bs : List Byte) : State :=
  { s with sf := { s.sf with host := Sparse.setList 0xFF s.sf.host off bs } }

/-- Sectors of an imago slot erased and verified, each under its records (13 R385, R390). -/
def State.eraseSlot (s : State) (slot n : Nat) : State :=
  let s := { s with sf := { s.sf with slots := modifyAt s.sf.slots slot fun x => { x with image := x.image.map fun _ => 0xFF } } }
  (List.range n).foldl (fun s i => (s.countSector (slotSector slot + i)).journal (.sfDone (slotSector slot + i))) s

/-- A host sector erased and verified. -/
def State.eraseHost (s : State) (k : Nat) : State :=
  let s := { s with sf := { s.sf with host := Sparse.clear s.sf.host (65536 * k) (65536 * (k + 1)) } }
  (s.countSector (hostSector k)).journal (.sfDone (hostSector k))

/-! ## Features (15 R450) -/

/-- The value of a feature, dword 6 in bits [31:0]. -/
def Features.get (f : Features) (fid : Nat) : Nat :=
  match fid with
  | 1 => f.ps1Us + 2 ^ 16 * f.ps2Ms + 2 ^ 32 * f.ps3S
  | 2 => f.opCeiling
  | 3 => f.thermalCeiling
  | 4 => f.linkWidthLock
  | 5 => f.moduleId
  | _ => f.fenced

/-- A feature set. -/
def Features.set (f : Features) (fid v : Nat) : Features :=
  match fid with
  | 1 => { f with ps1Us := bits v 0 16, ps2Ms := bits v 16 16, ps3S := bits v 32 16 }
  | 2 => { f with opCeiling := v }
  | 3 => { f with thermalCeiling := v }
  | 4 => { f with linkWidthLock := v }
  | 5 => { f with moduleId := v }
  | _ => { f with fenced := v }

/-- A feature takes a value; before the saved values are applied, it is noted as set (15 R450; 21 R598). -/
def State.setFeature (s : State) (fid v : Nat) : State :=
  { s with gen := { s.gen with
      features := s.gen.features.set fid v
      setEarly := if s.gen.boot < 0x80 ∧ !s.gen.setEarly.contains fid then fid :: s.gen.setEarly else s.gen.setEarly } }

/-! ## A lowering (13 R395, R397; 21 R602, R604, R607) -/

/-- The data key record of generation `g` stands in the spare sector (13 R397 step 1). -/
def State.writeKey (s : State) (g : Nat) : State :=
  let k := s.spareKey
  { s with sf := { s.sf with keyRecs := modifyAt s.sf.keyRecs k fun _ => some { generation := g } } }.setWord (10 + k) wordValid

/-- The 84 bytes of a data key record after its sector's status word (21 R602): the key is wrapped under the key-wrapping key. -/
def keyRecord (g : Nat) : List Byte :=
  let body := leBytes 4 g ++ keyWrap Config.wrapKey (Config.dataKey g)
  body ++ leBytes 4 (crc32c body)

/-- The 84 bytes that a key sector holds of its record: GENERATION, WRAPPED and CRC (21 R602). -/
def KeyRec.bytes (r : KeyRec) : List Byte := r.torn.getD (keyRecord r.generation)

/-- A key record that no CRYPTO_ERASE committed is erased (13 R398; 21 R602). -/
def State.dropKeys (s : State) : State :=
  let k := s.spareKey
  if s.sectorWord (10 + k) = wordErased then s
  else { s with sf := { s.sf with keyRecs := modifyAt s.sf.keyRecs k fun _ => none } }.eraseSector (10 + k)

/-- Records of lowerings that did not commit, and torn ones, are voided (21 R607). -/
def State.voidTallies (s : State) : State :=
  let dead := fun (t : TallyRec) => t.torn.isSome || (t.setting == 1 && decide (s.fl.keyGen < t.generation))
  { s with sf := { s.sf with tallies := mapIf dead (fun t => { t with live := false }) s.sf.tallies } }

/-- What a lowering does to a zone (13 R397 step 5). -/
def State.cryptoZone (s : State) (z : Nat) : State :=
  match (s.zone z).state with
  | .opened => s.markErase z
  | .full => s.markErase z
  | .finished => s.markErase z
  | .readOnly => s.offline z
  | .empty => s
  | .offline => s

/-- The zones that are not fresh, or that hold programmed blocks. -/
def State.usedZones (s : State) : List Nat :=
  let zs := s.fl.zones.map fun (z : Nat × Zone) => z.1
  s.fl.words.foldl (fun l w => if l.contains (zoneOf w.1) then l else l ++ [zoneOf w.1]) zs

/-- The commit point of a lowering: the CRYPTO_ERASE record is programmed, the generation is in force, and every zone reads EMPTY or
OFFLINE (13 R397 steps 2 and 5). -/
def State.cryptoCommit (s : State) (g : Nat) : State :=
  let s := s.journal (.cryptoErase g)
  let s := { s with fl := { s.fl with keyGen := g } }
  let zs := s.usedZones
  zs.foldl State.kickZone (zs.foldl State.cryptoZone s)

/-- The older key record and the configuration are erased (13 R397 step 3). -/
def State.eraseOld (s : State) : State :=
  let k := s.spareKey
  let s := { s with sf := { s.sf with
    configs := [⟨0, [], none, [], false⟩, ⟨0, [], none, [], false⟩], keyRecs := modifyAt s.sf.keyRecs k fun _ => none } }
  ((10 + k) :: (List.range 8).map fun i => 2 + i).foldl State.eraseSector s

/-- What follows the commit point of a lowering (13 R397 steps 3 and 4). -/
def State.endLowering (s : State) : State :=
  let s := s.eraseOld.writeProt 0 s.gen.minSvn
  { s with gen := { s.gen with pl := 0 } }.lifeAdd 29 1

/-- A job is queued or running. -/
def State.anyJob (s : State) : Bool := !s.jobs.queue.isEmpty || s.jobs.parts.any fun p => p.job.isSome

/-- The conditions of a lowering hold (13 R397). -/
def State.canLower (s : State) : Bool :=
  !(s.jobs.bundles.any fun b => !b.refs.isEmpty) && s.mem.maps.isEmpty &&
    !(s.idx.indexes.any fun (x : Nat × Index) => !x.2.owned.isEmpty) && !s.anyJob &&
    !(s.q.cmds.any fun c => c.begun && decide (0x20 ≤ c.dw 0 % 256 ∧ c.dw 0 % 256 ≤ 0x25)) && s.fl.arrived == [] && s.fl.seqd == []

/-- A lowering takes effect: its CRYPTO_ERASE record is programmed, the command's point of no return. Where its conditions no longer hold
it does not, and is undone as one that lost power is (13 R397, R398; DESIGN CHOICE, log 114). -/
def State.commitLowering (s : State) (g : Nat) (c : Option CmdRef) : State :=
  if s.canLower then
    match c with
    | some r => (s.cryptoCommit g).commitCmd r
    | none => s.cryptoCommit g
  else
    let left := s.sf.ops.filter fun o => match o with | .lowerRest _ => false | _ => true
    let s := { s with sf := { s.sf with ops := left } }.dropKeys.voidTallies
    match c with
    | some r => s.reply r 0x090B 0
    | none => s

/-- A lowering is under way. -/
def State.lowering (s : State) : Bool := s.sf.ops.any fun o => match o with
  | .lowerKey _ _ => true | .lowerCommit _ _ => true | .lowerRest _ => true
  | .erase _ _ => false | .program _ _ _ => false | .slotErase _ _ _ => false | .slotProgram _ => false | .config _ _ _ => false

/-- The effect of an operation that has finished and is verified. -/
def State.endSf (s : State) (o : SfOp) : State :=
  let reply := fun (s : State) (c : Option CmdRef) (n : Nat) => match c with | some r => s.ok r n | none => s
  match o with
  | .erase k c => reply (s.eraseHost k) c 0
  | .program off bs c => reply (s.programHost off bs) c bs.length
  | .slotErase slot n _ => s.eraseSlot slot n
  | .slotProgram slot =>
    match s.gen.fwOp with
    | some (.commit c k image _) =>
      if k = slot then { s with
          gen := { s.gen with fwOp := some (.commit c k image true) }
          sf := { s.sf with slots := modifyAt s.sf.slots slot fun x => { x with image := image.image } } }
      else s
    | _ => s
  | .lowerKey g _ => s.writeKey g
  | .lowerCommit g c => s.commitLowering g c
  | .lowerRest c =>
    let s := s.endLowering
    reply s c (s.gen.pl + 2 ^ 8 * s.remaining 1)
  | .config copy value next =>
    let s := (copySectors copy).foldl State.rewriteSector s
    let s := { s with sf := { s.sf with configs := modifyAt s.sf.configs copy fun _ => value } }
    match next with
    | .nothing => s
    | .reply r n => s.ok r n
    | .feature c fid v n => reply (s.setFeature fid v) c n
    | .key => { s with phys := { s.phys with keyBusy := none, keysOld := none, keyResult := 0 } }

/-! ## The commands of the host area (13 R391; 16 R468, R470) -/

/-- Bytes of the host area. -/
def hostAreaBytes : Nat := 2 ^ 26

/-- OFFSET and LENGTH of a host-area command: in range, a program within one host sector (13 R391); the status otherwise
(DESIGN CHOICE, log 68). -/
def hostRange (off n : Nat) (program : Bool) : Nat :=
  if n = 0 ∨ 65536 < n ∨ hostAreaBytes < off + n then 0x0321
  else if program = true ∧ off / 65536 ≠ (off + n - 1) / 65536 then 0x0321
  else 0

/-- SF_READ (13 R391). -/
def execSfRead (h : HostCmd) (s : State) : Out :=
  withCmd s h.ref 0x30 fun c s =>
    let off := bits (c.dw 4) 0 26
    let n := bits (c.dw 6) 0 17
    writeBuf h c 0 n s fun s =>
      let st := hostRange off n false
      if st ≠ 0 then s.reply h.ref st 0
      else (s.hostData h.ref 0 (Sparse.getList 0xFF s.sf.host off n)).ok h.ref n

/-- SF_PROGRAM (13 R391): its blank check, then the device operation. -/
def execSfProgram (h : HostCmd) (s : State) : Out :=
  withCmd s h.ref 0x31 fun c s =>
    let off := bits (c.dw 4) 0 26
    let n := bits (c.dw 6) 0 17
    readBuf h c 0 n s fun bs s =>
      let st := hostRange off n true
      if st ≠ 0 then s.reply h.ref st 0
      else match (List.range n).find? fun i => Sparse.get 0xFF s.sf.host (off + i) != 0xFF with
        | some i => s.reply h.ref 0x0320 (off + i)
        | none => s.pushSf (.program off bs (some h.ref))

/-- SF_ERASE (13 R391). -/
def execSfErase (h : HostCmd) (s : State) : Out :=
  withCmd s h.ref 0x32 fun c s => s.pushSf (.erase (bits c.handle 0 10) (some h.ref))

/-- SF_INFO (13 R388; 16 R469): the erase counts of the 4,126 sectors. -/
def execSfInfo (h : HostCmd) (s : State) : Out :=
  withCmd s h.ref 0x33 fun c s =>
    writeBuf h c 0 16504 s fun s =>
      let bs := (List.range 4126).flatMap fun k => leBytes 4 (sat32 (Sparse.get 0 s.sf.erases k))
      (s.hostData h.ref 0 bs).ok h.ref 4126

end Sys2Proof.Machine
end

