-- ==== Sys2Proof/Machine/AdminBase.lean ====
section
/-!
DEFINITION. AdminBase.lean: what the administrative commands report and keep: identify data (15 R445), logs (15 R447, R448; 20
R572, R582; 21 R606), features (15 R450), boot selector, protection state and tallies (21 R594, R604-R607).
-/
namespace Sys2Proof.Machine

/-! ## Bundle verification keys (21 R601; 22 R614, R615) -/

/-- A PROTECTION_SET has begun and has not replied. -/
def State.protRuns (s : State) : Bool := s.q.cmds.any fun c => c.begun && c.dw 0 % 256 == 0x08

/-- A key command ends with a RESULT. -/
def State.endKey (s : State) (result : Nat) : State :=
  { s with phys := { s.phys with keyBusy := none, keyResult := result } }

/-- The check of a key command against the level and the keys: its RESULT where it fails, 0 where it proceeds. -/
def State.keyCheck (s : State) (install : Bool) : Nat :=
  let keys := s.newestConfig.keys
  let known := keys.any fun k => k.id == s.phys.keyId
  if s.gen.pl ≠ 0 then 1
  else if install = true ∧ onCurve s.phys.keyData = false then 2
  else if install = true ∧ 8 ≤ keys.length then 3
  else if install = known then 4
  else 0

/-- The keys after a key command. -/
def changeKeys (install : Bool) (id : Nat) (point : List Byte) (l : List BundleKey) : List BundleKey :=
  if install then l ++ [⟨id, point⟩] else l.filter fun k => k.id != id

/-- The key command that is busy runs, unless its configuration is being written, or a PROTECTION_SET or a lowering runs (22 R615). -/
def State.keyRun (s : State) : State :=
  match s.phys.keyBusy with
  | none => s
  | some (k, fine) =>
    if s.protRuns || s.lowering || s.sf.ops.any (fun o => match o with | .config _ _ .key => true | _ => false) then s
    else
      let install := k == 1
      let st := s.keyCheck install
      if st ≠ 0 then s.endKey st
      else if fine = false then s.endKey 5
      else
        let old := s.config.keys
        let s := s.writeConfig (fun c => { c with keys := changeKeys install s.phys.keyId s.phys.keyData c.keys }) .key
        { s with phys := { s.phys with keysOld := some old } }

/-- SF_OPERATION_COMPLETE: the running operation of the xSPI port ends, and the next one starts (13 R391, R393); a key command that a
PROTECTION_SET held back may run (22 R615). -/
def execSfOperationComplete (s : State) : Out :=
  match s.sf.ops with
  | [] => done s
  | o :: rest => done ((State.endSf { s with sf := { s.sf with ops := rest } } o).startSf).keyRun

/-! ## Identify -/

/-- Dword `i` of a text of ASCII characters, padded with spaces. -/
def textDword (t : List Byte) (i : Nat) : Nat := leNat ((List.range 4).map fun j => t.getD (4 * i + j) 0x20)

/-- "LND-7224". -/
def partNumber : List Byte := [0x4C, 0x4E, 0x44, 0x2D, 0x37, 0x32, 0x32, 0x34]

/-- VER_A or VER_B. -/
def State.slotVersion (s : State) (i : Nat) : Nat := let x := s.sf.slots.getD i {}; if x.valid then x.version else 0

/-- Dword `i` of CNS 0 (15 R445). -/
def State.identDword (s : State) (i : Nat) : Nat :=
  match i with
  | 0 => Config.pciId
  | 1 => Config.stepping.val + 256
  | 14 => s.slotVersion 0
  | 15 => s.slotVersion 1
  | 16 => s.gen.slot + 2 * s.selectedSlot + 256 * s.gen.minSvn
  | 17 => s.gen.moduleId + 2 ^ 16 * s.gen.pl + 2 ^ 18 * s.gen.layout
  | 18 => s.gen.features.fenced
  | 19 => s.gen.features.fenced / 2 ^ 32
  | 20 => s.gen.features.fenced / 2 ^ 64
  | 22 => 1236950581248
  | 23 => 1236950581248 / 2 ^ 32
  | 24 => 2190433320960
  | 25 => 2190433320960 / 2 ^ 32
  | 26 => 368640
  | 27 => 524288
  | 28 => 256 + 2 ^ 16 * 65535
  | 29 => 1024 + 2 ^ 16 * 4096
  | 30 => 4096 + 2 ^ 16 * 1024
  | 31 => 64 + 2 ^ 8 * 64 + 2 ^ 16 * 64 + 2 ^ 24 * 128
  | 32 => 256 + 2 ^ 16 * 4096
  | 33 => 15
  | 34 => 1500
  | 35 => 120000
  | 36 => 15
  | 37 => 1500
  | 38 => 120000
  | 39 => 900 + 2 ^ 16 * 1200
  | 40 => 1400 + 2 ^ 16 * 1600
  | 41 => 2400 + 2 ^ 16 * 12
  | 42 => 4 + 2 ^ 8 * 4 + 2 ^ 16 * 400
  | 43 => s.pci.speed + 2 ^ 4 * s.pci.width
  | _ => if 2 ≤ i ∧ i < 6 then textDword Config.serial (i - 2) else if 6 ≤ i ∧ i < 14 then textDword partNumber (i - 6) else 0

/-- The 4,096 bytes of CNS 0. -/
def State.identBytes (s : State) : List Byte := (List.range 1024).flatMap fun i => leBytes 4 (s.identDword i)

/-- CNS 1: the releases that the running imago supports (15 R446). -/
def State.releaseBytes (s : State) : List Byte :=
  let l := Config.releases s.gen.version
  leBytes 16 l.length ++ l.flatMap fun (e : Nat × Nat) => leBytes 4 e.1 ++ leBytes 4 e.2

/-! ## Logs -/

/-- Reserved bytes. -/
def zeros (n : Nat) : List Byte := List.replicate n 0

/-- An entry of the error log (14 R427). -/
def ErrEntry.bytes (e : ErrEntry) : List Byte :=
  let param := match e.param with | some (d, b) => d + 2 ^ 8 * b + 2 ^ 13 | none => 0
  leBytes 8 e.seq ++ leBytes 4 (e.qid + 2 ^ 8 * e.opcode + 2 ^ 16 * e.cid) ++ leBytes 4 (e.status + 2 ^ 16 * e.sqIndex) ++
    leBytes 8 e.result ++ leBytes 4 (param + 2 ^ 14 * b2n e.froze) ++ leBytes 4 (e.record.getD 0xFFFFFFFF) ++
    leBytes 8 e.time ++ zeros 24

/-- SPACE of a fault record (20 R572). -/
def FaultSpace.code : FaultSpace → Nat
  | .none => 0 | .device => 1 | .zone => 2 | .scratchpad => 3 | .module => 4

/-- A fault record (20 R572). -/
def FaultRecord.bytes (f : FaultRecord) : List Byte :=
  let i := f.info
  let flags := b2n f.jobValid + 2 * f.partition + 8 * b2n f.cmd.isSome
  let core := match i.core with | some n => n + 128 | none => 0
  let c := f.cmd.getD ⟨0, 0⟩
  let prog := i.status = 0x0510
  leBytes 4 f.number ++ leBytes 4 (i.status + 2 ^ 16 * flags + 2 ^ 24 * f.job) ++ leBytes 8 f.detect ++
    leBytes 8 f.confined ++ leBytes 4 (core + if prog then 2 ^ 8 * i.pc + 2 ^ 20 * i.reason else 0) ++
    leBytes 4 ((if prog then i.code % 2 ^ 16 else 0) + 2 ^ 16 * f.others) ++ leBytes 8 (i.addr % 2 ^ 48 + 2 ^ 48 * i.space.code) ++
    leBytes 4 i.tile ++ leBytes 4 (c.qid + 2 ^ 16 * c.cid) ++ zeros 16 ++
    ((List.range 8).flatMap fun k => leBytes 4 (if prog then (i.instr.getD k 0).toNat else 0)) ++ zeros 32

/-- A tally record as it was programmed; its CRC takes LIVE as 1 (21 R606). -/
def TallyRec.image (t : TallyRec) : List Byte :=
  let body := fun live => leBytes 4 (t.setting + 2 ^ 8 * t.remaining + 2 ^ 16 * live) ++
    leBytes 4 (t.old + 2 ^ 16 * t.new) ++ leBytes 8 t.time ++ leBytes 8 t.powered ++ leBytes 4 t.generation
  body (b2n t.live) ++ leBytes 4 (crc32c (body 1))

/-- A tally record as it stands; voiding a torn one clears its LIVE bit too (21 R607). -/
def TallyRec.bytes (t : TallyRec) : List Byte :=
  match t.torn with
  | none => t.image
  | some bs => if t.live then bs else modifyAt bs 2 fun b => b &&& 0xFE

/-- The telemetry log (15 R448). -/
def State.telemetryBytes (s : State) : List Byte :=
  leBytes 8 s.gen.telClear ++ leBytes 8 s.time ++ zeros 48 ++
    (List.range 1024).flatMap fun k => leBytes 8 (Sparse.get 0 s.gen.telemetry k)

/-- The number of blocks in the bins of the block erase histogram: every block of the 1,536 dies (20 R584). -/
def State.eraseBins (s : State) : List Nat :=
  let counts := s.fl.blockErases.map fun (e : Nat × Nat) => min 63 (e.2 / 32)
  let at_ := fun b => (counts.filter fun c => c == b).length
  (List.range 64).map fun b => if b = 0 then 1536 * 4096 - (counts.filter fun c => c != 0).length else at_ b

/-- The number of sectors in the bins of the sector erase histogram (20 R584). -/
def State.sectorBins (s : State) : List Nat :=
  let counts := s.sf.erases.map fun (e : Nat × Nat) => min 63 (e.2 / 2048)
  (List.range 64).map fun b => if b = 0 then 4126 - (counts.filter fun c => c != 0).length
    else (counts.filter fun c => c == b).length

/-- Counters as the lifetime log lists them. -/
def counters (n : Nat) (f : Nat → Nat) : List Byte := (List.range n).flatMap fun i => leBytes 8 (f i)

/-- The lifetime log: 12,832 bytes (20 R582). -/
def State.lifetimeBytes (s : State) : List Byte :=
  let l := s.life
  leBytes 8 1 ++ leBytes 8 s.time ++ leBytes 8 s.powered ++ zeros 40 ++
    counters 64 (Sparse.get 0 l.counters) ++ counters 96 (Sparse.get 0 l.coreMismatch) ++
    counters 96 (Sparse.get 0 l.coreSelfFail) ++
    counters 16 (fun i => ([l.portRetrains, l.portReplays, l.portCrc, l.portLost].getD (i % 4) []).getD (i / 4) 0) ++
    counters 12 (fun i => if i < 6 then l.eccCe.getD i 0 else l.eccUe.getD (i - 6) 0) ++
    counters 288 (fun i => match i % 3 with
      | 0 => Sparse.get 0 l.chanUncorr (i / 3) | 1 => Sparse.get 0 l.chanRetired (i / 3) | _ => s.freeSpares (i / 3)) ++
    counters 896 (Sparse.get 0 l.hist) ++ counters 64 (fun i => s.eraseBins.getD i 0) ++
    counters 64 (fun i => s.sectorBins.getD i 0)

/-- A log by LOG_ID (15 R447). -/
def State.logBytes (s : State) (id : Nat) : Option (List Byte) :=
  match id with
  | 1 => some (s.q.errLog.flatMap ErrEntry.bytes)
  | 2 => some s.lifetimeBytes
  | 3 => some s.telemetryBytes
  | 4 => some (s.flt.records.flatMap FaultRecord.bytes)
  | 5 => some (s.sf.tallies.flatMap TallyRec.bytes)
  | 6 => some (s.gen.lastSelfTest.getD [])
  | _ => none

/-! ## Features (15 R450) -/

/-- A value that a feature takes. -/
def featureOk (fid v : Nat) : Bool :=
  match fid with
  | 1 => decide (v < 2 ^ 48)
  | 2 => decide (v < 4)
  | 3 => decide (70 ≤ v ∧ v ≤ 105)
  | 4 => [0, 1, 2, 4, 8, 16].contains v
  | 5 => decide (v < 2 ^ 16)
  | _ => decide (v < 2 ^ 96)

/-- There is a feature with this FID. -/
def featureKnown (fid : Nat) : Bool := decide (1 ≤ fid ∧ fid ≤ 6)

/-- The saved value of a feature: the default where none was written (15 R449). -/
def State.savedFeature (s : State) (fid : Nat) : Nat :=
  match s.config.saved.find? fun e => e.1 == fid with
  | some e => e.2
  | none => ({} : Features).get fid
end Sys2Proof.Machine
end

