-- ==== Sys2Proof/Machine/GenBase.lean ====
section
/-!
DEFINITION. GenBase.lean: what the step builder works with: entries of the sequence table, KV pages and page lists, token
rings, scale records (08 R211-R237; 03 R83-R91; 09 R268-R270).
-/
namespace Sys2Proof.Machine

/-! ## Sequence-table entries (08 R215) -/

/-- Entry `e` of the table, where it is live. -/
def State.entry (s : State) (e : Nat) : Option SeqEntry := Sparse.find s.seqs.entries e

/-- Entry `e` written. -/
def State.putEntry (s : State) (e : Nat) (x : SeqEntry) : State :=
  { s with seqs := { s.seqs with entries := Sparse.put s.seqs.entries e x } }

/-- Entry `e` changed, where it is live. -/
def State.setEntry (s : State) (e : Nat) (f : SeqEntry → SeqEntry) : State :=
  { s with seqs := { s.seqs with entries := Sparse.adjust s.seqs.entries e f } }

/-- Entry `e` becomes free. -/
def State.dropEntry (s : State) (e : Nat) : State :=
  { s with seqs := { s.seqs with entries := Sparse.drop s.seqs.entries e } }

/-- The live entries of partition `p`, in entry order. -/
def State.liveEntries (s : State) (p : Nat) : List (Nat × SeqEntry) :=
  s.seqs.entries.filter fun e => e.1 / s.entriesPer == p

/-- The entry of partition `p` that bears a handle. -/
def State.seqOf (s : State) (p handle : Nat) : Option (Nat × SeqEntry) :=
  (s.liveEntries p).find? fun e => e.2.handle == handle

/-! ## KV pages (08 R212-R214; 09 R268, R269) -/

/-- KV pages for slots 0 … n - 1 (08 R213). -/
def slotPages (kvBytes n : Nat) : Nat :=
  if kvBytes ≤ 65536 then ceilDiv n (65536 / kvBytes) else n * ceilDiv kvBytes 65536

/-- KV pages held by a sequence, list pages included. -/
def SeqEntry.pages (e : SeqEntry) : Nat := b2n e.root.isSome + e.leaves.length + e.kv.length

/-- Every KV address a sequence holds. -/
def SeqEntry.held (e : SeqEntry) : List Nat := e.root.toList ++ e.leaves ++ e.kv

/-- Pages still needed so that slots 0 … n - 1 have their places (08 R214). -/
def SeqEntry.need (e : SeqEntry) (kvBytes n : Nat) : Nat :=
  let want := max e.kv.length (slotPages kvBytes n)
  (want - e.kv.length) + (ceilDiv want 8192 - e.leaves.length) + b2n e.root.isNone

/-- The `n` lowest free KV addresses from `k` on (09 R268). -/
def freeKv : Nat → Nat → Nat → Sparse KvFrame → List Nat
  | 0, _, _, _ => []
  | _, 0, _, _ => []
  | f + 1, n + 1, k, [] => k :: freeKv f n (k + 1) []
  | f + 1, n + 1, k, (a, v) :: t => if k < a then k :: freeKv f n (k + 1) ((a, v) :: t) else freeKv f (n + 1) (k + 1) t

/-- Free pool frames of partition `p` (09 R269). -/
def State.poolFree (s : State) (p : Nat) (r : Run) : Nat := r.pool - (s.mem.kvMap.filter fun e => e.2 == .pool p).length

/-- KV addresses that name no frame: the window holds 33,554,432 (09 R268). -/
def State.kvAddrs (s : State) : Nat := 33554432 - s.mem.kvMap.length

/-- KV pages that partition `p` can still give: each takes a pool frame and an address (09 R268; DEDUCED, log 127). -/
def State.kvRoom (s : State) (p : Nat) (r : Run) : Nat := min (s.poolFree p r) s.kvAddrs

/-- Free eviction frames of partition `p` (09 R269). -/
def State.evictFree (s : State) (p : Nat) (r : Run) : Nat :=
  r.evictPages - (s.mem.kvMap.filter fun e => e.2 == .evict p).length

/-- The device address of KV page `k`. -/
def kvAddr (k : Nat) : Nat := kvBase + 65536 * k

/-- A page-list entry (08 R214). -/
def listEntry (k : Nat) : List Byte := leBytes 8 (kvAddr k + 1)

/-- KV pages `i` … of a sequence take the addresses of a list, a leaf before the first page of each leaf (08 R214). -/
def linkPages : Nat → Nat → List Nat → SeqEntry → State → SeqEntry × State
  | 0, _, _, e, s => (e, s)
  | n + 1, i, ks, e, s =>
    let (ks, e, s) := match decide (i % 8192 = 0 ∧ e.leaves.length = i / 8192), ks with
      | true, k :: t =>
        (t, { e with leaves := e.leaves ++ [k] }, s.poke (kvAddr (e.root.getD 0) + 8 * (i / 8192)) (listEntry k))
      | _, ks => (ks, e, s)
    match ks with
    | k :: t =>
      let s := s.poke (kvAddr (e.leaves.getD (i / 8192) 0) + 8 * (i % 8192)) (listEntry k)
      linkPages n (i + 1) t { e with kv := e.kv ++ [k] } s
    | [] => (e, s)

/-- A sequence takes the pages for slots 0 … n - 1 from the pool of partition `p` (08 R214, R224). -/
def State.takePages (s : State) (p kvBytes n : Nat) (e : SeqEntry) : SeqEntry × State :=
  let want := max e.kv.length (slotPages kvBytes n)
  let ks := freeKv (e.need kvBytes n + s.mem.kvMap.length) (e.need kvBytes n) 0 s.mem.kvMap
  let s := { s with mem := { s.mem with kvMap := ks.foldl (fun m k => Sparse.put m k (KvFrame.pool p)) s.mem.kvMap } }
  match e.root, ks with
  | none, k :: t => linkPages (want - e.kv.length) e.kv.length t { e with root := some k } s
  | _, _ => linkPages (want - e.kv.length) e.kv.length ks e s

/-- KV addresses are freed, and their contents discarded (09 R268). -/
def State.freeKvPages (s : State) (ks : List Nat) : State :=
  ks.foldl (fun s k =>
    let lo := kvAddr k
    { s with mem := { s.mem with
        kvMap := Sparse.drop s.mem.kvMap k
        bytes := Sparse.clear s.mem.bytes lo (lo + 65536)
        poison := s.mem.poison.filter fun k => !inSpan lo (lo + 65536) k
        check := s.mem.check.filter fun e => !inSpan lo (lo + 65536) e.1 } }) s

/-- KV pages move to frames of another kind: their addresses stay, they are decoded as they are copied, and the engine counts them (09
R249, R254, R268, R275). -/
def State.moveKv (s : State) (ks : List Nat) (f : KvFrame) : State :=
  let s := ks.foldl (fun s k => s.moveSpan (kvAddr k) (kvAddr k + 65536) s.mem.found) (s.countCopied ks.length)
  { s with mem := { s.mem with kvMap := ks.foldl (fun m k => Sparse.put m k f) s.mem.kvMap } }

/-- A sequence without its pages. -/
def SeqEntry.bare (e : SeqEntry) : SeqEntry := { e with root := none, leaves := [], kv := [], evicted := false }

/-! ## Token rings (08 R233-R236; 18 R528) -/

/-- The value of a consumer word that the pass reads; none where the read fails (08 R235, DESIGN CHOICE, log 9;
DEDUCED, log 48). -/
def wordRead (reads : List HostRead) (addr : Nat) : Option Nat :=
  match reads.find? fun r => r.addr == addr with
  | some r => r.bytes.map leNat
  | none => none

/-- Free records of a ring as last seen (08 R235). -/
def SeqEntry.room (e : SeqEntry) : Nat := 2 ^ e.ringLog2 - (e.produced - e.seen)

/-- The entry with its consumer word reread where fewer than `n` records are free (08 R235). -/
def SeqEntry.reread (e : SeqEntry) (n : Nat) (reads : List HostRead) : SeqEntry :=
  if n ≤ e.room then e
  else match wordRead reads e.consumer with
    | some v => { e with seen := v }
    | none => e

/-- Entry `n` with its consumer word reread where fewer than `k` records are free; a read that fails is logged through AER (08 R235; 14
R400). -/
def State.rereadEntry (s : State) (n : Nat) (e : SeqEntry) (k : Nat) (reads : List HostRead) : State :=
  let failed := decide (e.room < k) && reads.any fun r => r.addr == e.consumer && r.bytes.isNone
  (if failed then s.aerLog (.word e.consumer) else s).putEntry n (e.reread k reads)

/-- The 8 bytes of a token record (08 R233). -/
def tokenRecord (token : Nat) (phase last kind : Bool) (reason position : Nat) (timing : Bool) : List Byte :=
  leBytes 4 (token + 2 ^ 20 * b2n phase + 2 ^ 21 * b2n last + 2 ^ 22 * b2n kind + 2 ^ 24 * reason) ++
    leBytes 4 (position + 2 ^ 23 * b2n timing)

/-- One record of entry `n`'s ring, and the ring's event (08 R233, R236). -/
def State.writeRecord (s : State) (n token : Nat) (last kind : Bool) (reason position : Nat) (timing : Bool) : State :=
  match s.entry n with
  | none => s
  | some e =>
    let k := e.produced
    let phase := k / 2 ^ e.ringLog2 % 2 == 0
    let rec_ := tokenRecord token phase last kind reason position timing
    let s := { s with hostOut := s.hostOut ++ [HostWrite.token (e.ringBase + 8 * (k % 2 ^ e.ringLog2)) rec_] }
    let s := s.setEntry n fun e => { e with produced := e.produced + 1, ended := last }
    if last || (e.notify != 0 && (k + 1) % e.notify == 0) then
      { s with evc := { s.evc with ring := if s.evc.ring.contains n then s.evc.ring else n :: s.evc.ring } }
    else s

/-- An end record without a token, where the ring has a free record (08 R221, R237). -/
def State.endRecord (s : State) (n reason : Nat) (reads : List HostRead) : State :=
  match s.entry n with
  | none => s
  | some e =>
    let s := s.rereadEntry n e 1 reads
    let e := e.reread 1 reads
    if e.room = 0 then s else s.writeRecord n 0 true true reason e.position false

/-- End reasons of 08 R233 (DEDUCED, log 49). -/
def endLeave : Nat := 4
def endDropped : Nat := 5
def endJobEnd : Nat := 6
def endAborted : Nat := 7
def endFault : Nat := 8
def endInvalid : Nat := 9

/-- The sequences of partition `p` end with their job: running and waiting ones receive an end record, every entry becomes
free and its KV addresses with it (08 R237; 09 R268). -/
def State.endSeqs (s : State) (p reason : Nat) (reads : List HostRead) : State :=
  (s.liveEntries p).foldl (fun s e =>
    let s := if e.2.state = .running ∨ e.2.state = .waiting then s.endRecord e.1 reason reads else s
    (s.freeKvPages e.2.held).dropEntry e.1) s

/-! ## Scale records (03 R83-R91) -/

/-- The adaptive tensors of a bundle. -/
def Bundle.adaptive (b : Bundle) : List CalRec := b.cals.filter fun k => k.adaptive

/-- A scale record read back (08 R208: a cocoon carries it). -/
def scalePairOf (bs : List Byte) : ScalePair :=
  ⟨bits (dwordAt bs 0) 0 16, bit (dwordAt bs 0) 16, dwordAt bs 1, dwordAt bs 2, dwordAt bs 3⟩

/-- A pair's state written, in the step builder and in its record. -/
def State.putPair (s : State) (p : Nat) (b : Bundle) (n t : Nat) (q : ScalePair) : State :=
  match s.run p with
  | none => s
  | some r =>
    (s.setRun p fun r => { r with pairs := Sparse.put r.pairs (pairKey n t) q }).poke (scaleAddr s r b n t) q.bytes

/-- The pair as it stands. -/
def Run.pair (r : Run) (k : CalRec) (n : Nat) : ScalePair :=
  match Sparse.find r.pairs (pairKey n k.adaptIndex) with
  | some q => q
  | none => { l := k.calL }

/-- A new sequence's pairs start from calibration (03 R88). -/
def State.freshPairs (s : State) (p : Nat) (b : Bundle) (n : Nat) : State :=
  b.adaptive.foldl (fun s k => s.putPair p b n k.adaptIndex { l := k.calL }) s

/-- The pairs of an entry leave with it. -/
def State.dropPairs (s : State) (p n : Nat) : State :=
  s.setRun p fun r => { r with pairs := Sparse.clear r.pairs (pairKey n 0) (pairKey (n + 1) 0) }

/-- The pair adapts at the end of its sequence's step (03 R83, R84). -/
def adapting (t : ReqTable) (q : ScalePair) : Bool := t.adapt != 0 && decide (t.clipThresh < q.step) && !q.sat

/-- The decision of one pair at the end of its sequence's step (03 R83-R87). -/
def adaptPair (t : ReqTable) (q : ScalePair) : ScalePair :=
  if adapting t q then
    let (l, sat) := adaptL q.l t.adapt
    { q with l := l, sat := sat, step := 0, adapts := sat32 (q.adapts + 1) }
  else { q with step := 0 }

/-- A pair's state written without its CUR_L: a value that host software has put there stands until a boundary reads it (03 R90). -/
def State.putCounts (s : State) (p : Nat) (b : Bundle) (n t : Nat) (q : ScalePair) : State :=
  match s.run p with
  | none => s
  | some r =>
    (s.setRun p fun r => { r with pairs := Sparse.put r.pairs (pairKey n t) q }).poke (scaleAddr s r b n t + 2) (q.bytes.drop 2)

/-- Every field but CUR_L of the records of partition `p` is written at a boundary, over what host software has put there (03 R90). -/
def State.putAllCounts (s : State) (p : Nat) (b : Bundle) : State :=
  match s.run p with
  | none => s
  | some r =>
    (s.liveEntries p).foldl (fun s e => b.adaptive.foldl (fun s k =>
      match Sparse.find r.pairs (pairKey e.1 k.adaptIndex) with
      | some q => s.putCounts p b e.1 k.adaptIndex q
      | none => s) s) s

/-- The decisions of sequence `n` (03 R83, R77, R78, R90): each adaptive tensor under the table that bears its number and predicts
rows, of several the first in the order of TABLES, which gives ADAPT and CLIP_THRESH (DESIGN CHOICE, log 107). -/
def State.adaptSeq (s : State) (p : Nat) (b : Bundle) (n : Nat) : State :=
  b.adaptive.foldl (fun s k =>
    match s.run p, b.tables.find? fun t => t.tensor == k.tensor && t.layout == 0 with
    | some r, some t =>
      let q := r.pair k n
      if adapting t q then s.putPair p b n k.adaptIndex (adaptPair t q) else s.putCounts p b n k.adaptIndex (adaptPair t q)
    | some r, none => s.putCounts p b n k.adaptIndex { r.pair k n with step := 0 }
    | none, _ => s) s

/-- A fault that the pass meets, with the state at that moment. -/
abbrev Pass := Except (FaultInfo × State) State

/-- The step builder met poisoned data of the job (10 R282; 20 R563). -/
def passPoison (a : Nat) (s : State) : FaultInfo × State := ({ status := 0x0F02, addr := a, space := .device }, s)

/-- The scale codes that the packed sequence `n` reads at the boundary (03 R86, R90): what its records hold, or calibration
where a code is invalid; what the host wrote to CUR_L holds (DEDUCED, log 52). -/
def readScales (p : Nat) (b : Bundle) (n : Nat) (found : List Finding) : List CalRec → State → Pass
  | [], s => .ok s
  | k :: ks, s =>
    match s.run p with
    | none => .ok s
    | some r =>
      let a := scaleAddr s r b n k.adaptIndex
      let ((bs, bad), s) := s.devRead a 2 found
      if bad then .error (passPoison a s)
      else
        let l := leNat bs
        let q := r.pair k n
        let q := if 0x80 ≤ l ∧ l ≤ 0x7F7F then { q with l := l } else { q with l := k.calL, sat := false }
        readScales p b n found ks (s.putPair p b n k.adaptIndex q)

end Sys2Proof.Machine
end

