-- ==== Sys2Proof/Machine/JobBase.lean ====
section
/-!
DEFINITION. JobBase.lean: what a job's commands and the step builder share: private memory, pending commands, parking, the
resumption of the cores (06 R153; 07 R201-R206; 08 R624).
-/
namespace Sys2Proof.Machine

/-- Bytes of the sample area of a generation job or the hit area of a query-service job (08 R624; 12 R334). -/
def sampleBytes (kind : Nat) : Nat := if kind = 0 then 0 else 1024 * 16448

/-- Board pages of a job's private memory: PRIV_BOARD and, beside it, its sample or hit area. -/
def boardNeed (b : Bundle) : Nat := ceilDiv b.res.privBoard pageBytes + ceilDiv (sampleBytes b.kind) pageBytes

/-- Stacked frames of PRIV_STACKED (07 R194). -/
def stackNeed (b : Bundle) : Nat := ceilDiv b.res.privStacked pageBytes

/-- The KV pool of a job on partition `p`, in 64 KiB frames (08 R212; 09 R269). -/
def poolFrames (s : State) (b : Bundle) : Nat := (s.diesPer * dieFrames * pageBytes - b.res.privStacked) / 65536

/-- Stacked frames that hold pinned pages: PRIV_STACKED but for the staging area, the resident ranges and the shadow copies
(09 R246, R247). -/
def pinnedPages (b : Bundle) (shadow : Bool) : Nat :=
  let resident := (b.sched.ranges.filter RangeRec.resident).foldl (fun n g => n + g.pages) 0
  let copies := if shadow then b.sched.ranges.foldl (fun n g => n + (if g.shadow then g.shadowPages else 0)) 0 else 0
  stackNeed b - (b.sched.stagePages + resident + copies)

/-! ## Parking (07 R205, R206) -/

/-- KV pages of the job of partition `p`. -/
def State.kvOf (s : State) (p : Nat) : List Nat :=
  (s.mem.kvMap.filter fun e => e.2 == .pool p || e.2 == .evict p).map (·.1)

/-- The size of a job's cocoon in bytes: KV pages, private regions, and per rank the LIVE ranges, X8-X15 and the frames of
its open contexts; sequence entries and scale records (07 R206, DEDUCED, log 20). -/
def cocoonBytes (s : State) (p : Nat) (r : Run) (b : Bundle) : Nat :=
  let live := b.live.foldl (fun n g => n + g.2) 0
  let ranks := r.cores.foldl (fun n k =>
    n + live + 32 + (s.core k).ctxs.foldl (fun m x => m + frameStride x.2.kind x.2.kReq) 0) 0
  65536 * (s.kvOf p).length + (r.privPages + r.pinPages) * pageBytes + ranks +
    (s.liveEntries p).length * (128 + 16 * b.res.adaptiveT)

/-- A cocoon handle in use: of a cocoon, or of a job that parks. -/
def cocoonUsed (s : State) (h : Nat) : Bool :=
  (s.jobs.cocoons.any fun c => c.handle == h) ||
    s.jobs.parts.any fun q => match q.job with | some r => r.state == .parking && r.cocoon == h | none => false

/-- The JOB_PARK takes effect: its cocoon's room is taken and the job enters PARKING; none where it does not fit (07
R205). -/
def State.beginPark (s : State) (p : Nat) (c : CmdRef) : Option State :=
  match s.run p with
  | none => none
  | some r =>
    match s.bundle r.bundle, lowestFree 64 (cocoonUsed s) with
    | some b, some h =>
      let pages := ceilDiv (cocoonBytes s p r b) pageBytes
      if s.boardFree < pages then none
      else
        let (base, s) := s.allocPages pages (.cocoon h)
        let s := s.setCmd c fun c => { c with pnr := true }
        some (s.setRun p fun r => { r with state := .parking, parkCmd := some c, cocoon := h, cocoonBase := base })
    | _, _ => none

/-- The pending commands act at the boundary, in acceptance order (07 R204, R205): a JOB_END ends the job; a JOB_PARK parks
it, or replies COCOON_SPACE and leaves the boundary to the next. -/
def commitPending : Nat → Nat → State → State
  | 0, _, s => s
  | k + 1, p, s =>
    match s.run p with
    | none => s
    | some r =>
      match r.pendings with
      | [] => s
      | c :: rest =>
        if !c.park then
          (s.setCmd c.cmd fun c => { c with pnr := true }).setRun p fun r => { r with state := .ending }
        else match s.beginPark p c.cmd with
          | some s => s.setRun p fun r => { r with pendings := rest }
          | none => commitPending k p ((s.setRun p fun r => { r with pendings := rest }).reply c.cmd 0x052B 0)

/-- Every pending command of partition `p` that may act. -/
def State.commit (s : State) (p : Nat) : State :=
  match s.run p with
  | none => s
  | some r => commitPending r.pendings.length p s

/-! ## The cores resume (06 R153) -/

/-- Registers X1-X5 of one core at a step entry. -/
structure EntryRegs where
  x1 : Nat
  x2 : Nat
  x3 : Nat
  x4 : Nat
  x5 : Nat
  deriving DecidableEq, Repr

/-- A core at a step entry: its registers reloaded, its marks restarted (06 R153; 09 R262). -/
def enterStep (pc : Nat) (g : EntryRegs) (c : Core) : Core :=
  { c with
    run := .running, pc := pc, loops := [], mark := none,
    x := c.x.take 1 ++ [g.x1 % 2 ^ 32, g.x2, g.x3, g.x4, g.x5] ++ c.x.drop 6 }

/-- The cores of partition `p` resume at `pc`; `regs` and `desc` by rank, the descriptor loaded at `off` (06 R153; 08
R230). -/
def State.resumeCores (s : State) (p pc off : Nat) (regs : Nat → EntryRegs) (desc : Nat → List Byte) : State :=
  match s.run p with
  | none => s
  | some r => (r.cores.zipIdx.foldl (fun s e => s.setCore e.1 fun c =>
      let c := if (desc e.2).isEmpty then c else spadWrite c off (desc e.2)
      enterStep pc (regs e.2) c) s).wake 1

/-- A self-test borrows the lowest-numbered active core of partition `p` that it has not tested: at a step boundary after the atomic pass,
where no JOB_END or JOB_PARK is pending, and once in 10 ms; the other cores wait until it is returned (20 R575). -/
def State.lend (s : State) (p : Nat) : State :=
  match s.gen.selfTest, s.run p with
  | some t, some r =>
    let soon := match Sparse.find t.lastBorrow p with | some x => decide (s.time < x + 10000000) | none => false
    if r.state ≠ .running ∨ r.borrow ≠ none ∨ r.phase = .boundary ∨ r.pendings ≠ [] ∨ soon = true then s
    else match (sortBy (fun a b => decide (a < b)) r.cores).find? fun n => !bit t.masks.coresTested n && !t.untested.contains n with
      | none => s
      | some n =>
        let t := { t with lastBorrow := Sparse.put t.lastBorrow p s.time }
        State.setRun { s with gen := { s.gen with selfTest := some t } } p fun r => { r with borrow := some n }
  | _, _ => s

/-- The first row of rank `r` where `rows` rows are divided among `n` ranks (08 R230). -/
def rankRow (rows n r : Nat) : Nat := r * rows / n

/-- The rows a descriptor area holds, over `n` ranks (08 R224 step 6, R230). -/
def rowCap (b : Bundle) (n : Nat) : Nat := n * ((b.res.descKib * 1024 - 32832) / 12)

/-- A step begins: what a job keeps of the step just closed is cleared (09 R262-R267). -/
def Run.newStep (r : Run) : Run :=
  { r with phase := .run, posted := false, prologue := false, first := false, step := r.step + 1, satCount := 0,
           current := none, judged := [], shadowed := [], timing := false, again := false }

/-- The step descriptors, one per rank, in private board memory (08 R230). -/
def State.placeDescs (s : State) (p : Nat) (b : Bundle) (desc : Nat → List Byte) : State :=
  match s.run p with
  | none => s
  | some r => (List.range r.cores.length).foldl (fun s k => s.poke (r.descBase + k * b.res.descKib * 1024) (desc k)) s

end Sys2Proof.Machine
end

