-- ==== Sys2Proof/Machine/QuerySearch.lean ====
section
/-!
DEFINITION. QuerySearch.lean: the search phase of a query step (12 R337-R352).
-/
namespace Sys2Proof.Machine

/-! ## Distance keys (12 R344-R347) -/

/-- The order code of an exact value (12 R344). -/
def ordCode (v : Dyadic) : Nat :=
  if v.m = 0 then 0x80000000
  else
    let a := v.m.natAbs
    let l := Nat.log2 a
    let x : Int := v.e + l
    let m := (if 21 ≤ l then a / 2 ^ (l - 21) else a * 2 ^ (21 - l)) - 2 ^ 21
    let u := (x + 512).toNat * 2 ^ 21 + m
    if 0 < v.m then 0x80000000 + u else 0x7FFFFFFF - u

/-- The distance key of a query against a record (12 R345, R346). -/
def distanceKey (metric : Nat) (q x : Code) : Nat :=
  let sum := dotExact q.ints x.ints
  let lq := l2Val q.l2
  let lx := l2Val x.l2
  if metric = 0 then ordCode ((lq.mul lx).mul ⟨sum, 0⟩)
  else if metric = 2 then
    let a := (lq.mul lq).mul ⟨q.norm, 0⟩
    let b := (lx.mul lx).mul ⟨x.norm, 0⟩
    let c := (lq.mul lx).mul ⟨-2 * sum, 0⟩
    0xFFFFFFFF - ordCode ((a.add b).add c)
  else if q.norm = 0 ∨ x.norm = 0 then 0x80000000
  else
    let t := 2 ^ 30 * sum.natAbs ^ 2 / (q.norm * x.norm)
    if 0 ≤ sum then 0x80000000 + t else 0x80000000 - t

/-! ## The centroid stage (12 R338, R339) -/

/-- A centroid with its key; `expanded`: its edges have been followed. -/
structure Cand where
  cent : Nat
  key : Nat
  expanded : Bool := false
  deriving DecidableEq, Repr

/-- A centroid ranks above another (12 R338). -/
def Cand.above (a b : Cand) : Bool := decide (b.key < a.key) || (a.key == b.key && decide (a.cent < b.cent))

/-- The key of centroid `c`. -/
def centKey (s : State) (d : IndexDef) (q : Code) (c : Nat) : Nat := distanceKey d.metric q (s.centCode d c)

/-- The walk's state: centroids offered, and the pool, best first. -/
structure Walk where
  visited : List Nat := []
  pool : List Cand := []
  deriving DecidableEq, Repr

/-- Offer centroid `c` where it is live and has not been visited (12 R339). -/
def Walk.visit (s : State) (d : IndexDef) (q : Code) (epoch ef : Nat) (w : Walk) (c : Nat) : Walk :=
  if w.visited.contains c || !decide (c < d.centCap) || !(s.dirEnt d c).live epoch then w
  else ⟨c :: w.visited, (insertBy Cand.above ⟨c, centKey s d q c, false⟩ w.pool).take ef⟩

/-- The numbers of `n` slots of a node or entry list. -/
def State.numbers (s : State) (a n : Nat) : List Nat := (List.range n).map fun i => s.word (a + 4 * i)

/-- The loop of the walk (12 R339). -/
def walkLoop (s : State) (d : IndexDef) (q : Code) (epoch ef v : Nat) : Nat → Walk → Walk
  | 0, w => w
  | k + 1, w =>
    match w.pool.find? fun c => !c.expanded with
    | none => w
    | some c =>
      let w := { w with pool := mapIf (fun x => x.cent == c.cent) (fun x => { x with expanded := true }) w.pool }
      walkLoop s d q epoch ef v k
        ((s.numbers (d.nodeAddr v c.cent) d.degree).foldl (Walk.visit s d q epoch ef) w)

/-- The graph version that serves an epoch (11 R324). -/
def Index.version (x : Index) (epoch : Nat) : Nat := if x.vFrom ≤ epoch then x.vCur else 1 - x.vCur

/-- The centroids chosen, best first (12 R338, R339), and the centroids whose records were read. -/
def chooseLists (s : State) (x : Index) (q : Code) (r : QueryRec) (epoch : Nat) : List Nat × List Nat :=
  let d := x.defn
  if d.graph then
    let v := x.version epoch
    let w := (s.numbers (d.entryListAddr v) 16).foldl (Walk.visit s d q epoch r.ef) {}
    let w := walkLoop s d q epoch r.ef v (d.centCap + 1) w
    ((w.pool.take r.nprobe).map (·.cent), w.visited)
  else
    let live := s.liveCents d epoch
    (((sortBy Cand.above (live.map fun c => ⟨c, centKey s d q c, false⟩)).take r.nprobe).map (·.cent), live)

/-! ## Filters (12 R341, R348-R351) -/

/-- The value of a leaf's column, as an integer of the term's signedness. -/
def termValue (s : State) (d : IndexDef) (t : Term) (slot : Nat) : Int :=
  let v := s.column d t.col slot
  if t.sgn then signed (8 * d.colBytes t.col) v else v

/-- An operand, as an integer of the term's signedness. -/
def termOperand (t : Term) (v : Nat) : Int := if t.sgn then signed 64 v else v

/-- A leaf's truth value. -/
def leafTrue (s : State) (d : IndexDef) (values : List Nat) (t : Term) (slot : Nat) : Bool :=
  let v := termValue s d t slot
  let a := termOperand t t.a
  match t.op with
  | 0 => v == a
  | 1 => v != a
  | 2 => decide (v < a)
  | 3 => decide (v ≤ a)
  | 4 => decide (a < v)
  | 5 => decide (a ≤ v)
  | 6 => decide (a ≤ v ∧ v ≤ termOperand t t.b)
  | _ => ((values.drop t.a).take t.count).any fun x => v == termOperand t x

/-- The postfix program on a stack of truth values (12 R348). -/
def evalTerms (s : State) (d : IndexDef) (values : List Nat) (slot : Nat) : List Term → List Bool → Bool
  | [], st => st.headD true
  | t :: ts, st =>
    match t.op, st with
    | 8, b :: a :: u => evalTerms s d values slot ts ((a && b) :: u)
    | 9, b :: a :: u => evalTerms s d values slot ts ((a || b) :: u)
    | 10, a :: u => evalTerms s d values slot ts ((!a) :: u)
    | _, u => evalTerms s d values slot ts (leafTrue s d values t slot :: u)

/-- The bit of a supplied filter at a slot (12 R350). -/
def Filter.allows (f : Filter) (slot : Nat) : Bool :=
  let i := slot % 65536
  match f.chunks.find? fun c => c.1 == slot / 65536 with
  | none => false
  | some (_, .none) => false
  | some (_, .all) => true
  | some (_, .runs rs) => rs.any fun r => decide (r.1 ≤ i ∧ i < r.1 + r.2)
  | some (_, .raw bs) => bit (bs.getD (i / 8) 0).toNat (i % 8)

/-- The slot is allowed (12 R341). -/
def allowed (s : State) (d : IndexDef) (r : QueryRec) (slot : Nat) : Bool :=
  (match r.filter with
    | none => true
    | some h => match Sparse.find s.idx.filters h with | some f => f.allows slot | none => false) &&
    (r.terms.isEmpty || evalTerms s d r.values slot r.terms [])

/-! ## Prefilter, cap, rerank (12 R340, R342, R343) -/

/-- The number of differing bits of two bytes. -/
def diffBits (a b : Byte) : Nat := ((List.range 8).map fun i => b2n (bit (a ^^^ b).toNat i)).sum

/-- The Hamming count of two sketches (12 R340): bits at DIM and above are zero in both. -/
def hamming (a b : List Byte) : Nat := ((a.zip b).map fun e => diffBits e.1 e.2).sum

/-- A candidate of C: Hamming count, item identifier, code address. -/
structure Hit where
  ham : Nat
  id : Nat
  code : Nat
  deriving DecidableEq, Repr

/-- The smallest count at which as many candidates lie at or below it as are wanted. -/
def capAt (c : List Hit) (want : Nat) : Nat → Nat → Nat
  | 0, t => t
  | k + 1, t => if want ≤ (c.filter fun h => decide (h.ham ≤ t)).length then t else capAt c want k (t + 1)

/-- The survivors, THRESH and CAPPED (12 R342). -/
def survivors (r : QueryRec) (dim : Nat) (c : List Hit) : List Hit × Nat × Bool :=
  if c.length ≤ r.rerankMax then (c, r.hamMax, false)
  else
    let t := capAt c r.rerankMax (dim + 1) 0
    let low := c.filter fun h => decide (h.ham < t)
    let at_ := sortBy (fun a b => decide (a.id < b.id)) (c.filter fun h => h.ham == t)
    (low ++ at_.take (r.rerankMax - low.length), t, true)

/-- One query's search: the hit list and the device ranges read. -/
structure Found where
  list : HitList
  reads : List (Nat × Nat)
  deriving DecidableEq, Repr

/-- The stages of 12 R337 for a query with its code. -/
def search (s : State) (x : Index) (n : Nat) (r : QueryRec) (epoch : Nat) (timing : Bool) (q : Code) : Found :=
  let d := x.defn
  let (lists, seen) := chooseLists s x q r epoch
  let entries := lists.flatMap fun c => s.chainEntries d ((s.dirEnt d c).chainAt epoch)
  let sketch := sketchOf d q.codes
  let visible := entries.filter fun e => (s.item d e.slot).visible epoch
  let c := visible.filterMap fun e =>
    let h := hamming sketch (s.devBytes (d.sketchAddr e.seg e.place) d.sk)
    if h ≤ r.hamMax && allowed s d r e.slot then some (Hit.mk h (s.item d e.slot).id e.code) else none
  let (live, thresh, capped) := survivors r d.dim c
  let hits := live.map fun h => (⟨distanceKey d.metric q (codeOf d (s.devBytes h.code d.cr)), h.id⟩ : TopEntry)
  let list : HitList :=
    { epoch := epoch, index := n, capped := capped, timing := timing, lists := lists.length,
      candidates := sat32 c.length, survivors := live.length, thresh := thresh, scanned := entries.length,
      chainId := r.mergeId, kReq := r.k, seen := live.length, entries := mergeEntries r.k [] hits }
  { list := list
    reads := (seen.map fun k => (d.centAddr k, d.cr)) ++ (seen.map fun k => (d.dirAddr k, 64)) ++
      (entries.flatMap fun e => [(d.entryAddr e.seg e.place, 16), (d.itemAddr e.slot, 24)]) ++
      (visible.map fun e => (d.sketchAddr e.seg e.place, d.sk)) ++ (live.map fun h => (h.code, d.cr)) }

/-- The 32-byte query header of a hit list (12 R352). -/
def HitList.header (h : HitList) : List Byte :=
  leBytes 4 h.epoch ++ leBytes 4 (h.index + 64 * b2n h.capped + 128 * b2n h.timing) ++ leBytes 4 h.lists ++
    leBytes 4 h.candidates ++ leBytes 4 h.survivors ++ leBytes 4 h.thresh ++ leBytes 8 h.scanned

/-- The bytes of a hit list (12 R352; 05 R141, R142). -/
def HitList.bytes (h : HitList) : List Byte :=
  h.header ++ hdrBytes ⟨4, false, false, h.chainId, 0, h.entries.length, h.kReq, h.seen⟩ ++ h.entries.flatMap entryBytes

/-- The RESULT of a query's reply (12 R353). -/
def HitList.result (h : HitList) : Nat :=
  h.epoch + 2 ^ 32 * h.entries.length + 2 ^ 48 * b2n h.capped + 2 ^ 49 * b2n h.timing

/-! ## The phase -/

/-- Bytes of the code area of each query of a step: the largest CR (11 R302). -/
def codeStride : Nat := 2176

/-- Where the code record of the query at place `i` lies (12 R336), after the step descriptors. -/
def queryCodeAddr (r : Run) (b : Bundle) (i : Nat) : Nat :=
  r.descBase + r.cores.length * b.res.descKib * 1024 + codeStride * i

/-- A granule of a range carries the poison pattern (DEDUCED, log 51). -/
def rangePoisoned (s : State) (rs : List (Nat × Nat)) : Option Nat :=
  (s.mem.poison.find? fun k => k == s.keyOf (k % 2 ^ 48) && rs.any fun r => meets (64 * (k % 2 ^ 48), 64) r).map fun k => k % 2 ^ 48

/-- The findings of the phase's reads take effect (10 R280, R281). -/
def applyFindings (found : List Finding) (s : State) : State :=
  found.foldl (fun s f => (s.readGranule f.granule found false).2) s

/-- One query of the step: its hit list in the hit area, or the address that faults the job with poison (10 R282; 02 R45). -/
def searchOne (r : Run) (b : Bundle) (s : State) (k : Query) : Except Nat State :=
  match k.place, s.index k.rec_.index with
  | some i, some x =>
    let a := queryCodeAddr r b i
    let q := codeOf x.defn (s.devBytes a x.defn.cr)
    if !scaleOk q.l2 then .error a
    else
      let f := search s x k.rec_.index k.rec_ k.epoch r.timing q
      match rangePoisoned s ((a, x.defn.cr) :: f.reads) with
      | some g => .error (64 * g)
      | none =>
        let s := { s with idx := { s.idx with
          queries := mapIf (fun o => o.cmd == k.cmd) (fun o => { o with hits := some f.list }) s.idx.queries } }
        .ok (s.poke (r.sampleBase + 16448 * i) f.list.bytes)
  | _, _ => .ok s

/-- Every query of the step, in list order. -/
def searchAll (r : Run) (b : Bundle) : List Query → State → Except Nat State
  | [], s => .ok s
  | k :: t, s =>
    match searchOne r b s k with
    | .error a => .error a
    | .ok s => searchAll r b t s

/-- The queries packed in the step of a job. -/
def State.packed (s : State) (job : Nat) : List Query := s.idx.queries.filter fun q => q.job == job && q.place.isSome

/-- QUERY_SEARCH_PHASE: the search programs of partition `p` run (12 R334). -/
def execQuerySearchPhase (p : Nat) (found : List Finding) (s : State) : Out :=
  findingOut found s fun s =>
  match s.run p with
  | none => done s
  | some r =>
    match s.bundle r.bundle with
    | none => done s
    | some b =>
      if r.state ≠ .running ∨ r.phase ≠ .search then done s
      else
        match searchAll r b (s.packed r.number) (applyFindings found s) with
        | .error a => done ((applyFindings found s).latch (.job p) { status := 0x0F03, addr := a, space := .device })
        | .ok s => done (s.setRun p fun r => { r with phase := if b.view.postEntry = 0xFFFF then .boundary else .post })

/-- The entry registers of a query step (12 R336). -/
def queryRegs (r : Run) (b : Bundle) (queries tokens step : Nat) (k : Nat) : EntryRegs :=
  let n := r.cores.length
  { x1 := step, x2 := rankRow tokens n (k + 1) - rankRow tokens n k, x3 := b.res.descOffset, x4 := queries, x5 := tokens }

/-- Token rows of packed queries. -/
def tokenRows (qs : List Query) : Nat := (qs.map fun q => q.rec_.toks.length).sum

/-- QUERY_POST_PHASE: the cores resume at POST_ENTRY with the hit lists complete (12 R334). -/
def execQueryPostPhase (p : Nat) (s : State) : Out :=
  match s.run p with
  | none => done s
  | some r =>
    match s.bundle r.bundle with
    | none => done s
    | some b =>
      if r.state ≠ .running ∨ r.phase ≠ .post then done s
      else
        let (queries, tokens) := r.queryStep.getD (0, 0)
        let regs := queryRegs r b queries tokens (r.step - 1)
        done ((s.resumeCores p b.view.postEntry b.res.descOffset regs fun _ => []).setRun p fun r =>
          { r with phase := .run, posted := true })

/-! ## The pass of a query-service job (12 R334-R336) -/

/-- The reply of a query of the step just run (12 R352, R353). -/
def replyQuery (p : Nat) (s : State) (q : Query) : State :=
  match q.hits with
  | none => s
  | some h =>
    let s := if q.rec_.hits then s.hostData q.cmd 1 h.bytes else s
    let s := { s with idx := { s.idx with queries := s.idx.queries.filter fun o => o.cmd != q.cmd } }
    (s.histogram (10 + p) (s.time - q.accepted)).ok q.cmd h.result

/-- Queries that the next step takes, in acceptance order (12 R335). -/
def takeQueries (cap : Nat) : Nat → Nat → List Query → List Query
  | _, _, [] => []
  | n, rows, q :: t =>
    let rows' := rows + q.rec_.toks.length
    if 1024 ≤ n ∨ 65536 < rows' ∨ cap < rows' then [] else q :: takeQueries cap (n + 1) rows' t

/-- A record of the query list (12 R336). -/
def queryListBytes (r : Run) (b : Bundle) (q : Query) (i row0 : Nat) : List Byte :=
  leBytes 4 (q.rec_.index + 64 * b2n q.rec_.code) ++ leBytes 4 q.rec_.toks.length ++ leBytes 4 row0 ++
    leBytes 8 (queryCodeAddr r b i) ++ leBytes 4 q.epoch ++ leBytes 4 q.serial ++ leBytes 4 0

/-- The query list, rows numbered in list order. -/
def queryList (r : Run) (b : Bundle) : Nat → Nat → List Query → List Byte
  | _, _, [] => []
  | i, row, q :: t => queryListBytes r b q i row ++ queryList r b (i + 1) (row + q.rec_.toks.length) t

/-- The step descriptor of rank `k` (12 R336). -/
def queryDesc (r : Run) (b : Bundle) (qs : List Query) (k : Nat) : List Byte :=
  let n := r.cores.length
  let rows := tokenRows qs
  let lo := rankRow rows n k
  let count := rankRow rows n (k + 1) - lo
  let map := qs.zipIdx.flatMap fun e => e.1.rec_.toks.map fun t => (e.2, e.1.serial, t)
  let mine := (map.drop lo).take count
  leBytes 4 r.step ++ leBytes 4 qs.length ++ leBytes 4 rows ++ leBytes 4 rows ++ leBytes 4 lo ++ leBytes 4 count ++
    leBytes 4 64 ++ leBytes 4 (64 + 32 * qs.length) ++ leBytes 4 (b2n r.shadow) ++ leBytes 8 r.sampleBase ++
    List.replicate 20 0 ++ queryList r b 0 0 qs ++ (mine.flatMap fun m => leBytes 4 m.1 ++ leBytes 4 m.2.1) ++
    (mine.flatMap fun m => leBytes 4 m.2.2)

/-- The next step is packed, or the cores stay held (12 R335). -/
def packQueries (p : Nat) (b : Bundle) (s : State) : State :=
  match s.run p with
  | none => s
  | some r =>
    let waiting := s.idx.queries.filter fun q => q.job == r.number && q.place.isNone
    let qs := takeQueries (rowCap b r.cores.length) 0 0 waiting
    if qs = [] then s.setRun p fun r => { r with phase := .held }
    else
      let s := qs.zipIdx.foldl (fun s e =>
        let s := { s with idx := { s.idx with
          queries := mapIf (fun o => o.cmd == e.1.cmd) (fun o => { o with place := some e.2 }) s.idx.queries } }
        if e.1.rec_.code then s.poke (queryCodeAddr r b e.2) e.1.rec_.input else s) s
      let s := s.placeDescs p b (queryDesc r b qs)
      let s := s.resumeCores p b.view.stepEntry b.res.descOffset (queryRegs r b qs.length (tokenRows qs) r.step)
        (queryDesc r b qs)
      s.setRun p fun r => { r.newStep with stepStart := s.time, queryStep := some (qs.length, tokenRows qs) }

/-- The atomic pass of a query-service job (12 R334, R335; 11 R320; 07 R204, R205). -/
def queryPass (p : Nat) (b : Bundle) (r : Run) (s : State) : State :=
  let s := ((s.packed r.number).foldl (replyQuery p) s).releaseAll
  let s := s.commit p
  match s.run p with
  | some r => if r.state = .running then packQueries p b s else s
  | none => s

end Sys2Proof.Machine
end

