-- ==== Sys2Proof/Machine/Sampler.lean ====
section
/-!
DEFINITION. Sampler.lean: the choice of a token from a sampling list (08 R232, R624).
-/
namespace Sys2Proof.Machine

/-- The integer nearest to 2^31 × 2^(-j/1024), bit by bit: the greatest n with 2 n - 1 ≤ 2^32 × 2^(-j/1024) (08 R232). -/
def expBits (j : Nat) : Nat → Nat → Nat
  | 0, n => n
  | k + 1, n => expBits j k (if (2 * (n + 2 ^ k) - 1) ^ 1024 ≤ 2 ^ (32768 - j) then n + 2 ^ k else n)

/-- E[j] of 08 R232. -/
def expE (j : Nat) : Nat := expBits j 32 0

/-- The binary32 value that a ranking key stands for (05 R146). -/
def valueOfKey (k : Nat) : B32 :=
  if k = 0 then nan32 else if 0x80000000 ≤ k then k - 0x80000000 else 2 ^ 32 - 1 - k

/-- The weight of an entry whose logit is `x`, where the best entry's is `x0` (08 R232 step 2). -/
def sampleWeight (x0 invTemp x : B32) : Nat :=
  let d := mul32 (mul32 (sub32 x0 x) invTemp) 0x3FB8AA3B
  if !isFinite32 d then 0
  else
    let t := Dyadic.floor ⟨(val32 d).m, (val32 d).e + 10⟩
    if t < 0 ∨ 65536 ≤ t then 0 else expE (t.toNat % 1024) / 2 ^ (t.toNat / 1024)

/-- Cumulative sums, best first (08 R232 step 3). -/
def cumulate : Nat → List Nat → List Nat
  | _, [] => []
  | c, w :: t => (c + w) :: cumulate (c + w) t

/-- The first sum that satisfies `p`: its place. -/
def firstPlace (p : Nat → Bool) : List Nat → Nat
  | [] => 0
  | c :: t => if p c then 0 else firstPlace p t + 1

/-- The token of a sampling list, best first (08 R232). `pos`: the position the token will occupy. -/
def sampleToken (sampling : Bool) (topP : Nat) (invTemp : B32) (seed pos : Nat) (es : List TopEntry) : Nat :=
  let best := es.headD ⟨0, 0⟩
  let x0 := valueOfKey best.key
  if !sampling || !isFinite32 x0 then best.pos
  else
    let cs := cumulate 0 (es.map fun e => sampleWeight x0 invTemp (valueOfKey e.key))
    let total := cs.getLastD 0
    let ch := cs.getD (firstPlace (fun c => decide ((topP + 1) * total ≤ 65536 * c)) cs) total
    let u := mix (BitVec.ofNat 64 seed ^^^ mix (BitVec.ofNat 64 pos + 0x9E3779B97F4A7C15#64))
    let r := u.toNat * ch / 2 ^ 64
    (es.getD (firstPlace (fun c => decide (r < c)) cs) best).pos

end Sys2Proof.Machine
end

