-- ==== Sys2Proof/Machine/StepBuild.lean ====
section
/-!
DEFINITION. StepBuild.lean: the atomic pass of a generation job (08 R224-R236; 03 R83-R90; 01 R29).
-/
namespace Sys2Proof.Machine

/-! ## Step 1: close the step just run -/

/-- The program fault of a sampling frame that breaks its rules (08 R624): CHAIN_FORMAT, no core. -/
def badFrame (s : State) : FaultInfo × State := ({ status := 0x0510, reason := reasonChainFormat }, s)

/-- The token of the sequence at place `i` of the step's list (08 R624). -/
def frameToken (r : Run) (kv : KvRecord) (i : Nat) (w : WorkItem) (e : SeqEntry) (found : List Finding) (s : State) :
    Except (FaultInfo × State) (Nat × State) :=
  let a := r.sampleBase + 16448 * i
  let ((h, bad), s) := s.devRead a 32 found
  if bad then .error (passPoison a s)
  else
    let count := dwordAt h 4 % 65536
    if bits (dwordAt h 0) 0 8 ≠ 4 ∨ count = 0 ∨ e.sampleK < count then .error (badFrame s)
    else
      let ((body, bad), s) := s.devRead (a + 32) (16 * count) found
      let es := entriesOf body count
      if bad then .error (passPoison a s)
      else if es.any fun x => decide (kv.vocab ≤ x.pos) then .error (badFrame s)
      else .ok (sampleToken e.smode e.topP e.invTemp e.seed (w.firstSlot + w.rows) es, s)

/-- The tokens of the step, in work-list order; every frame is read before any record is written (DESIGN CHOICE, log 58). -/
def stepTokens (r : Run) (kv : KvRecord) (found : List Finding) : List (WorkItem × Nat) → State →
    Except (FaultInfo × State) (List (WorkItem × Option Nat) × State)
  | [], s => .ok ([], s)
  | (w, i) :: t, s =>
    let next := fun (tok : Option Nat) (s : State) =>
      match stepTokens r kv found t s with
      | .error e => Except.error e
      | .ok (l, s) => .ok ((w, tok) :: l, s)
    match s.entry w.entry with
    | none => next none s
    | some e =>
      if w.decode || w.lastChunk then
        match frameToken r kv i w e found s with
        | .error f => .error f
        | .ok (tok, s) => next (some tok) s
      else next none s

/-- The stop condition that the token meets, 0 for none (08 R226). -/
def stopReason (kv : KvRecord) (e : SeqEntry) (token : Nat) : Nat :=
  if e.stops.contains token then 1 else if e.generated = e.maxNew then 2
  else if e.position = kv.contextLimit - 1 then 3 else 0

/-- One sequence of the step is closed (08 R224 step 1). -/
def closeSeq (timing : Bool) (kv : KvRecord) (s : State) (a : WorkItem × Option Nat) : State :=
  let (w, token) := a
  let s := s.setEntry w.entry fun e =>
    let e := { e with position := e.position + w.rows }
    if w.decode then e
    else { e with pending := e.pending - w.rows, toks := e.toks.drop w.rows, prefill := !w.lastChunk }
  match token with
  | none => s
  | some t =>
    let s := s.setEntry w.entry fun e =>
      { e with seqStep := e.seqStep + 1, generated := e.generated + 1, lastTok := t }
    match s.entry w.entry with
    | none => s
    | some e =>
      let stop := stopReason kv e t
      let s := s.setEntry w.entry fun e => { e with stop := stop }
      s.writeRecord w.entry t (stop != 0) false stop e.position timing

/-- A sequence that this pass frees takes no decision (03 R88). -/
def SeqEntry.goes (e : SeqEntry) : Bool := e.leaving || (e.stop != 0 && !e.keep)

/-- Step 1 of 08 R224. -/
def closeStep (p : Nat) (b : Bundle) (kv : KvRecord) (r : Run) (found : List Finding) (s : State) : Pass :=
  match stepTokens r kv found r.work.zipIdx s with
  | .error e => .error e
  | .ok (l, s) =>
    let s := l.foldl (closeSeq r.timing kv) s
    .ok (l.foldl (fun s a =>
      match a.2, s.entry a.1.entry with
      | some _, some e => if e.goes then s else s.adaptSeq p b a.1.entry
      | _, _ => s) s)

/-! ## Step 2: commands, leaves, stops -/

/-- A leave writes no end record: the sequence's last record ended it, or it is dropped (08 R221). -/
def SeqEntry.silent (e : SeqEntry) : Bool := e.ended || e.state == .dropped

/-- Entry `n` after step 2 (08 R224): freed, idle, or unchanged. -/
def stopEntry (p : Nat) (reads : List HostRead) (s : State) (n : Nat) : State :=
  match s.entry n with
  | none => s
  | some e =>
    if e.goes then
      let s := if e.silent then s else s.endRecord n endLeave reads
      ((s.freeKvPages e.held).dropPairs p n).dropEntry n
    else if e.stop ≠ 0 then s.setEntry n fun e => { e with state := .idle, stop := 0, reason := 0 }
    else s

/-- Whether a leave is the first of its sequence among those of a pass. -/
def firstLeave : List PendingLeave → List (PendingLeave × Bool)
  | [] => []
  | l :: t => (l, true) :: (firstLeave t).map fun m => (m.1, m.2 && m.1.entry != l.entry)

/-- The RESULT of a leave (16 R478): POSITION and PRODUCED as the pass leaves them. -/
def leaveResult (e : SeqEntry) : Nat := e.position + 2 ^ 32 * (e.produced % 2 ^ 32)

/-- The reply of a leave (08 R221): `before`, the sequence at the start of step 2; `after`, what it was when freed. -/
def replyLeave (before : State) (records : List (Nat × SeqEntry)) (s : State) (a : PendingLeave × Bool) : State :=
  let (l, first) := a
  let result := match records.find? fun r => r.1 == l.entry with | some r => leaveResult r.2 | none => 0
  let stopped := match before.entry l.entry with | some e => e.stop != 0 | none => true
  s.reply l.cmd (if first && !stopped then 0 else 0x0607) (if first && !stopped then result else 0)

/-- The entries that step 2 frees, with their end records written. -/
def stopEntries (p : Nat) (reads : List HostRead) : List Nat → State → State × List (Nat × SeqEntry)
  | [], s => (s, [])
  | n :: t, s =>
    let gone := match s.entry n with
      | some e =>
        if e.goes then
          let s' := if e.silent then s else s.endRecord n endLeave reads
          (s'.entry n).toList.map fun e => (n, e)
        else []
      | none => []
    let (s, l) := stopEntries p reads t (stopEntry p reads s n)
    (s, gone ++ l)

/-- Step 2 of 08 R224 (DEDUCED, log 56). -/
def stopStep (p : Nat) (reads : List HostRead) (s : State) : State :=
  let mine := s.seqs.leaves.filter fun l => l.partition == p
  let before := s
  let s := { s with seqs := { s.seqs with leaves := s.seqs.leaves.filter fun l => l.partition != p } }
  let (s, gone) := stopEntries p reads ((s.liveEntries p).map (·.1)) s
  (firstLeave mine).foldl (replyLeave before gone) s

/-! ## Steps 3 and 4: rings, and pages for continuing sequences -/

/-- PRIORITY descending, then ARRIVAL ascending (08 R224). -/
def senior (a b : Nat × SeqEntry) : Bool :=
  decide (b.2.priority < a.2.priority) || (a.2.priority == b.2.priority && decide (a.2.arrival < b.2.arrival))

/-- Running entries of partition `p`. -/
def runningSeqs (s : State) (p : Nat) : List (Nat × SeqEntry) := (s.liveEntries p).filter fun e => e.2.state == .running

/-- Step 3 of 08 R224: of the running sequences `l`, those that sit out for their rings. -/
def ringStep (l : List (Nat × SeqEntry)) (reads : List HostRead) (s : State) : State × List Nat :=
  l.foldl (fun a e =>
    let x := e.2.reread 2 reads
    let s := a.1.rereadEntry e.1 e.2 2 reads
    if x.room < 2 then (s.putEntry e.1 { x with reason := 4 }, e.1 :: a.2) else (s, a.2)) (s, [])

/-- The idle sequence `a` is older than `b` (08 R225). -/
def older (a b : Nat × SeqEntry) : Bool :=
  decide (b.2.age < a.2.age) || (a.2.age == b.2.age &&
    (decide (a.2.priority < b.2.priority) || (a.2.priority == b.2.priority && decide (a.2.arrival < b.2.arrival))))

/-- A sequence becomes dropped (08 R224, R229; 18 R527; 03 R88). -/
def State.dropSeq (s : State) (p n reason endReason : Nat) (reads : List HostRead) : State :=
  match s.entry n with
  | none => s
  | some e =>
    let s := ((s.freeKvPages e.held).dropPairs p n).setEntry n fun e =>
      { e.bare with state := .dropped, reason := reason, prefill := false, pending := 0, toks := [], segs := [] }
    (s.endRecord n endReason reads).partFlags p fun f => { f with seqDrop := true }

/-- Idle sequences are evicted, or dropped where the eviction area is exhausted, until `need` pages are free (08 R224 step 4,
R225; 09 R270). -/
def makeRoom (p need : Nat) (reads : List HostRead) : Nat → State → State
  | 0, s => s
  | k + 1, s =>
    match s.run p with
    | none => s
    | some r =>
      if need ≤ s.poolFree p r then s
      else
        match sortBy older ((s.liveEntries p).filter fun e => e.2.state == .idle) with
        | [] => s
        | v :: _ =>
          if v.2.pages ≤ s.evictFree p r then
            makeRoom p need reads k ((s.moveKv v.2.held (.evict p)).setEntry v.1 fun e =>
              { e with state := .parked, evicted := true })
          else makeRoom p need reads k (s.dropSeq p v.1 8 endDropped reads)

/-- Step 4 of 08 R224. -/
def pageStep (p : Nat) (kv : KvRecord) (reads : List HostRead) (a : State × List Nat) : State × List Nat :=
  let (s, out) := a
  let l := sortBy senior ((runningSeqs s p).filter fun e => !out.contains e.1 && !e.2.prefill)
  l.foldl (fun a x =>
    let need := x.2.need kv.kvBytes (x.2.position + 1)
    let s := makeRoom p need reads (a.1.liveEntries p).length a.1
    match s.run p with
    | none => (s, a.2)
    | some r =>
      if need ≤ s.kvRoom p r then
        let (e, s) := s.takePages p kv.kvBytes (x.2.position + 1) x.2
        (s.putEntry x.1 e, a.2)
      else (s.setEntry x.1 fun e => { e with reason := 5 }, x.1 :: a.2)) (s, out)

/-! ## Step 5: admission -/

/-- The job may read the bytes of a segment (08 R218): every byte lies in a region that the bundle declares or the start command
grants, on an allocated page. -/
def segReach (s : State) (r : Run) (a n : Nat) : Bool :=
  let regions := match s.bundle r.bundle with
    | some b => (b.view.declared.map fun d => (d.1, d.1 + d.2)) ++
        b.refs.map fun w => (w.addr, w.addr + ceilDiv w.len pageBytes * pageBytes)
    | none => []
  (List.range (ceilDiv (a % 64 + n) 64)).all fun i =>
    let g := a / 64 * 64 + 64 * i
    s.served g &&
      (r.grants.any (grantCovers s g false) || spanned regions.length (max a g) (min (a + n) (g + 64)) regions)

/-- 32-bit tokens of a byte string. -/
def tokensOf (bs : List Byte) : List Nat := (List.range (bs.length / 4)).map fun i => dwordAt bs i

/-- The tokens of the blocks of a kind-2 segment (08 R218). -/
def blockTokens (g : Seg) (found : List Finding) : Nat → Nat → State → Except (FaultInfo × State) (List Nat × State)
  | 0, _, s => .ok ([], s)
  | k + 1, a, s =>
    let ((c, bad), s) := s.devRead (a + g.countOff) 4 found
    if bad then .error (passPoison a s)
    else
      let n := min (leNat c) ((4096 - g.hdr) / 4)
      let ((bs, bad), s) := s.devRead (a + g.hdr) (4 * n) found
      if bad then .error (passPoison a s)
      else match blockTokens g found k (a + 4096) s with
        | .error e => .error e
        | .ok (l, s) => .ok (tokensOf bs ++ l, s)

/-- The tokens of the segments, in order; none where a segment cannot be read (08 R218). -/
def segTokens (r : Run) (found : List Finding) : List Seg → State → Except (FaultInfo × State) (Option (List Nat) × State)
  | [], s => .ok (some [], s)
  | g :: t, s =>
    let one : Except (FaultInfo × State) (Option (List Nat) × State) :=
      if g.kind = 0 then .ok (some g.toks, s)
      else if g.kind = 1 then
        if segReach s r g.addr (4 * g.count) then
          let ((bs, bad), s) := s.devRead g.addr (4 * g.count) found
          if bad then .error (passPoison g.addr s) else .ok (some (tokensOf bs), s)
        else .ok (none, s)
      else if segReach s r g.addr (4096 * g.count) then
        match blockTokens g found g.count g.addr s with
        | .error e => .error e
        | .ok (l, s) => .ok (some l, s)
      else .ok (none, s)
    match one with
    | .error e => .error e
    | .ok (none, s) => .ok (none, s)
    | .ok (some l, s) =>
      match segTokens r found t s with
      | .error e => .error e
      | .ok (none, s) => .ok (none, s)
      | .ok (some m, s) => .ok (some (l ++ m), s)

/-- The gate of entry `n` is open: it bears on a join, not on a feed (16 R481, DEDUCED, log 21). The cell of another module has been read for
this pass (01 R29; 17 R510, R514). -/
def gateOpen (s : State) (r : Run) (n : Nat) (e : SeqEntry) : Bool :=
  !e.gated || e.root.isSome ||
    match r.binding e.gateBind with
    | none => false
    | some b =>
      if b.module = s.gen.moduleId then decide (e.gateValue ≤ s.cell b.cell)
      else match r.gates.find? fun g => g.entry == n with
        | some ⟨_, _, _, _, some v⟩ => decide (e.gateValue ≤ v)
        | _ => false

/-- Waiting entries, in arrival order (DEDUCED, log 57). -/
def waitingSeqs (s : State) (p : Nat) : List (Nat × SeqEntry) :=
  sortBy (fun a b => decide (a.2.arrival < b.2.arrival)) ((s.liveEntries p).filter fun e => e.2.state == .waiting)

/-- Step 5 of 08 R224; `blocked` once a sequence lacks pages. -/
def admitStep (p : Nat) (kv : KvRecord) (reads : List HostRead) (found : List Finding) :
    List (Nat × SeqEntry) → Bool → State → Pass
  | [], _, s => .ok s
  | (n, e) :: t, blocked, s =>
    match s.run p with
    | none => .ok s
    | some r =>
      if gateOpen s r n e = false then admitStep p kv reads found t blocked (s.setEntry n fun e => { e with reason := 1 })
      else
        if blocked then admitStep p kv reads found t true (s.setEntry n fun e => { e with reason := 3 })
        else match segTokens r found e.segs s with
          | .error f => .error f
          | .ok (none, s) => admitStep p kv reads found t false (s.dropSeq p n 9 endInvalid reads)
          | .ok (some toks, s) =>
            if toks.isEmpty || (toks.any fun x => decide (kv.vocab ≤ x)) ||
                decide (kv.contextLimit ≤ e.position + toks.length) then
              admitStep p kv reads found t false (s.dropSeq p n 9 endInvalid reads)
            else
              let fresh := e.need kv.kvBytes (e.position + toks.length)
              if s.poolFree p r < fresh + (if e.evicted then e.pages else 0) ∨ s.kvAddrs < fresh then
                admitStep p kv reads found t true (s.setEntry n fun e => { e with reason := 2 })
              else
                let s := if e.evicted then s.moveKv e.held (.pool p) else s
                let (e, s) := s.takePages p kv.kvBytes (e.position + toks.length) { e with evicted := false }
                admitStep p kv reads found t false (s.putEntry n { e with
                  state := .running, prefill := true, pending := toks.length, toks := toks, segs := [], reason := 0 })

/-! ## Steps 6 and 7: packing and the descriptor -/

/-- PRIORITY descending, AGE descending, ARRIVAL ascending (08 R224 step 6). -/
def packBefore (a b : Nat × SeqEntry) : Bool :=
  decide (b.2.priority < a.2.priority) || (a.2.priority == b.2.priority &&
    (decide (b.2.age < a.2.age) || (a.2.age == b.2.age && decide (a.2.arrival < b.2.arrival))))

/-- What packing has taken so far. -/
structure Packing where
  work : List WorkItem := []
  sat : List (Nat × Nat) := []
  rows : Nat := 0
  budget : Nat
  deriving DecidableEq, Repr

/-- One candidate of step 6. -/
def packOne (maxSeqs cap : Nat) (k : Packing) (x : Nat × SeqEntry) : Packing :=
  let (n, e) := x
  if k.work.length = maxSeqs then { k with sat := (n, 6) :: k.sat }
  else if k.rows = cap then { k with sat := (n, 7) :: k.sat }
  else if e.prefill then
    let c := min e.pending (min k.budget (cap - k.rows))
    if c = 0 then { k with sat := (n, 7) :: k.sat }
    else { k with
      work := k.work ++ [⟨n, false, c == e.pending, e.position, c, k.rows, e.toks.take c⟩]
      rows := k.rows + c
      budget := k.budget - c }
  else { k with work := k.work ++ [⟨n, true, false, e.position, 1, k.rows, [e.lastTok]⟩], rows := k.rows + 1 }

/-- Step 6 of 08 R224. -/
def packStep (pol : Policy) (cap : Nat) (p : Nat) (out : List Nat) (s : State) : Packing :=
  (sortBy packBefore ((runningSeqs s p).filter fun e => !out.contains e.1)).foldl (packOne pol.maxSeqs cap)
    { budget := pol.prefillBudget }

/-- Ages and reasons after packing (08 R215, R216, R224). -/
def ageStep (p : Nat) (k : Packing) (s : State) : State :=
  (s.liveEntries p).foldl (fun s x =>
    s.setEntry x.1 fun e =>
      let older := { e with age := sat32 (e.age + 1) }
      match e.state with
      | .running =>
        if k.work.any fun w => w.entry == x.1 then { e with age := 0, reason := 0 }
        else match k.sat.find? fun r => r.1 == x.1 with
          | some r => { older with reason := r.2 }
          | none => older
      | .dropped => e
      | _ => older) s

/-- A record of the sequence list (08 R230). -/
def seqListBytes (s : State) (w : WorkItem) : List Byte :=
  match s.entry w.entry with
  | none => List.replicate 32 0
  | some e =>
    leBytes 4 (w.entry + 4096 * b2n w.decode + 8192 * b2n w.lastChunk) ++ leBytes 4 e.handle ++ leBytes 4 w.firstSlot ++
      leBytes 4 w.rows ++ leBytes 4 w.row0 ++ leBytes 4 e.seqStep ++
      leBytes 8 (match e.root with | some k => kvAddr k | none => 0)

/-- Prefill rows of a step. -/
def prefillRows (work : List WorkItem) : Nat := work.foldl (fun n w => n + (if w.decode then 0 else w.rows)) 0

/-- Rows of a step. -/
def workRows (work : List WorkItem) : Nat := work.foldl (fun n w => n + w.rows) 0

/-- The step descriptor of rank `k` of `n` (08 R230). -/
def genDesc (s : State) (r : Run) (work : List WorkItem) (n k : Nat) : List Byte :=
  let rows := workRows work
  let lo := rankRow rows n k
  let count := rankRow rows n (k + 1) - lo
  let map := work.flatMap fun w =>
    let key := match s.entry w.entry with | some e => e.handle | none => 0
    w.toks.map fun t => (w.entry, key, t)
  let mine := (map.drop lo).take count
  leBytes 4 r.step ++ leBytes 4 work.length ++ leBytes 4 (prefillRows work) ++ leBytes 4 rows ++ leBytes 4 lo ++
    leBytes 4 count ++ leBytes 4 64 ++ leBytes 4 (64 + 32 * work.length) ++ leBytes 4 (b2n r.shadow) ++
    leBytes 8 r.sampleBase ++ List.replicate 20 0 ++ work.flatMap (seqListBytes s) ++
    (mine.flatMap fun m => leBytes 4 m.1 ++ leBytes 4 m.2.1) ++ (mine.flatMap fun m => leBytes 4 m.2.2)

/-- Scales of every packed sequence (03 R86, R90). -/
def scaleStep (p : Nat) (b : Bundle) (found : List Finding) : List WorkItem → State → Pass
  | [], s => .ok s
  | w :: t, s =>
    match readScales p b w.entry found b.adaptive s with
    | .error e => .error e
    | .ok s => scaleStep p b found t s

/-- Step 7 of 08 R224: the descriptors are written and loaded, and the cores resume. -/
def releaseStep (p : Nat) (b : Bundle) (work : List WorkItem) (s : State) : State :=
  match s.run p with
  | none => s
  | some r =>
    let n := r.cores.length
    let desc := genDesc s r work n
    let s := s.placeDescs p b desc
    let regs := fun k => ({
      x1 := r.step
      x2 := rankRow (workRows work) n (k + 1) - rankRow (workRows work) n k
      x3 := b.res.descOffset
      x4 := work.length
      x5 := prefillRows work } : EntryRegs)
    let s := s.resumeCores p b.view.stepEntry b.res.descOffset regs desc
    s.setRun p fun r => { r.newStep with work := work, stepStart := s.time }

/-- The pool counters as the pass leaves them (09 R269). -/
def State.poolCounters (s : State) (p : Nat) : State :=
  match s.run p with
  | none => s
  | some r => { s with mig := { s.mig with
      kvFree := modifyAt s.mig.kvFree p fun _ => s.poolFree p r
      evFree := modifyAt s.mig.evFree p fun _ => s.evictFree p r } }

/-- SEQ_STEP commands of a free-running partition complete (16 R482). -/
def freeSteps (p : Nat) (s : State) : State :=
  let mine := s.seqs.steps.filter fun c => c.2 == p
  let s := { s with seqs := { s.seqs with steps := s.seqs.steps.filter fun c => c.2 != p } }
  mine.foldl (fun s c => s.ok c.1 (2 ^ 32)) s

/-- The policy that applies from this pass on (08 R223). -/
def State.takePolicy (s : State) (p : Nat) : State :=
  match s.seqs.next.getD p none with
  | none => s
  | some q => { s with seqs := { s.seqs with
      policy := modifyAt s.seqs.policy p fun _ => q, next := modifyAt s.seqs.next p fun _ => none } }

/-- Steps 6 and 7. -/
def packPass (p : Nat) (b : Bundle) (r : Run) (found : List Finding) (out : List Nat) (s : State) : Pass :=
  let s := s.takePolicy p
  let pol := s.seqs.policy.getD p {}
  let k := packStep pol (rowCap b r.cores.length) p out s
  let s := (ageStep p k s).poolCounters p
  let s := if pol.hostStepped then s else freeSteps p s
  let held := s.setRun p fun r => { r with phase := .held, again := false }
  if k.work = [] then .ok held
  else if pol.hostStepped then
    match s.seqs.steps.find? fun c => c.2 == p with
    | none => .ok held
    | some c =>
      match scaleStep p b found k.work s with
      | .error e => .error e
      | .ok s =>
        let s := { s with seqs := { s.seqs with steps := s.seqs.steps.erase c } }
        .ok ((releaseStep p b k.work s).ok c.1 (r.step % 2 ^ 32))
  else match scaleStep p b found k.work s with
    | .error e => .error e
    | .ok s => .ok (releaseStep p b k.work s)

/-- The table as it stands after the pass (16 R483). -/
def State.snapshot (s : State) : State := { s with seqs := { s.seqs with snap := s.seqs.entries } }

/-- The job goes on after the pending commands have been considered. -/
def State.goesOn (s : State) (p : Nat) : Bool := match s.run p with | some r => r.state == .running | none => false

/-- The waiting sequences `l` that admission has made running (08 R224 step 5). -/
def admitted (s : State) (l : List (Nat × SeqEntry)) : List (Nat × SeqEntry) :=
  l.filterMap fun e => match s.entry e.1 with
    | some x => if x.state = .running then some (e.1, x) else none
    | none => none

/-- The atomic pass of a generation job (08 R224; 07 R204, R205). A sequence that admission revives is held to its ring's room as step 3
holds a running one (08 R235; DEDUCED, log 110). A JOB_END takes effect after step 2, a JOB_PARK after step
5: the packing of a next step is left to the resumed job's first pass (DEDUCED, log 22). -/
def genPass (p : Nat) (b : Bundle) (kv : KvRecord) (r : Run) (reads : List HostRead)
    (found : List Finding) (s : State) : Pass :=
  match closeStep p b kv r found s with
  | .error e => .error e
  | .ok s =>
    let s := (s.setRun p fun r => { r with work := [] }).putAllCounts p b
    let s := stopStep p reads s
    let ends := match r.pendings with | c :: _ => !c.park | [] => false
    if ends then .ok ((s.commit p).poolCounters p)
    else
      let (s, out) := pageStep p kv reads (ringStep (runningSeqs s p) reads s)
      let waiting := waitingSeqs s p
      match admitStep p kv reads found waiting false s with
      | .error e => .error e
      | .ok s =>
        let (s, full) := ringStep (admitted s waiting) reads s
        let s := s.commit p
        if s.goesOn p then packPass p b r found (full ++ out) s else .ok (s.poolCounters p)

end Sys2Proof.Machine
end

