-- ==== Sys2Proof/Machine/JobEnd.lean ====
section
/-!
DEFINITION. JobEnd.lean: how a job ends (07 R202-R209; 08 R237; 09 R257; 12 R331; 18 R527; 20 R566, R572).
-/
namespace Sys2Proof.Machine

/-- JOB_END and JOB_FAULT of partition `p` (18 R527; DEDUCED, log 54). -/
def State.jobEndFlag (s : State) (p number : Nat) (fault : Bool) : State :=
  s.partFlags p fun f => { f with jobEnd := true, jobFault := f.jobFault || fault, job := number }

/-- A core that runs no job (04 R122, R123): its scratchpad stays. -/
def Core.quiesce (c : Core) : Core :=
  { spad := c.spad, bad := c.bad, rawCheck := c.rawCheck, rawGranules := c.rawGranules }

/-- A request of one of these cores. -/
def Requester.ofCores (cs : List Nat) : Requester → Bool
  | .coreDma n => cs.contains n
  | .coreAdd n => cs.contains n
  | .coreWait n => cs.contains n
  | _ => false

/-- A message of this module that a port has not sent yet. -/
def State.queued (s : State) (m : Msg) : Bool := s.wlk.ports.any fun t => t.outq.contains (4, m)

/-- Messages leave the queues of the ports unsent. -/
def State.unqueue (s : State) (gone : List Msg) : State :=
  { s with wlk := { s.wlk with ports := s.wlk.ports.map fun t => { t with outq := t.outq.filter fun e => e.1 != 4 || !gone.contains e.2 } } }

/-- A job leaves partition `p`: its dies are idle, and a core that it had lent to a self-test stays untested (15 R458; 20 R575). -/
def State.endLoan (s : State) (p : Nat) : State :=
  match s.gen.selfTest with
  | none => s
  | some t =>
    let lent := match s.run p with | some r => r.borrow.toList | none => []
    { s with gen := { s.gen with selfTest := some { t with untested := lent ++ t.untested, idle := (s.diesOf p).foldl setBit t.idle } } }

/-- The cores of partition `p` and its step builder stop: what had not taken effect never does, a request that no port has sent among it; requests that were
sent are abandoned (04 R122; 06 R175; 20 R566 step 3). -/
def State.stopCores (s : State) (p : Nat) : State :=
  let cs := s.coresOf p
  let s := s.endLoan p
  let s := { s with cores := s.cores.zipIdx.map fun (e : Core × Nat) => if cs.contains e.2 then e.1.quiesce else e.1 }
  let reads := s.fl.reads.filter fun (r : FlashRead) => match r.by_ with | .dma n => !cs.contains n | _ => true
  let mine := fun (r : Request) => r.by_.ofCores cs || r.by_ == .gate p
  let unsent := fun (r : Request) => mine r && (!r.sent || s.queued r.msg)
  let gone := (s.wlk.requests.filter unsent).map (·.msg)
  let reqs := mapIf mine (fun r => { r with by_ := .abandoned })
    (s.wlk.requests.filter fun r => !unsent r)
  let s := { s with fl := { s.fl with reads := reads }, wlk := { s.wlk with requests := reqs } }.unqueue gone
  releaseHeld s.wlk.requests.length s

/-- A resident page is partition `p`'s, and it is dirty. -/
def Resident.of (p : Nat) : Resident → Bool
  | .stacked _ _ q => q == p
  | .copy _ q => q == p
def Resident.dirty : Resident → Bool
  | .stacked _ d _ => d
  | .copy _ _ => false

/-- The place of a resident page's frame. -/
def Resident.place : Resident → Nat
  | .stacked d _ _ => d + 1
  | .copy (some d) _ => d + 1
  | .copy none _ => 5

/-- Dirty staged pages of partition `p` are written back, each over a copy channel of its die that is free (09 R254, R257). -/
def State.startBack (s : State) (p : Nat) : State :=
  (s.mem.resident.filter fun r => r.2.of p && r.2.dirty).foldl (fun s r =>
    let d := r.2.place - 1
    if s.flying r.1 || !channelFree s d then s
    else { s with mem := { s.mem with flights := s.mem.flights ++ [Flight.mk r.1 p d none] } }) s

/-- The pages that a job staged: clean ones are dropped, and the write-back of dirty ones begins (09 R257). Staging under way
is given up. -/
def State.unstage (s : State) (p : Nat) : State :=
  let flights := s.mem.flights.filter fun f => !(f.partition == p && (f.dst.isSome || decide (flashBase ≤ f.page * pageBytes)))
  let clean := s.mem.resident.filter fun (r : Nat × Resident) => r.2.of p && !r.2.dirty
  let s := clean.foldl (fun s r => s.dropFrame r.2.place r.1) s
  let resident := s.mem.resident.filter fun (r : Nat × Resident) => !r.2.of p || r.2.dirty
  let s := ({ s with mem := { s.mem with flights := flights, resident := resident } }.cancelReads).startBack p
  s.setPart p fun q => { q with writeback := resident.any fun r => r.2.of p }

/-- The private memory, KV pages and eviction area of the job of partition `p` are released (07 R209; 09 R257). -/
def State.releaseJob (s : State) (p : Nat) : State :=
  let s := ((s.freeOwner (.priv p)).freeOwner (.pinned p)).freeKvPages (s.kvOf p)
  s.unstage p

/-- SEQ_STEP and SEQ_LEAVE commands of the partition that are still pending reply (16 R482; 08 R237; DEDUCED, log 50). -/
def State.endSeqCmds (s : State) (p status result : Nat) (record : Option Nat) : State :=
  let steps := s.seqs.steps.filter fun c => c.2 == p
  let leaves := s.seqs.leaves.filter fun l => l.partition == p
  let s := { s with seqs := { s.seqs with
    steps := s.seqs.steps.filter fun c => c.2 != p, leaves := s.seqs.leaves.filter fun l => l.partition != p } }
  let s := steps.foldl (fun s c => s.replyRec c.1 status result record) s
  leaves.foldl (fun s l => s.replyRec l.cmd status result record) s

/-- The queries of a job reply: those whose hit lists are complete normally where the job ends by itself, the others with a
status (12 R331; DEDUCED, log 55). -/
def State.endQueries (s : State) (job : Nat) (normal : Bool) (status result : Nat) (record : Option Nat) : State :=
  let mine := s.idx.queries.filter fun q => q.job == job
  let p := (s.partOfJob job).getD 0
  let s := mine.foldl (fun s q =>
    if normal && q.hits.isSome then replyQuery p s q
    else ({ s with idx := { s.idx with queries := s.idx.queries.filter fun o => o.cmd != q.cmd } }).replyRec q.cmd status
      result record) s
  s.releaseAll

/-- The job of partition `p` is gone: its cores stop, its memory is released, its JOB_START replies (07 R203, R209). -/
def State.finishJob (s : State) (p : Nat) (r : Run) (status result : Nat) (record : Option Nat) (fault : Bool) : State :=
  let s := (s.stopCores p).releaseJob p
  let s := s.setPart p fun q => { q with job := none }
  let s := { s with mig := { s.mig with stagingWait := modifyAt s.mig.stagingWait p fun _ => false } }
  let s := s.replyRec r.cmd status result record
  (s.jobEndFlag p r.number fault).snapshot

/-- Pending commands reply in order. -/
def replyAll (l : List CmdRef) (status result : Nat) (record : Option Nat) (s : State) : State :=
  l.foldl (fun s c => s.replyRec c status result record) s

/-- The pending commands of a job that has ended by itself: of several, the JOB_END that took effect replies SUCCESS, and
every one where each core has halted; a JOB_PARK and the rest reply JOB_ALREADY_ENDED (07 R204). -/
def replyEnded (halted : Bool) : List PendingCmd → State → State
  | [], s => s
  | c :: t, s =>
    let s := s.reply c.cmd (if c.park then 0x052A else 0) 0
    if halted then replyEnded true t s else replyAll (t.map (·.cmd)) 0x052A 0 none s

/-- The step that every core ended by HALT is closed: records of a generation job, hit lists of a query-service job (07 R204;
08 R237; 12 R331). -/
def closeHalted (p : Nat) (b : Bundle) (r : Run) (reads : List HostRead) (found : List Finding) (s : State) : Pass :=
  match b.kind, b.kv with
  | 1, some kv =>
    match closeStep p b kv r found s with
    | .error e => .error e
    | .ok s => .ok (stopStep p reads s)
  | 2, _ =>
    match searchAll r b ((s.packed r.number).filter fun q => q.hits.isNone) (applyFindings found s) with
    | .error a => .error ({ status := 0x0F03, addr := a, space := .device }, applyFindings found s)
    | .ok s => .ok s
  | _, _ => .ok s

/-- JOB_ENDED: a job that is ENDING has completed its writes, and ends (07 R202-R204; 08 R237; 12 R331; 09 R257); the step that every core
ended by HALT is counted, unless it is the prologue (DEDUCED, log 24). `reads`: what
reads of consumer words give. -/
def execJobEnded (p : Nat) (reads : List HostRead) (found : List Finding) (s : State) : Out :=
  findingOut found s fun s =>
  match s.run p with
  | none => done s
  | some r =>
    match s.bundle r.bundle with
    | none => done s
    | some b =>
      if r.state ≠ .ending then done s
      else
        let halted := r.cores.all fun k => (s.core k).run == .halted
        match if halted then closeHalted p b r reads found s else .ok s with
        | .error (f, s) => done (s.latch (.job p) f)
        | .ok s =>
          let s := s.endSeqs p endJobEnd reads
          let s := s.endSeqCmds p 0x0606 0 none
          let s := s.endQueries r.number true 0x0718 0 none
          let s := replyEnded halted r.pendings s
          done (s.finishJob p r 0 (r.steps + b2n (halted && !r.first)) none false)

/-- The job of partition `p` is aborted (07 R204; 08 R237; 12 R331): its pending commands and its queries reply
JOB_ABORTED. -/
def State.abortRun (s : State) (p : Nat) (r : Run) (reads : List HostRead) : State :=
  let s := s.endSeqs p endAborted reads
  let s := s.endSeqCmds p 0x0606 0 none
  let s := s.endQueries r.number false 0x0527 0 none
  let s := if r.state = .parking then s.freeOwner (.cocoon r.cocoon) else s
  let s := replyAll (r.parkCmd.toList ++ r.pendings.map (·.cmd)) 0x0527 0 none s
  s.finishJob p r 0x0527 r.steps none false

/-- A queued job leaves the queue with a status (07 R203, R204; 01 R27). -/
def State.dropQueued (s : State) (q : QueuedJob) (status : Nat) : State :=
  let s := { s with jobs := { s.jobs with queue := s.jobs.queue.erase q } }
  let s := s.endQueries q.number false (if status = 0x0527 then 0x0527 else 0x0718) 0 none
  (s.reply q.cmd status 0).jobEndFlag q.partition q.number false

/-! ## Cocoons (07 R206) -/

/-- The findings of core `n`'s scratchpad among those of the cores of a partition: each bears its core's number times 2^20 beside its
word's. -/
def coreFindings (n : Nat) (found : List Finding) : List Finding :=
  (found.filter fun f => f.granule / 2 ^ 20 == n).map fun f => { f with granule := f.granule % 2 ^ 20 }

/-- What the cocoon records of a core (06 R184). -/
def rankState (b : Bundle) (c : Core) : RankState :=
  ⟨c.x.drop 8, c.ctxs, b.live.map fun l => (l.1, spadBytes c l.1 l.2),
    c.bad.filter fun k => b.live.any fun l => overlap (8 * k) (8 * k + 8) l.1 (l.1 + l.2)⟩

/-- The LIVE ranges of the cores `cs` are read (06 R184; 10 R280, R281): what each rank records, and the state. -/
def readRanks (b : Bundle) (found : List Finding) : List Nat → State → List RankState × State
  | [], s => ([], s)
  | n :: t, s =>
    let (s, v) := s.scan n b.live (coreFindings n found)
    let (l, s) := readRanks b found t s
    (rankState b v :: l, s)

/-- Pages of a job's private board memory beside its sample or hit area. -/
def Run.ownPages (r : Run) : Nat := (r.sampleBase - r.privBase) / pageBytes

/-- The private regions of the job of partition `p` are copied into its cocoon's pages (07 R206; 09 R249). -/
def State.copyPrivate (s : State) (r : Run) (found : List Finding) : State :=
  let s := s.copySpan r.privBase (r.privBase + r.privPages * pageBytes) (r.cocoonBase * pageBytes) found
  (s.copySpan r.pinBase (r.pinBase + r.pinPages * pageBytes) ((r.cocoonBase + r.privPages) * pageBytes) found).countCopied r.pinPages

/-- The cocoon of the job of partition `p` (07 R206). -/
def cocoonOf (s : State) (p : Nat) (r : Run) (ranks : List RankState) : Cocoon :=
  { handle := r.cocoon, bundle := r.bundle, step := r.step, ranks := ranks,
    entries := (s.liveEntries p).map fun e => (e.1 % s.entriesPer, e.2),
    base := r.cocoonBase, privPages := r.ownPages, samplePages := r.privPages - r.ownPages, pinPages := r.pinPages }

/-- The entries of partition `p` leave the table without end records (08 R237). -/
def State.takeEntries (s : State) (p : Nat) : State := (s.liveEntries p).foldl (fun s e => s.dropEntry e.1) s

/-- COCOON_WRITTEN: the cocoon of a PARKING job is written, and the job ends (07 R203, R206; 08 R237; 12 R331). `found`: what the
decoders find as its private memory and its KV pages are copied; `live`: what the reads of its LIVE ranges find. -/
def execCocoonWritten (p : WithFound (WithFound Nat)) (s : State) : Out :=
  match p with
  | ⟨⟨p, live⟩, found⟩ =>
    match s.run p with
    | none => done s
    | some r =>
      match s.bundle r.bundle with
      | none => done s
      | some b =>
        if r.state ≠ .parking then done s
        else
          let (ranks, s) := readRanks b live r.cores (s.copyPrivate r found)
          let s := { s with jobs := { s.jobs with cocoons := s.jobs.cocoons ++ [cocoonOf s p r ranks] } }
          let s := (s.finding found fun s => s.moveKv (s.kvOf p) (.cocoon r.cocoon)).takeEntries p
          let s := s.endSeqCmds p 0x0606 0 none
          let s := s.endQueries r.number true 0x0718 0 none
          let s := replyAll r.parkCmd.toList 0 r.cocoon none s
          let s := replyAll (r.pendings.map (·.cmd)) 0x052A 0 none s
          done (s.finishJob p r 0x0526 r.cocoon none false)

/-! ## Faults (20 R566, R572) -/

/-- The lifetime counter of a fault class (20 R583): 6-12 for the classes, 13 for program faults. -/
def classCounter (status : Nat) : Nat := if status = 0x0510 then 13 else 5 + status % 256

/-- A fault record is written, and copied to the lifetime log; the newest 4,096 are kept (20 R572). -/
def State.writeFaultRecord (s : State) (f : FaultRecord) : State :=
  { s with flt := { s.flt with
      records := (s.flt.records ++ [f]).drop (s.flt.records.length + 1 - 4096), written := s.flt.written + 1
      confineMax := max s.flt.confineMax (f.confined - f.detect) } }.lifeAdd (classCounter f.info.status) 1 |>.fltEvt 0 |>.logLife 128

/-- The record of a detection. -/
def Detection.record (d : Detection) (now : Nat) (jobValid : Bool) (p : Nat) : FaultRecord :=
  { number := d.number, info := d.info, jobValid := jobValid, partition := p, job := d.job,
    cmd := match d.scope with | .command c => some c | _ => none,
    detect := d.time, confined := now, others := d.others }

/-- PEER_JOB_FAULT to each remote module that the job's bindings name (17 R516; 20 R566 step 5). -/
def State.peerFaults (s : State) (r : Run) (status : Nat) : State :=
  let ms := r.binds.foldl (fun l b => if b.module = s.gen.moduleId ∨ l.contains b.module then l else l ++ [b.module]) []
  ms.foldl (fun s m => s.respond
    { cls := 0, op := 1, poison := false, tag := 0, src := s.gen.moduleId, dst := m, addr := 0, len := 16, rstatus := 0,
      payload := noticeBytes 3 s.gen.moduleId r.number status }) s

/-- The commands JOB_END, JOB_PARK and JOB_ABORT that have begun on a job and whose rows have not executed (07 R204). -/
def State.begunOn (s : State) (r : Run) : List CmdRef :=
  (s.q.cmds.filter fun c => c.begun && !c.started && c.job == some r.seq && decide (0x61 ≤ c.dw 0 % 256 ∧ c.dw 0 % 256 ≤ 0x63)).map
    fun c => ⟨c.qid, c.cid⟩

/-- Teardown of the faulted job of partition `p` (07 R209; 20 R566). -/
def State.tearDown (s : State) (p : Nat) (r : Run) (d : Detection) (reads : List HostRead) : State :=
  let status := d.info.status
  let n := d.number
  let s := s.endSeqs p endFault reads
  let s := s.endSeqCmds p status n (some n)
  let s := s.endQueries r.number false status n (some n)
  let s := if r.parkCmd.isSome then s.freeOwner (.cocoon r.cocoon) else s
  let s := replyAll (r.parkCmd.toList ++ r.pendings.map (·.cmd) ++ s.begunOn r) status n (some n) s
  let s := s.peerFaults r status
  let s := (s.writeFaultRecord (d.record s.time true p)).lifeAdd 14 1
  let s := { s with flt := { s.flt with faults := bump s.flt.faults p 1 } }
  s.finishJob p r status n (some n) true

/-- FAULT_DETECT: the oldest fault latched is confined: its job or its command ends, and its record is written (20
R566-R572; 07 R209). `reads`: what reads of consumer words give. -/
def execFaultDetect (reads : List HostRead) (s : State) : Out :=
  match s.flt.detections with
  | [] => done s
  | d :: rest =>
    let s := { s with flt := { s.flt with detections := rest } }
    match d.scope with
    | .job p =>
      match s.run p with
      | some r => done (s.tearDown p r d reads)
      | none => done s
    | .command c =>
      let s := s.writeFaultRecord (d.record s.time false 0)
      done (s.replyRec c d.info.status d.number (some d.number))
    | .nothing => done (s.writeFaultRecord (d.record s.time false 0))

/-- A record of class uncorrectable memory error for a granule that ends no job (20 R567). -/
def State.granuleRecord (s : State) (g : Nat) : State :=
  let n := s.flt.nextRecord
  let s := { s with flt := { s.flt with nextRecord := n + 1 } }
  s.writeFaultRecord (Detection.record ⟨n, .nothing, 0, { status := 0x0F02, addr := 64 * g, space := .device }, s.time, 0⟩ s.time false 0)

/-- A stacked page written back to its board frame: granules newly found uncorrectable are written poisoned, and each writes a record
(09 R249, R257; 20 R567). -/
def writeBack (found : List Finding) (s : State) (r : Nat × Resident) : State :=
  let new := (frameSuspects s r.2.place r.1 found).filter fun g =>
    s.decodeKey (frameKey r.2.place g) g (s.devBytes (64 * g) 64) found == .uncorrectable
  let s := new.foldl State.granuleRecord (s.copyPage r.2.place 0 r.1 found)
  (s.countCopied 1).leaveDie r.1 (r.2.place - 1)

/-- Copies of the end-of-job write-back of partition `p` have arrived, those that `mine` picks of its pages in flight, and the next ones
are in flight; the write-back ends where none is left (09 R254, R257). -/
def State.landBack (s : State) (p : Nat) (mine : Flight → Bool) (found : List Finding) : State :=
  let gone := s.mem.flights.filter fun f => f.partition == p && mine f
  let s := (s.mem.resident.filter fun (r : Nat × Resident) => r.2.of p && gone.any fun f => f.page == r.1).foldl (writeBack found) s
  let s := { s with mem := { s.mem with flights := s.mem.flights.filter fun f => !(f.partition == p && mine f) } }.startBack p
  if s.mem.resident.any fun r => r.2.of p then s
  else (s.setPart p fun q => { q with writeback := false }).migEvt (8 + p)

/-- WRITEBACK_DONE: the copies under way of the end-of-job write-back of partition `p` arrive; the write-back ends with the last ones (09
R254, R257; 07 R209). `found`: what the decodings of its pages find. -/
def execWritebackDone (p : Nat) (found : List Finding) (s : State) : Out :=
  if (s.jobs.parts.getD p {}).writeback = false ∨ s.flt.hubHold = true then done s
  else
    done (s.activity.landBack p (fun _ => true) found)

end Sys2Proof.Machine
end

