-- ==== Sys2Proof/Machine/Admin.lean ====
section
/-!
DEFINITION. Admin.lean: the administrative commands but for those of the queues (15 R440-R464; 13 R396-R398; 20 R575; 21
R601-R607; 01 R25-R27).
-/
namespace Sys2Proof.Machine

/-! ## IDENTIFY and LOG_READ -/

/-- IDENTIFY (15 R444-R446). -/
def execIdentify (h : HostCmd) (s : State) : Out :=
  withCmd s h.ref 0x00 fun c s =>
    match bits (c.dw 4) 0 8 with
    | 0 => writeBuf h c 0 4096 s fun s => (s.hostData h.ref 0 s.identBytes).ok h.ref 0
    | 1 => writeBuf h c 0 s.releaseBytes.length s fun s => (s.hostData h.ref 0 s.releaseBytes).ok h.ref 0
    | _ => s.reply h.ref 0x0102 0

/-- The telemetry log is cleared (15 R448). -/
def State.clearTelemetry (s : State) : State := { s with gen := { s.gen with telemetry := [], telClear := s.time } }

/-- LOG_READ (15 R447, R448; DESIGN CHOICE, log 75). -/
def execLogRead (h : HostCmd) (s : State) : Out :=
  withCmd s h.ref 0x01 fun c s =>
    let id := bits (c.dw 4) 0 8
    let clear := bit (c.dw 4) 8
    match s.logBytes id with
    | none => s.reply h.ref 0x0108 0
    | some log =>
      if (clear = true ∧ id ≠ 3) ∨ c.qw 6 % 64 ≠ 0 then s.reply h.ref 0x0102 0
      else
        let bs := (log.drop (c.qw 6)).take (c.len 0)
        let s := if clear then s.clearTelemetry else s
        let s := if bs.isEmpty then s else s.hostData h.ref 0 bs
        s.ok h.ref (bs.length + 2 ^ 32 * log.length)

/-! ## Features (15 R449-R452) -/

/-- FEATURE_GET. -/
def execFeatureGet (h : HostCmd) (s : State) : Out :=
  withCmd s h.ref 0x02 fun c s =>
    let fid := bits (c.dw 4) 0 8
    writeBuf h c 0 16 s fun s =>
      if featureKnown fid = false then s.reply h.ref 0x0109 0
      else
        let give := fun (v : Nat) => (s.hostData h.ref 0 (leBytes 16 v)).ok h.ref (v % 2 ^ 64)
        match bits (c.dw 4) 8 2 with
        | 0 => give (s.gen.features.get fid)
        | 1 => give (s.savedFeature fid)
        | 2 => give (({} : Features).get fid)
        | _ => s.reply h.ref 0x0102 0

/-- The tally setting that a change of a feature consumes (15 R451): none where it consumes nothing. -/
def consumes (f : Features) (fid v : Nat) : Option Nat :=
  if fid = 3 ∧ f.thermalCeiling < v then some 3 else if fid = 4 ∧ f.linkWidthLock ≠ v then some 2 else none

/-- A change of a feature that passed its checks: at its reply point, which follows the save of both copies where there is one (15 R452). -/
def State.changeFeature (s : State) (r : CmdRef) (fid v : Nat) (save : Bool) : State :=
  let setting := consumes s.gen.features fid v
  let s := match setting with | some k => s.tally k (s.gen.features.get fid) v 0 | none => s
  let result := match setting with | some k => s.remaining k | none => 0
  if save then
    s.writeConfig (fun c => { c with saved := (fid, v) :: c.saved.filter fun e => e.1 != fid }) (.feature (some r) fid v result)
  else (s.setFeature fid v).ok r result

/-- FEATURE_SET. `tallyOk`: the tally sectors take a record (21 R605; DEDUCED, log 77). -/
def execFeatureSet (h : HostCmd) (tallyOk : Bool) (s : State) : Out :=
  withCmd s h.ref 0x03 fun c s =>
    let fid := bits (c.dw 4) 0 8
    let v := c.qw 6 + 2 ^ 64 * c.qw 8
    if featureKnown fid = false then s.reply h.ref 0x0109 0
    else if featureOk fid v = false then s.reply h.ref 0x010A 0
    else if fid = 5 ∧ s.anyJob = true then s.reply h.ref 0x010B 0
    else match consumes s.gen.features fid v with
      | some k => if s.remaining k = 0 ∨ tallyOk = false ∨ s.tallyRoom = false then s.reply h.ref 0x090D 0
        else s.changeFeature h.ref fid v (bit (c.dw 5) 0)
      | none => s.changeFeature h.ref fid v (bit (c.dw 5) 0)

/-! ## Firmware (15 R453-R456) -/

/-- A commit or an activation other than the command `c` has begun and has not replied; for a commit, no FW_DOWNLOAD executes either:
`ops` are the opcodes that count (15 R453-R455). -/
def State.fwBusy (s : State) (c : Cmd) (ops : List Nat) : Bool :=
  s.gen.fwOp.isSome || (s.before c).any fun d => d.qid == c.qid && d.begun && ops.contains (d.dw 0 % 256)

/-- FW_DOWNLOAD (15 R453). -/
def execFwDownload (h : HostCmd) (s : State) : Out :=
  withCmd s h.ref 0x04 fun c s =>
    let off := c.dw 4
    let n := c.dw 5
    if c.len 0 < n then s.reply h.ref 0x0105 0
    else if s.fwBusy c [0x05] then s.reply h.ref 0x0908 0
    else if off % 4096 ≠ 0 ∨ n % 4 ≠ 0 ∨ n < 4 ∨ 1048576 < n ∨ 2 ^ 25 < off + n then s.reply h.ref 0x0905 0
    else readBuf h c 0 n s fun bs s =>
      { s with gen := { s.gen with fwStage := Sparse.setList 0 s.gen.fwStage off bs, staged := true } }.ok h.ref 0

/-- An image header is well formed over `total` bytes, and names the running stepping (21 R595, R596). -/
def imageOk (bs : List Byte) (total : Nat) : Bool :=
  let d3 := dwordAt bs 3
  decide (total ≤ 2 ^ 25 ∧ 4096 ≤ total ∧ total % 4 = 0) && dwordAt bs 0 == 0x4F47414D && dwordAt bs 1 == 1 &&
    bits d3 18 6 == 0 && bits d3 26 6 == 0 && dwordAt bs 4 == total && (List.range 3).all (fun i => dwordAt bs (5 + i) == 0) &&
    bit d3 (24 + Config.stepping.val)

/-- The slot that an image fills. -/
def imageSlot (bs : List Byte) : ImagoSlot :=
  let d3 := dwordAt bs 3
  { valid := true, image := bs, version := dwordAt bs 2, svn := bits d3 0 8, compat := bits d3 8 8, keyIndex := bits d3 16 2,
    steppings := bits d3 24 2, length := dwordAt bs 4 }

/-- The key of an image is the module's, and its signature verifies (15 R454; 21 R595). -/
def imageSigned (bs : List Byte) (total : Nat) : Bool :=
  let key := slice bs 32 96
  sha384 key == Config.imagoDigest (bits (dwordAt bs 3) 16 2) &&
    ecdsaVerify key (bs.take (total - 96)) (slice bs (total - 96) 48) (slice bs (total - 48) 48)

/-- FW_COMMIT: its checks; then the erase of the slot's sectors and their program are queued (15 R454). -/
def execFwCommit (h : HostCmd) (s : State) : Out :=
  withCmd s h.ref 0x05 fun c s =>
    let slot := bits (c.dw 4) 0 1
    let total := c.dw 5
    let bs := if total ≤ 2 ^ 25 then Sparse.getList 0 s.gen.fwStage 0 total else []
    let x := imageSlot bs
    if s.fwBusy c [0x04, 0x05, 0x06] then s.reply h.ref 0x0908 0
    else if slot = s.gen.slot then s.reply h.ref 0x0904 0
    else if imageOk bs total = false then s.reply h.ref 0x0903 0
    else if imageSigned bs total = false then s.reply h.ref 0x0901 0
    else if x.svn < s.gen.minSvn then s.reply h.ref 0x0906 0
    else
      let s := { s with gen := { s.gen with fwOp := some (.commit (some h.ref) slot x false) } }
      (s.pushSf (.slotErase slot (ceilDiv total 65536) (some h.ref))).pushSf (.slotProgram slot)

/-- FW_COMMIT_COMPLETE: the slot is programmed and verified, and FW_COMMIT replies (15 R454). -/
def execFwCommitComplete (s : State) : Out :=
  match s.gen.fwOp with
  | some (.commit c slot x true) =>
    let s := { s with gen := { s.gen with fwOp := none }, sf := { s.sf with slots := modifyAt s.sf.slots slot fun _ => x } }
    match c with
    | some r => done (s.ok r x.version)
    | none => done s
  | _ => done s

/-- FW_ACTIVATE (15 R455): its point of no return is the write of the boot selector. MODE 1 goes on as an imago restart
(R456). -/
def execFwActivate (h : HostCmd) (s : State) : Out :=
  withCmd s h.ref 0x06 fun c s =>
    let slot := bits (c.dw 4) 0 1
    let mode := bit (c.dw 4) 1
    let x := s.sf.slots.getD slot {}
    if s.fwBusy c [0x04, 0x05, 0x06] then s.reply h.ref 0x0908 0
    else if x.valid = false then s.reply h.ref 0x0904 0
    else if x.svn < s.gen.minSvn then s.reply h.ref 0x0906 0
    else if mode = true ∧ s.anyJob = true then s.reply h.ref 0x0908 0
    else if mode = true ∧ x.compat ≠ s.gen.compat then s.reply h.ref 0x0907 0
    else
      let s := (s.writeSelector slot).commitCmd h.ref
      if mode then { s with gen := { s.gen with fwOp := some (.restart (some h.ref) slot), restarting := true } }
      else s.ok h.ref 0

/-! ## Self-test (15 R457-R459; 20 R575) -/

/-- A mask of the elements of a list. -/
def maskOf (l : List Nat) : Nat := l.foldl setBit 0

/-- The dies whose partition runs no job. -/
def State.idleDies (s : State) : List Nat := (List.range 4).filter fun d => (s.run (s.partOfDie d)).isNone

/-- SELF_TEST: it goes on in the background. -/
def execSelfTest (h : HostCmd) (s : State) : Out :=
  withCmd s h.ref 0x07 fun c s =>
    let type := bits (c.dw 4) 0 2
    if c.has 0 ∧ c.len 0 < 64 then s.reply h.ref 0x0105 0
    else if 2 ≤ type then s.reply h.ref 0x0102 0
    else if s.gen.selfTest.isSome then s.reply h.ref 0x010C 0
    else
      let t : SelfTest := { cmd := h.ref, extended := type == 1, start := s.time, idle := maskOf s.idleDies }
      { s with gen := { s.gen with selfTest := some t } }.wake 1

/-- The number of ones below bit `n`. -/
def ones (n x : Nat) : Nat := ((List.range n).filter fun i => bit x i).length

/-- The 64-byte record of a self-test (15 R459): of an aborted one, the masks cover the tests completed. -/
def selfTestRecord (t : SelfTest) (aborted : Bool) (now : Nat) : List Byte :=
  let f := t.masks
  leBytes 4 (b2n t.extended + 4 * b2n aborted) ++ leBytes 12 f.coresTested ++ leBytes 12 f.coresFailed ++
    leBytes 4 f.stacksTested ++ leBytes 4 f.stacksFailed ++ leBytes 4 f.boardFailed ++ leBytes 12 f.flashFailed ++
    leBytes 4 ((now - t.start) / 1000000) ++ leBytes 8 now

/-- A core fails its test: its flag and its counter (20 R573, R582). -/
def State.coreFails (s : State) (n : Nat) : State :=
  let k := sat64 (Sparse.get 0 s.life.coreSelfFail n + 1)
  ({ s with life := { s.life with coreSelfFail := Sparse.set 0 s.life.coreSelfFail n k } }.flagCore n).fltEvt 8

/-- A self-test ends: its record is kept, and written to buffer 0 where it was supplied. -/
def State.endSelfTest (s : State) (t : SelfTest) (aborted : Bool) : State :=
  let bs := selfTestRecord t aborted s.time
  let s := { s with gen := { s.gen with selfTest := none, lastSelfTest := some bs } }
  match s.cmd t.cmd with
  | some c => if c.has 0 then s.hostData t.cmd 0 bs else s
  | none => s

/-- The cores of running jobs, which a self-test tests in borrowings (15 R458). -/
def State.jobCores (s : State) : List Nat :=
  (List.range 4).flatMap fun p => match s.run p with | some r => r.cores | none => []

/-- The stacks of a set of dies, six on each. -/
def stacksOf (dies : Nat) : Nat := maskOf ((List.range 24).filter fun k => bit dies (k / 6))

/-- The bits of `x` that are not in `y`. -/
def without (x y : Nat) : Nat := x - (x &&& y)

/-- The tests that complete, and those before them: a core is tested once, outside running jobs here; at the last test every core is that
no job kept from it, and the stacks of every die that was idle at some time (15 R458). -/
def State.testsDone (s : State) (t : SelfTest) (m : SelfTestMasks) (last : Bool) : SelfTestMasks :=
  let ext := fun m => if t.extended then m else 0
  let all := 2 ^ 96 - 1
  let cores := (if last then without all (maskOf t.untested) else without (m.coresTested &&& all) (maskOf s.jobCores)) ||| t.masks.coresTested
  let new := without cores t.masks.coresTested
  let tried := ext (if last then stacksOf t.idle else m.stacksTested &&& stacksOf t.idle) ||| t.masks.stacksTested
  { coresTested := cores, coresFailed := t.masks.coresFailed ||| (m.coresFailed &&& new), stacksTested := tried,
    stacksFailed := t.masks.stacksFailed ||| (ext m.stacksFailed &&& tried),
    boardFailed := t.masks.boardFailed ||| m.boardFailed % 2 ^ 32, flashFailed := t.masks.flashFailed ||| ext m.flashFailed % 2 ^ 96 }

/-- The cores that a mask names fail their test. -/
def State.coresFail (s : State) (m : Nat) : State := ((List.range 96).filter (bit m)).foldl State.coreFails s

/-- SELF_TEST_COMPLETE: tests of a self-test complete, and where its last one is among them it replies, every core of a running job tested
or kept untested (15 R457-R459; 20 R575; DEDUCED, log 76). -/
def execSelfTestComplete (found : SelfTestFound) (s : State) : Out :=
  match s.gen.selfTest with
  | none => done s
  | some t =>
    let kept := fun (n : Nat) => bit t.masks.coresTested n || t.untested.contains n
    if found.last && s.jobCores.any fun n => !kept n then done s
    else
      let m := s.testsDone t found.masks found.last
      let t' := { t with masks := m }
      let s := (if found.last && t.extended then s.checkBoard found.scrub else s).coresFail (without m.coresFailed t.masks.coresFailed)
      let bad := fun (x : SelfTestMasks) => (x.stacksFailed, x.boardFailed, x.flashFailed)
      let s := if bad m = bad t.masks then s else s.fltEvt 8
      if found.last = false then done { s with gen := { s.gen with selfTest := some t' } }
      else
        let s := (s.endSelfTest t' false).lifeAdd 21 1
        done (s.ok t.cmd (ones 96 m.coresFailed + 2 ^ 8 * ones 24 m.stacksFailed + 2 ^ 16 * ones 32 m.boardFailed +
          2 ^ 24 * ones 96 m.flashFailed))

/-- CORE_BORROW: the core that the job of partition `p` has lent is tested and returned, and its cores go on; where they are held with no core
lent, a self-test borrows one. The core's state is kept (20 R575; DEDUCED, log 76). -/
def execCoreBorrow (p : Nat) (failed : Bool) (s : State) : Out :=
  match s.gen.selfTest, s.run p with
  | some t, some r =>
    if r.state ≠ .running then done s
    else match r.borrow with
      | some n =>
        let m := { t.masks with
          coresTested := setBit t.masks.coresTested n
          coresFailed := if failed then setBit t.masks.coresFailed n else t.masks.coresFailed }
        let s := State.setRun { s with gen := { s.gen with selfTest := some { t with masks := m } } } p fun r => { r with borrow := none }
        done (if failed then s.coreFails n else s)
      | none => done (if r.phase = .held then s.lend p else s)
  | _, _ => done s

/-! ## Protection level (15 R460, R461; 13 R396-R398; 21 R601-R604) -/

/-- The level and the counts left, as a PROTECTION_SET reports them. -/
def State.levelResult (s : State) : Nat := s.gen.pl + 2 ^ 8 * s.remaining 1

/-- A lowering begins (13 R397; 21 R607): its tally record is programmed, then its operations follow one another. -/
def State.lower (s : State) (r : CmdRef) : State :=
  let g := s.fl.keyGen + 1
  (((s.tally 1 1 0 g).pushSf (.lowerKey g (some r))).pushSf (.lowerCommit g (some r))).pushSf (.lowerRest (some r))

/-- A raise (15 R460, R461; 21 R604): to PL2 the fuse is blown first. -/
def State.raise (s : State) (level : Nat) : State :=
  let s := if level = 2 then { s with sf := { s.sf with pl2Fuse := true } } else s
  let s := if s.gen.pl = 0 then s.testOff else s
  { s.writeProt level s.gen.minSvn with gen := { s.gen with pl := level } }

/-- PROTECTION_SET (15 R460, R461). `tallyOk`: the tally sectors take a record (21 R605). -/
def execProtectionSet (h : HostCmd) (tallyOk : Bool) (s : State) : Out :=
  withCmd s h.ref 0x08 fun c s =>
    let level := bits (c.dw 4) 0 2
    let refuse := fun (st : Nat) => (s.reply h.ref st 0).keyRun
    let lowering := decide (level < s.gen.pl)
    if level = 3 then refuse 0x0909
    else if level = s.gen.pl then (s.ok h.ref s.levelResult).keyRun
    else if s.gen.pl = 2 then refuse 0x090A
    else if lowering = true ∧ c.dw 5 ≠ 0x4C4F5745 then refuse 0x090E
    else if lowering = true ∧ s.remaining 1 = 0 then refuse 0x090D
    else if lowering = true ∧ s.canLower = false then refuse 0x090B
    else if lowering = true ∧ (tallyOk = false ∨ s.tallyRoom = false) then refuse 0x090D
    else if level = 2 ∧ s.config.keys.isEmpty = true then refuse 0x090C
    else
      if lowering then s.lower h.ref
      else
        let s := s.raise level
        (s.ok h.ref s.levelResult).keyRun

/-! ## Partition layout (15 R462; 01 R25-R27) -/

/-- PARTITION_SET: the change waits for LAYOUT_CHANGE. -/
def execPartitionSet (h : HostCmd) (s : State) : Out :=
  withCmd s h.ref 0x09 fun c s =>
    let l := bits (c.dw 4) 0 2
    if l = 3 then s.reply h.ref 0x0531 0
    else if l = s.gen.layout then s.ok h.ref 0
    else if s.jobs.parts.any fun p => p.job.isSome then s.reply h.ref 0x0530 0
    else { s with gen := { s.gen with layoutReq := some ⟨h.ref, l, bit (c.dw 4) 8⟩ } }.commitCmd h.ref

/-- A checker test is aimed at a die (10 R295). -/
def State.dieTest (s : State) : Bool := bit s.ecc.testCtrl 0 && decide (s.ecc.tier < 4)

/-- LAYOUT_CHANGE: once write-backs and die tests have finished, the layout takes effect, and every policy returns to its defaults (15
R462; 01 R27; 16 R482). -/
def execLayoutChange (s : State) : Out :=
  match s.gen.layoutReq with
  | none => done s
  | some q =>
    if (s.jobs.parts.any fun p => p.writeback) ∨ s.dieTest = true then done s
    else
      let s := { s with
        gen := { s.gen with layout := q.layout, layoutReq := none }
        seqs := { s.seqs with policy := List.replicate 4 {}, next := List.replicate 4 none } }
      let gone := s.jobs.queue.filter fun j => decide (s.numParts ≤ j.partition)
      let s := gone.foldl (fun s j => s.dropQueued j 0x0523) s
      if q.save then done (s.writeConfig (fun c => { c with layout := some q.layout }) (.reply q.cmd 0))
      else done (s.ok q.cmd 0)

/-- TALLY_QUERY (15 R463). -/
def execTallyQuery (h : HostCmd) (s : State) : Out :=
  withCmd s h.ref 0x0A fun _ s => s.ok h.ref (s.remaining 1 + 2 ^ 8 * s.remaining 2 + 2 ^ 16 * s.remaining 3)

end Sys2Proof.Machine
end

