-- ==== Sys2Proof/Machine/Events.lean ====
section
/-!
DEFINITION. Events.lean: deliveries of the event controller, signal-cell watches, and the wakes of the antenna (18 R530-R541; 19
R554; 22 R614).
-/
namespace Sys2Proof.Machine

/-! ## Delivery to the host (18 R531-R536) -/

/-- A write of EVC_EOI (18 R533). -/
def State.eoi (s : State) (n : Nat) : State := { s with evc := { s.evc with active := s.evc.active.filter fun m => m != n } }

/-- EVC_EOI: an ACTIVE source is re-armed. -/
def execEvcEoi (n : Nat) (s : State) : Out := done (s.eoi n)

/-- Entry `v` of the MSI-X table. -/
def State.msixEntry (s : State) (v : Nat) : MsixEntry := Sparse.get {} s.msix.table v

/-- A PENDING source that nothing holds (18 R534, R539). -/
def State.eligible (s : State) (n : Nat) : Bool :=
  s.pendingSrc n && !(s.src n).mask && !s.evc.gdis && s.msix.enable && !s.msix.fmask && !(s.msixEntry (s.src n).vector).mask &&
    s.pwr.ps != 3

/-- The source taken before another: the larger PRIORITY, then the smaller number (18 R531: the group lies above the
sub-priority in the same byte). -/
def State.srcBefore (s : State) (a b : Nat) : Bool :=
  decide ((s.src b).priority < (s.src a).priority) || ((s.src a).priority == (s.src b).priority && decide (a < b))

/-- The most urgent source of a list (DEDUCED, log 83). -/
def State.urgent (s : State) : List Nat → Option Nat
  | [] => none
  | n :: t => match State.urgent s t with
    | some m => some (if s.srcBefore n m then n else m)
    | none => some n

/-- MSIX_EMISSION: the most urgent eligible source is committed by its MSI-X write (18 R531, R535, R536). -/
def execMsixEmission (s : State) : Out :=
  match s.urgent ((List.range 512).filter s.eligible) with
  | none => done s
  | some n =>
    let v := (s.src n).vector
    let e := s.msixEntry v
    done { s with hostOut := s.hostOut ++ [.msix v e.addr e.data], evc := { s.evc with active := s.evc.active ++ [n] } }

/-! ## Delivery to the management cores (18 R537) -/

/-- The management cores that the running imago routes a source to (18 R541 MGMT). -/
def State.mgmtRoute (s : State) (n : Nat) : Nat := if s.imagoRuns then Config.mgmtRoute n % 16 else 0

/-- The group of a source (18 R531). -/
def State.group (s : State) (n : Nat) : Nat := (s.src n).priority / 2 ^ s.evc.prigrp

/-- A source that management core `c` may take: asserted, routed to it, not masked by the imago, not handed to it yet, of a group above that
in which the core took the delivery it is handling, while PS3 does not hold deliveries (18 R537, R539). -/
def State.mgmtTakes (s : State) (masked : List Nat) (c : Nat) (n : Nat) : Bool :=
  s.level n && s.pwr.ps != 3 && bit (s.mgmtRoute n) c && !masked.contains n && !s.evc.mgmtDone.contains (c, n) &&
    match s.evc.nest.getD c [] with
    | m :: _ => decide (m.2 < s.group n)
    | [] => true

/-- A management core that fetches runs: after a watchdog reset it has rejoined (20 R568). -/
def State.mgmtRuns (s : State) (c : Nat) : State :=
  { s with flt := { s.flt with mgmtUp := setBit s.flt.mgmtUp c, mgmtDown := Sparse.drop s.flt.mgmtDown c } }

/-- MGMT_VECTOR_FETCH: deliveries that management core `c` was handling have ended, innermost first, and its vector fetch commits the most
urgent delivery that the imago's own masks do not hold (18 R537; the masks are the imago's, an operand: DEDUCED, log 83). -/
def execMgmtVectorFetch (c : Nat) (fetch : MgmtFetch) (s : State) : Out :=
  if 4 ≤ c ∨ s.imagoRuns = false then done s
  else
    let s := { s.mgmtRuns c with evc := { s.evc with nest := modifyAt s.evc.nest c fun l => l.drop fetch.returns } }
    match s.urgent ((List.range 512).filter (s.mgmtTakes fetch.masked c)) with
    | none => done s
    | some n =>
      done { s with evc := { s.evc with
        nest := modifyAt s.evc.nest c fun l => (n, s.group n) :: l, mgmtDone := s.evc.mgmtDone ++ [(c, n)] } }

/-! ## Watches (18 R530, R541) -/

/-- A write of a watch takes effect. Where it sets EN, or changes CELL, MODE or THRESH of an enabled watch, the comparison is
made at the write itself: in LATCH mode HIT is set where the cell meets the threshold (18 R541; DEDUCED, log 37). -/
def State.changeWatch (s : State) (w : Nat) (f : Watch → Watch) : State :=
  { s with evc := { s.evc with watches := modifyAt s.evc.watches w fun x =>
      let y := f x
      let compared := y.en && (!x.en || x.cell != y.cell || x.mode != y.mode || x.thresh != y.thresh)
      if compared && y.mode && decide (y.thresh ≤ s.cell y.cell) then { y with hit := true } else y } }

/-- A write of EVC_WATCHw_CTRL (18 R541). -/
def State.writeWatch (s : State) (w v : Nat) : State :=
  s.changeWatch w fun x => { x with en := bit v 0, mode := bit v 1, hit := x.hit && !bit v 2, cell := bits v 8 12 }

/-- WATCH_CTRL_WRITE. -/
def execWatchCtrlWrite (w v : Nat) (s : State) : Out := done (s.writeWatch w v)

/-! ## The antenna (18 R538) -/

/-- In PS1, PS2 or PS3, or entering one of them. -/
def State.asleep (s : State) : Bool := s.pwr.ps != 0 || s.pwr.entering.isSome

/-- The antenna wakes the module. -/
def State.antenna (s : State) (cause src : Nat) : State :=
  { s with
    evc := { s.evc with antCause := cause, antSrc := src }
    phys := { s.phys with wakeN := s.phys.wakeN || (s.evc.wakeHost && s.pci.linkL2) } }.wake 1

/-- ANTENNA_WAKE: a PCIe event wakes the module, or the first watched source that is asserted does (18 R538). -/
def execAntennaWake (pcie : Bool) (s : State) : Out :=
  if s.asleep = false then done s
  else if pcie then (if s.evc.wakePcie then done (s.antenna 2 0) else done s)
  else match s.evc.antWatch.find? fun w => w.en && s.level w.src with
    | some w => done (s.antenna 1 w.src)
    | none => done s

/-- A write of SB_WAKE (22 R614). -/
def State.sbWake (s : State) : State := if s.evc.wakeSideband && s.asleep then s.antenna 3 0 else s

/-- SB_WAKE: the sideband writes 0x01. -/
def execSbWake (s : State) : Out := done s.sbWake

end Sys2Proof.Machine
end

