-- ==== Sys2Proof/Machine/WyrdPorts.lean ====
section
/-!
DEFINITION. WyrdPorts.lean: ports and their training, flits, forwarding, heartbeats, the loss of a neighbour, notices, and the
writes of routes and apertures (17 R496-R524; 19 R556; 22 R619).
-/
namespace Sys2Proof.Machine

/-! ## Port states (17 R497, R498) -/

/-- A port changes its state; PORT_CHANGE follows (17 R524). -/
def State.portState (s : State) (p : Nat) (st : PortState) : State :=
  if (s.port p).state = st then s else (s.setPort p fun t => { t with state := st }).wlkEvt p

/-- A port leaves for RETRAIN (17 R500). -/
def State.retrain (s : State) (p : Nat) : State :=
  let s := (s.portState p .retrain).setPort p fun t => { t with retrains := sat64 (t.retrains + 1) }
  { s with life := { s.life with portRetrains := bump s.life.portRetrains p 1 } }

/-- A port may train: the imago runs (21 R593), the ports are not switched off in PS3 (19 R557), and a cable is present (22
R619). -/
def State.mayTrain (s : State) (p : Nat) : Bool :=
  s.imagoRuns && s.pwr.ps != 3 && s.phys.cable.getD p false

/-- Full training begins, no wider than MAX_WIDTH as it stands (17 R496, R497, R523). -/
def State.beginTraining (s : State) (p : Nat) : State :=
  (s.portState p .training).setPort p fun t => { t with trainMax := t.maxWidth }

/-- PORT_TRAIN: a DOWN port with AUTO set begins full training (17 R497). -/
def execPortTrain (p : Nat) (s : State) : Out :=
  let t := s.port p
  if t.state = .down ∧ t.auto = true ∧ s.mayTrain p = true then done (s.beginTraining p) else done s

/-- GEN_MODULE_ID takes the value of the feature, and the other ports that are UP retrain (17 R498). -/
def State.takeModuleId (s : State) (p : Nat) : State :=
  if s.gen.moduleId = s.gen.features.moduleId then s
  else
    let s := { s with gen := { s.gen with moduleId := s.gen.features.moduleId } }
    [0, 1, 2, 3].foldl (fun s q => if q ≠ p ∧ (s.port q).state = .up then s.retrain q else s) s

/-- A port without its neighbour: nothing outstanding stays (17 R518, R520). -/
def Port.lost (t : Port) : Port :=
  { t with width := 0, lanesOk := 0, peerValid := false, nakOut := false, ackDue := false, replay := [], outq := [],
           sending := List.replicate 6 none, owed := List.replicate 6 0, parts := List.replicate 6 [], missed := 0, got := false }

/-- A port that trained meets its neighbour afresh (17 R501, R520). -/
def Port.fresh (t : Port) (x : PortPeer) : Port :=
  { t.lost with width := x.width, lanesOk := x.lanes % 16, peer := x.id, peerValid := true, txSeq := 0, rxSeq := 0, ackOut := 4095,
                credits := classCredits }

/-- What this side sends of itself at the end of a training (17 R498). -/
def State.identity (s : State) : Identity := ⟨s.gen.moduleId, Config.stepping.val, 1⟩

/-- A port whose neighbour presents this identity and version carries no traffic (17 R498). -/
def State.conflicts (s : State) (x : PortPeer) : Bool := x.version != 1 || x.id == s.gen.moduleId

/-- PORT_TRAINED: full training ends, with the identity of the other side, or in failure, as it does where the cable is gone (17 R497,
R498; 22 R619; DEDUCED, log 78). -/
def execPortTrained (p : Nat) (peer : Option PortPeer) (s : State) : Out :=
  let t := s.port p
  if t.state ≠ .training then done s
  else match if s.phys.cable.getD p false then peer else none with
    | none => done ((s.portState p .down).setPort p fun t => { t with lanesOk := 0 })
    | some x =>
      if !([1, 2, 4] : List Nat).contains x.width || decide (t.trainMax < x.width) then done s
      else
        let s := s.takeModuleId p
        let s := s.setPort p fun t => { t with ident := some s.identity }
        if s.conflicts x then
          done ((s.portState p .conflict).setPort p fun t => { t with peer := x.id, peerValid := true, lanesOk := x.lanes % 16 })
        else done ((s.portState p .up).setPort p fun t => t.fresh x)

/-- LANE_LOCK_LOSS: a receiver loses lane lock (17 R500). -/
def execLaneLockLoss (p : Nat) (s : State) : Out := if (s.port p).state = .up then done (s.retrain p) else done s

/-! ## Losing a peer (17 R517-R519) -/

/-- The route entry of a module names port `p`. -/
def State.routedBy (s : State) (p module : Nat) : Bool :=
  let r := Sparse.get {} s.wlk.routes module
  r.valid && r.port == p && module != s.gen.moduleId

/-- What the failure of requests does, in the order they were made; the requests of one BAR2 write count once, those of the accesses
`counted` no more. -/
def failEach : List Nat → List Request → State → State
  | _, [], s => s
  | counted, r :: t, s =>
    let by_ := counted.foldl (fun b a => b.counted a) r.by_
    let counted := match by_ with
      | .bar2Write a _ => a :: counted
      | .bar2Merge a _ _ _ _ => a :: counted
      | _ => counted
    failEach counted t (s.failEffects { r with by_ := by_ } 0x0802)

/-- Requests fail as peer lost: they are gone, and what waited for their answers goes on (17 R506, R513, R519). -/
def failAll (rs : List Request) (s : State) : State :=
  let s := failEach [] rs { s with wlk := { s.wlk with requests := s.wlk.requests.filter fun r => !rs.contains r } }
  (releaseHeld s.wlk.requests.length s).releaseCells

/-- A message that no longer can go on: a request is answered UNDELIVERABLE, a response is dropped (17 R505, R518). -/
def State.bounce (s : State) (m : Msg) : State :=
  let s := s.undeliverable
  if 2 ≤ m.cls then s.answerStatus m 2 else s

/-- Jobs with a binding that names a module that is lost fault (17 R518). -/
def State.faultBound (s : State) (lost : Nat → Bool) : State :=
  [0, 1, 2, 3].foldl (fun s q => match s.run q with
    | some r => match r.binds.find? fun b => lost b.module with
      | some b => s.linkFault q b.module
      | none => s
    | none => s) s

/-- What had arrived on port `p` and has not been performed goes with its neighbour; what is on its way to another port goes on, and holds
none of the port's receive buffers (17 R520; DEDUCED, log 129). -/
def State.dropArrived (s : State) (p : Nat) : State :=
  { s with wlk := { s.wlk with
      inbox := s.wlk.inbox.filter fun e => e.1 != p
      held := s.wlk.held.filter fun e => e.1 != p
      ports := s.wlk.ports.map fun t => { t with outq := mapIf (fun e => e.1 == p) (fun e => (5, e.2)) t.outq } } }

/-- The neighbour of port `p` is declared lost: the port goes to state `next`, and R518 follows. -/
def State.peerLost (s : State) (p : Nat) (next : PortState) : State :=
  let t := s.port p
  let s := (s.portState p next).setPort p fun t => { t.lost with losses := sat64 (t.losses + 1) }
  let s := s.dropArrived p
  let s := { s with life := { s.life with portLost := bump s.life.portLost p 1 } }
  let s := failAll (s.wlk.requests.filter fun r => r.sent && r.port == p) s
  let s := (t.outq.filter fun e => e.1 != 4).foldl (fun s e => (s.owe e.1 e.2).bounce e.2) s
  let s := ((t.sending.filterMap id).filter fun x => x.msg.src != s.gen.moduleId).foldl (fun s x => s.bounce x.msg) s
  let s := { s with wlk := { s.wlk with waits := s.wlk.waits.filter fun w => !s.routedBy p w.src } }
  let s := s.faultBound (s.routedBy p)
  let s := [0, 1, 2, 3].foldl (fun s q => if q ≠ p ∧ (s.port q).state = .up then s.notice q 1 t.peer else s) s
  (s.wlkEvt (4 + p)).tagsFreed

/-- FAST_RETRAIN_DONE: a fast retrain ends, with the identity of the other side or in failure; the port is UP and its replay resumes, or the
peer is lost, as it is where the cable is gone (17 R497, R498, R500; 22 R619; DEDUCED, log 129 for a neighbour in conflict). -/
def execFastRetrainDone (p : Nat) (peer : Option PortPeer) (s : State) : Out :=
  let t := s.port p
  if t.state ≠ .retrain then done s
  else match if s.phys.cable.getD p false then peer else none with
    | none => done (s.peerLost p .down)
    | some x =>
      let s := s.setPort p fun t => { t with ident := some s.identity }
      if s.conflicts x then
        done ((s.peerLost p .conflict).setPort p fun t => { t with peer := x.id, peerValid := true, lanesOk := x.lanes % 16 })
      else
        let s := (s.portState p .up).setPort p fun t => { t with
          peer := x.id, replay := t.replay.map fun f => { f with sends := 1 } }
        done (((s.replayFlits p).send p).flush p)

/-- PORT_DISABLE: DISABLE is written to 1 (17 R497, R517). -/
def State.disablePort (s : State) (p : Nat) : State :=
  let t := s.port p
  let s := s.setPort p fun t => { t with disable := true }
  if t.state = .up ∨ t.state = .retrain then s.peerLost p .disabled else (s.portState p .disabled).setPort p Port.lost

/-- PORT_DISABLE. -/
def execPortDisable (p : Nat) (s : State) : Out := if p < 4 then done (s.activity.disablePort p) else done s

/-- RETRAIN is written to 1: a port that is not disabled begins full training (17 R497, R523). -/
def State.fullTraining (s : State) (p : Nat) : State :=
  if (s.port p).state = .disabled ∨ s.mayTrain p = false then s
  else (s.beginTraining p).setPort p fun t => { t with width := 0, lanesOk := 0, peerValid := false }

/-- RETRAIN. -/
def execRetrain (p : Nat) (s : State) : Out := if p < 4 then done (s.activity.fullTraining p) else done s

/-- A write of WLK_Pp_CTRL (17 R523). -/
def State.writePortCtrl (s : State) (p v : Nat) : State :=
  let w := bits v 4 3
  let s := s.setPort p fun t => { t with auto := bit v 0, maxWidth := if [1, 2, 4].contains w then w else t.maxWidth }
  let s := if bit v 1 then (if (s.port p).disable then s else s.disablePort p)
    else if (s.port p).disable then (s.setPort p fun t => { t with disable := false }).portState p .down
    else s
  if bit v 2 then s.fullTraining p else s

/-- CABLE_PRESENT: a cable is plugged or unplugged; an unplug loses lane lock (22 R619). -/
def execCablePresent (p : Nat) (on : Bool) (s : State) : Out :=
  let s := { s with phys := { s.phys with cable := modifyAt s.phys.cable p fun _ => on } }
  if on = false ∧ (s.port p).state = .up then done (s.retrain p) else done s

/-! ## Flits (17 R499-R501) and forwarding (17 R505) -/

/-- Flits acknowledged up to `ack` leave the replay buffer. -/
def ackUpTo (ack : Nat) (l : List SentFlit) : List SentFlit :=
  if l.any fun f => f.flit.seq == ack then (l.dropWhile fun f => f.flit.seq != ack).drop 1 else l

/-- ACK, NAK and the credits of a flit that is not discarded (17 R500, R501). A flit sent 8 times without acknowledgement leads to RETRAIN. -/
def State.linkControl (s : State) (p : Nat) (f : Flit) : State :=
  let s := s.setPort p fun t => { t with
    replay := ackUpTo f.ack t.replay
    credits := modifyAt t.credits f.crClass fun c => min (c + f.crUnits) (classCredits.getD f.crClass 0) }
  if f.nak then
    let s := (s.setPort p fun t => { t with replay := t.replay.map fun x => { x with sends := x.sends + 1 } }).replayFlits p
    if (s.port p).replay.any fun x => decide (8 ≤ x.sends) then s.retrain p else s
  else s

/-- A message for another module, from port `p`, is forwarded on its route, or answered UNDELIVERABLE (17 R505). -/
def State.forward (s : State) (p : Nat) (m : Msg) : State :=
  if s.wlk.fwdEn = false then (s.owe p m).bounce m
  else match s.route m.dst with
    | none => (s.owe p m).bounce m
    | some q => { s with wlk := { s.wlk with fwdFlits := sat64 (s.wlk.fwdFlits + Msg.flits m) } }.enqueueFrom p q m

/-- R503 lists the message's operation, and R516 a notice's type. -/
def Msg.known (m : Msg) : Bool :=
  match m.cls with
  | 0 => m.op == 0 || (m.op == 1 && decide (1 ≤ bits (dwordAt m.payload 0) 0 4 ∧ bits (dwordAt m.payload 0) 0 4 ≤ 3))
  | 1 => decide (m.op ≤ 2)
  | 2 => decide (m.op ≤ 1)
  | 3 => decide (m.op ≤ 3)
  | 4 => m.op == 1
  | 5 => m.op == 1
  | _ => false

/-- A message has arrived on port `p`: it is forwarded, or stands before its operation; one that R503 does not list is dropped (DESIGN
CHOICE, log 12). Messages other than MGMT are activity (19 R553). -/
def State.arriveMsg (p : Nat) (s : State) (m : Msg) : State :=
  let s := if m.cls = 0 then s else s.activity
  if m.dst ≠ s.gen.moduleId then s.forward p m
  else if Msg.known m = false then s.owe p m
  else if 2 ≤ m.cls ∧ s.holdsRequests = true then
    ({ s with wlk := { s.wlk with held := s.wlk.held ++ [(p, m)] } }).answerStatus m 3
  else { s with wlk := { s.wlk with inbox := s.wlk.inbox ++ [(p, m)] } }

/-- FLIT_RECEIVE: a flit of 256 bytes arrives on port `p` (17 R499, R500); a discarded one is answered by a NAK, an accepted one by an ACK, in
the next flit that leaves, or in an idle one. -/
def execFlitReceive (p : Nat) (bytes : List Byte) (s : State) : Out :=
  if (s.port p).state ≠ .up then done s
  else match flitOf bytes with
  | none =>
    let s := s.setPort p fun t => { t with crc := sat64 (t.crc + 1), nakOut := true }
    done (State.flush { s with life := { s.life with portCrc := bump s.life.portCrc p 1 } } p)
  | some f =>
    let s := if f.idle then s.linkControl p f
      else if f.seq ≠ (s.port p).rxSeq then s.setPort p fun t => { t with nakOut := true }
      else
        let s := (s.linkControl p f).setPort p fun t => { t with
          rxSeq := (t.rxSeq + 1) % 4096, ackOut := f.seq, ackDue := true, rxFlits := sat64 (t.rxFlits + 1) }
        let (msgs, part) := Flit.messages f ((s.port p).parts.getD f.cls [])
        let s := s.setPort p fun t => { t with parts := modifyAt t.parts f.cls fun _ => part }
        (msgs.filter fun m => m.cls == f.cls).foldl (State.arriveMsg p) s
    done ((s.send p).flush p)

/-! ## Heartbeats and notices (17 R516, R517) -/

/-- A message of class MGMT that is the next one of its sender: each sender's are performed in order (17 R511). -/
def State.nextMgmt (s : State) (e : Nat × Msg) : Bool :=
  e.2.cls == 0 && (s.wlk.inbox.find? fun (o : Nat × Msg) => o.2.cls == 0 && o.2.src == e.2.src) == some e

/-- The oldest message of class MGMT for this module that is a heartbeat on port `p`, or a notice of a type, where it is the next one of its
sender. -/
def State.takeMgmt (s : State) (want : Nat × Msg → Bool) : Option (Nat × Msg × State) :=
  match s.wlk.inbox.find? fun (e : Nat × Msg) => want e && s.nextMgmt e with
  | some e => some (e.1, e.2, { s with wlk := { s.wlk with inbox := s.wlk.inbox.erase e } }.owe e.1 e.2)
  | none => none

/-- The next end of a 100 µs period of the timebase. -/
def periodEnd (t : Nat) : Nat := (t / 100000 + 1) * 100000

/-- A heartbeat leaves on port `p`, and its period without one, or with one, ends. -/
def State.heartbeat (s : State) (p : Nat) : State :=
  let t := s.port p
  if t.state = .up then
    let s := s.setPort p fun t => { t with
      missed := if t.got then 0 else t.missed + 1, got := false, hbCount := (t.hbCount + 1) % 2 ^ 32 }
    State.flush (s.enqueue p
      { cls := 0, op := 0, poison := false, tag := 0, src := s.gen.moduleId, dst := t.peer, addr := 0, len := 16, rstatus := 0,
        payload := leBytes 4 s.gen.moduleId ++ leBytes 4 t.hbCount ++ leBytes 8 (b2n s.gen.eclosed) }) p
  else if t.state = .retrain then s.setPort p fun t => { t with missed := if t.got then 0 else t.missed + 1, got := false }
  else s

/-- HEARTBEAT_SEND: a 100 µs period of the timebase ends (17 R516, R517). -/
def execHeartbeatSend (s : State) : Out :=
  done ([0, 1, 2, 3].foldl State.heartbeat { s with time := periodEnd s.time })

/-- HEARTBEAT: a heartbeat has arrived on port `p` (17 R516). -/
def execHeartbeat (p : Nat) (s : State) : Out :=
  match s.takeMgmt fun e => e.1 == p && e.2.op == 0 with
  | some (_, _, s) => done (s.setPort p fun t => { t with got := true })
  | none => done s

/-- HEARTBEAT_LOSS: four periods have passed without a heartbeat on port `p` (17 R517). -/
def execHeartbeatLoss (p : Nat) (s : State) : Out :=
  let t := s.port p
  if 4 ≤ t.missed ∧ (t.state = .up ∨ t.state = .retrain) then done (s.peerLost p .down) else done s

/-- A notice's TYPE, ABOUT and JOB (17 R516). -/
def noticeOf (m : Msg) : Nat × Nat × Nat :=
  (bits (dwordAt m.payload 0) 0 4, bits (dwordAt m.payload 0) 16 16, bits (dwordAt m.payload 1) 0 8)

/-- The oldest notice of a type is taken and recorded (17 R522, R524). -/
def State.takeNotice (s : State) (type evt : Nat) : Option (Nat × Msg × State) :=
  match s.takeMgmt fun e => e.2.op == 1 && (noticeOf e.2).1 == type with
  | some (p, m, s) =>
    let (t, about, job) := noticeOf m
    let last := t + 2 ^ 4 * (p % 4) + 2 ^ 16 * m.src + 2 ^ 32 * about + 2 ^ 48 * job
    some (p, m, { s with wlk := { s.wlk with lastNotice := last } }.wlkEvt evt)
  | none => none

/-- LINK_DOWN: requests to the module it names whose route is the port it came on fail, held ones among them, and jobs with a binding that names it fault (17 R516,
R519, and its example; 20 R563; DEDUCED, log 79). -/
def execLinkDown (s : State) : Out :=
  match s.takeNotice 1 8 with
  | some (p, m, s) =>
    let about := (noticeOf m).2.1
    if s.routedBy p about then
      let gone := s.wlk.requests.filter fun r => r.msg.dst == about && (!r.sent || r.port == p)
      done (((failAll gone s).faultBound fun m => m == about).tagsFreed)
    else done s
  | none => done s

/-- DEPARTING: the sender is declared lost at once (17 R516, R517). -/
def execDeparting (s : State) : Out :=
  match s.takeNotice 2 8 with
  | some (p, _, s) => if (s.port p).state = .up ∨ (s.port p).state = .retrain then done (s.peerLost p .down) else done s
  | none => done s

/-- PEER_JOB_FAULT is recorded; no job is affected (17 R516). -/
def execPeerJobFault (s : State) : Out :=
  match s.takeNotice 3 9 with
  | some (_, _, s) => done s
  | none => done s

/-! ## Routes, apertures, exports (17 R504, R507, R508, R522, R523) -/

/-- A write of WLK_RT_DATA (17 R504, R522). -/
def State.writeRoute (s : State) (v : Nat) : State :=
  let i := s.wlk.rtIndex
  { s with wlk := { s.wlk with
      routes := Sparse.set {} s.wlk.routes i ⟨bits v 0 2, bit v 2⟩
      rtIndex := if s.wlk.rtAuto then (i + 1) % 65536 else i } }

/-- ROUTE_WRITE. -/
def execRouteWrite (v : Nat) (s : State) : Out := done (s.activity.writeRoute v)

/-- The conditions under which an aperture may be enabled (17 R507). -/
def State.apertureOk (s : State) (a : Nat) (w : Aperture) : Bool :=
  let p := w.localBase / pageBytes
  decide (1 ≤ w.pages ∧ w.pages ≤ 25165824) && decide (w.localBase + w.pages * pageBytes ≤ kvBase) &&
    decide (s.mem.allocs.foldl (fun k a => k + heldPages p w.pages a) 0 = w.pages) &&
    !((s.wlk.apertures.zipIdx.any fun (e : Aperture × Nat) =>
      e.2 != a && e.1.en && overlap p (p + w.pages) (e.1.localBase / pageBytes) (e.1.localBase / pageBytes + e.1.pages))) &&
    !(s.idx.indexes.any fun (x : Nat × Index) =>
      let r := x.2.defn.region / pageBytes
      overlap p (p + w.pages) r (r + x.2.defn.regionPages))

/-- A write of WLK_APa_CTRL (17 R507, R523). -/
def State.writeApCtrl (s : State) (a v : Nat) : State :=
  let old := s.wlk.apertures.getD a {}
  let cls := bits v 1 2
  let w := { old with cls := if cls = 3 then old.cls else cls, pages := bits v 32 25 }
  let w := { w with en := bit v 0 && cls != 3 && s.apertureOk a w }
  { s with wlk := { s.wlk with apertures := modifyAt s.wlk.apertures a fun _ => w } }

/-- APERTURE_ENABLE: a write of WLK_APa_CTRL. -/
def execApertureEnable (a v : Nat) (s : State) : Out := done (s.activity.writeApCtrl a v)

end Sys2Proof.Machine
end

