-- ==== Sys2Proof/Machine/Power.lean ====
section
/-!
DEFINITION. Power.lean: operating points, thermal points and trips, power states, their idle timers, entries and wakes (19
R546-R562; 20 R570, R584).
-/
namespace Sys2Proof.Machine

/-! ## Operating points (19 R546) -/

/-- The operating point of die `d`: the lowest of its three bounds. -/
def State.op (s : State) (d : Nat) : Nat :=
  min s.gen.features.opCeiling (min (s.pwr.limPt.getD d 0) (s.pwr.thPt.getD d 0))

/-! ## The lifetime's time histograms (20 R582, R584) -/

/-- One millisecond spent in bin `b` of histogram `h`. -/
def State.spent (s : State) (h b : Nat) : State :=
  let k := 64 * h + b
  { s with life := { s.life with hist := Sparse.set 0 s.life.hist k (sat64 (Sparse.get 0 s.life.hist k + 1000000)) } }

/-- The bin of a temperature, a core supply in mV, a handshake rate in 10⁶/s, an input power in W. -/
def tempBin (t : Int) : Nat := if t < 0 then 0 else min 63 (t.toNat / 2 + 1)
def supplyBin (mv : Nat) : Nat := if mv < 450 then 0 else min 63 ((mv - 450) / 10 + 1)
def rateBin (r : Nat) : Nat := min 63 (r / 30)
def powerBin (w : Nat) : Nat := min 63 (w / 50)

/-- A 1 ms sample of every time histogram. -/
def State.sample (s : State) : State :=
  let s := (List.range 5).foldl (fun s d => s.spent d (tempBin (s.pwr.temp.getD d 0))) s
  let s := (List.range 4).foldl (fun s d => s.spent (5 + d) (supplyBin (s.pwr.vcore.getD d 0))) s
  let s := (List.range 4).foldl (fun s d => s.spent (9 + d) (rateBin (s.pwr.rate.getD d 0))) s
  s.spent 13 (powerBin s.pwr.power)

/-! ## The power limit (19 R547) -/

/-- The highest value of a list and its last place. -/
def highest : List Nat → Option (Nat × Nat)
  | [] => none
  | x :: t => match highest t with
    | some (y, i) => some (if y < x then (x, 0) else (y, i + 1))
    | none => some (x, 0)

/-- The lowest value of a list and its first place. -/
def lowest : List Nat → Option (Nat × Nat)
  | [] => none
  | x :: t => match lowest t with
    | some (y, i) => some (if y < x then (y, i + 1) else (x, 0))
    | none => some (x, 0)

/-- A die's power-limit point changes (DEDUCED, log 85). -/
def State.setLimit (s : State) (d v : Nat) : State :=
  { s with pwr := { s.pwr with limPt := modifyAt s.pwr.limPt d fun _ => v } }.pwrEvt 1

/-- The average of the millisecond lies above PWR_LIMIT. -/
def State.overLimit (s : State) : State :=
  let s := { s with pwr := { s.pwr with below90 := 0 } }
  let s := match highest s.pwr.limPt with
    | some (v, d) => if v = 0 then s else s.setLimit d (v - 1)
    | none => s
  if (List.range 4).all fun d => s.op d == 0 then s.pwrEvt 7 else s

/-- The average of the millisecond lies below 90 % of PWR_LIMIT. -/
def State.underLimit (s : State) : State :=
  if s.pwr.below90 + 1 < 100 then { s with pwr := { s.pwr with below90 := s.pwr.below90 + 1 } }
  else
    let s := { s with pwr := { s.pwr with below90 := 0 } }
    match lowest s.pwr.limPt with
    | some (v, d) => if v < 3 then s.setLimit d (v + 1) else s
    | none => s

/-- The core supply of an operating point in mV, and the least and the largest handshake rate at it over 20-95 °C, in 10⁶/s (19 R543). -/
def pointSupply (op : Nat) : Nat := [600, 680, 740, 800].getD op 800
def pointRates (op : Nat) : Nat × Nat := [(830, 970), (1100, 1300), (1290, 1510), (1470, 1730)].getD op (1470, 1730)

/-- `x` brought into the range from `lo` to `hi`. -/
def clamp (lo hi x : Nat) : Nat := max lo (min hi x)

/-- Compute die `d` is gated or off: by a trip or a hold, or in PS2 and PS3 (19 R549, R550; 20 R570). -/
def State.dark (s : State) (d : Nat) : Bool := s.pwr.gated.getD d false || decide (2 ≤ s.pwr.ps)

/-- The core supply that die `d` has or ramps to: its operating point's, 0.50 V in PS1, 0 while the die is gated (19 R543, R546, R550;
DESIGN CHOICE, log 130). -/
def State.supply (s : State) (d : Nat) : Nat := if s.dark d then 0 else if s.pwr.ps = 1 then 500 else pointSupply (s.op d)

/-- The reading of a die's core supply: on the ramp from the last reading to its supply (19 R546; DESIGN CHOICE, log 130). -/
def State.supplyRead (s : State) (d x : Nat) : Nat :=
  let old := s.pwr.vcore.getD d 0
  clamp (min old (s.supply d)) (max old (s.supply d)) x

/-- The reading of a die's handshake rate: 0 while it is gated, and within the band of its point where its supply stands at the point and
its junction lies within 20-95 °C (19 R543, R560; DESIGN CHOICE, log 130). -/
def State.rateRead (s : State) (d mv x : Nat) : Nat :=
  let t := s.pwr.temp.getD d 0
  if s.dark d then 0
  else if mv = pointSupply (s.op d) ∧ 20 ≤ t ∧ t ≤ 95 then clamp (pointRates (s.op d)).1 (pointRates (s.op d)).2 x else x

/-- The sensors of a millisecond: input power in W, input in mV, core supplies in mV, handshake rates in 10⁶/s (19 R543, R560). -/
def State.sense (s : State) (watts vin : Nat) (vcore rate : List Nat) : State :=
  let mv := fun d => s.supplyRead d (vcore.getD d 0)
  { s with pwr := { s.pwr with
      power := watts, vin := vin, vcore := (List.range 4).map mv
      rate := (List.range 4).map fun d => s.rateRead d (mv d) (rate.getD d 0) } }

/-- POWER_LIMIT_TICK: a millisecond of the timebase ends (19 R547; 20 R584). -/
def execPowerLimitTick (watts vin : Nat) (vcore rate : List Nat) (s : State) : Out :=
  let s := { s with time := (s.time / 1000000 + 1) * 1000000 }
  let s := (s.sense watts vin vcore rate).sample
  done (if s.pwr.limit < watts then s.overLimit
    else if 10 * watts < 9 * s.pwr.limit then s.underLimit
    else { s with pwr := { s.pwr with below90 := 0 } })

/-! ## Temperatures (19 R548, R549; 20 R570) -/

/-- A junction reading; element 4 is the hub die. -/
def State.readTemp (s : State) (d : Nat) (t : Int) : State :=
  { s with pwr := { s.pwr with temp := modifyAt s.pwr.temp d fun _ => t } }

/-- The thermal ceiling. -/
def State.ceiling (s : State) : Int := (s.gen.features.thermalCeiling : Nat)

/-- Die `d` is gated, or its gating ends. -/
def State.setGate (s : State) (d : Nat) (on : Bool) : State :=
  { s with pwr := { s.pwr with gated := modifyAt s.pwr.gated d fun _ => on } }

/-- A trip of die `d` gates it, or its gating for that trip ends; a hub's hold keeps it gated (19 R549; 20 R570). -/
def State.setTrip (s : State) (d : Nat) (on : Bool) : State :=
  { s with pwr := { s.pwr with tripped := modifyAt s.pwr.tripped d fun _ => on } }.setGate d (on || s.flt.hubHold)

/-- A die's thermal point changes; OP_CHANGE follows a change of its operating point. -/
def State.setThermal (s : State) (d v : Nat) : State :=
  let new := { s with pwr := { s.pwr with thPt := modifyAt s.pwr.thPt d fun _ => v } }
  if new.op d = s.op d then new else new.pwrEvt 1

/-- A die's thermal point moves by one, `ns` or more after it last moved (19 R548). -/
def State.stepThermal (s : State) (d v ns : Nat) : State :=
  if v = s.pwr.thPt.getD d 0 then s
  else
    let s := { s with time := max s.time (s.pwr.thAt.getD d 0 + ns) }
    { s with pwr := { s.pwr with thAt := modifyAt s.pwr.thAt d fun _ => s.time } }.setThermal d v

/-- The reaction of compute die `d` to its junction temperature. -/
def State.thermal (s : State) (d : Nat) (t : Int) : State :=
  let v := s.pwr.thPt.getD d 0
  if s.ceiling ≤ t then (s.pwrEvt (2 + d)).setThermal d 0
  else if s.ceiling - 5 ≤ t then (s.pwrEvt (2 + d)).stepThermal d (v - 1) 10000000
  else if t ≤ s.ceiling - 10 then (s.setTrip d false).stepThermal d (min 3 (v + 1)) 100000000
  else s

/-- THERMAL_TICK: a junction reading of compute die `d`, or of the hub where `d` is 4 (19 R548, R549). -/
def execThermalTick (d : Nat) (t : Int) (s : State) : Out :=
  let s := s.readTemp d t
  if d < 4 then done (s.thermal d t) else if d = 4 ∧ 100 ≤ t then done (s.pwrEvt 6) else done s

/-- The job of partition `p` ends by a thermal trip. -/
def State.thermalFault (s : State) (p : Nat) : State := s.latch (.job p) { status := 0x0F06 }

/-- THERMAL_TRIP: compute die `d` reaches its ceiling + 10 °C (19 R549). -/
def execThermalTrip (d : Nat) (t : Int) (s : State) : Out :=
  if 4 ≤ d ∨ t < s.ceiling + 10 ∨ s.pwr.tripped.getD d false = true then done s
  else
    let s := ((s.readTemp d t).thermal d t).setTrip d true
    done ((s.thermalFault (s.partOfDie d)).lifeAdd 15 1)

/-- HUB_THERMAL_HOLD: the hub reaches 110 °C (20 R570; DESIGN CHOICE, log 86). -/
def execHubThermalHold (t : Int) (s : State) : Out :=
  if t < 110 ∨ s.flt.hubHold = true then done s
  else
    let s := (s.readTemp 4 t).pwrEvt 6
    let s := [0, 1, 2, 3].foldl State.thermalFault s
    let s := [0, 1, 2, 3].foldl (fun s d => s.setGate d true) s
    let s := { s with flt := { s.flt with hubHold := true, hubHoldSince := s.time } }
    done ((s.fltEvt 3).lifeAdd 16 1)

/-- HUB_HOLD_END: the hub reaches 95 °C or below (20 R570). A die that a trip of its own gates stays so until its junction has cooled (19
R549). -/
def execHubHoldEnd (t : Int) (s : State) : Out :=
  if 95 < t ∨ s.flt.hubHold = false then done s
  else
    let s := s.readTemp 4 t
    let s := { s with flt := { s.flt with hubHold := false } }
    done ([0, 1, 2, 3].foldl (fun s d => s.setGate d (s.pwr.tripped.getD d false)) s)

/-! ## Idle timers and entry conditions (19 R552, R553) -/

/-- Core `n` is quiescent: it runs no job, its job is held at a step boundary, it has ended its part of a step, or it waits in SIG_WAIT
with nothing else under way (19 R552). -/
def State.quiescent (s : State) (n : Nat) : Bool :=
  let c := s.core n
  match s.run (s.partOfCore n) with
  | none => true
  | some r => (c.run == .idle && (r.phase == .run || r.phase == .post)) || r.phase == .held || (c.wait.isSome && c.dma.isEmpty && c.adds.isEmpty && c.tiles.isEmpty)

/-- Every core is quiescent. -/
def State.allQuiet (s : State) : Bool := (List.range 96).all s.quiescent

/-- Since when every core has been quiescent in PS0: a nanosecond of the timebase starts the timer of R552, or clears it. -/
def State.watchQuiet (s : State) : State :=
  { s with pwr := { s.pwr with
      quietSince := if s.pwr.ps = 0 ∧ s.allQuiet = true then some (s.pwr.quietSince.getD s.time) else none } }

/-- What keeps the module out of every state but PS0 (19 R553). Entries begin once the module is eclosed. -/
def State.mustRun (s : State) : Bool :=
  !s.allQuiet || s.pwr.holdPs1 || s.ecc.scrubs.any (·.running) || s.gen.selfTest.isSome ||
    bit s.ecc.testCtrl 0 || !s.gen.eclosed || !s.flt.detections.isEmpty

/-- A command only waits: JOB_START of a running job, SIG_WAIT, a pending SEQ_STEP. -/
def State.onlyWaits (s : State) (c : Cmd) : Bool :=
  let r : CmdRef := ⟨c.qid, c.cid⟩
  match c.dw 0 % 256 with
  | 0x60 => s.jobs.parts.any fun p => match p.job with | some j => j.cmd == r | none => false
  | 0x6B => s.seqs.steps.any fun x => x.1 == r
  | 0xA3 => c.begun && c.started
  | _ => false

/-- Engine work: migration, write-back, the index engine, announced feed records and a search phase among it. -/
def State.engineWork (s : State) : Bool :=
  !s.mem.flights.isEmpty || (s.jobs.parts.any fun p => p.writeback) ||
    (s.jobs.parts.any fun p => match p.job with | some r => r.phase == .search | none => false) ||
    s.idx.indexes.any fun (x : Nat × Index) =>
      x.2.rebuild || !x.2.compactions.isEmpty || (x.2.defn.feedEn && decide (x.2.feedDone < s.cell x.2.defn.feedCell))

/-- Flash programs, erases and calibrations in progress or pending: a unit that stands whole in the write buffer is pending. -/
def State.flashWork (s : State) : Bool :=
  (s.fl.dies.any fun (d : Nat × Die) => d.2.op.isSome) || !s.fl.eraseQ.isEmpty ||
    (s.fl.buffered.any fun u => decide (16 * (u.2 + 1) ≤ (s.zone u.1).wp)) ||
    (s.fl.zones.any fun (z : Nat × Zone) => z.2.erasing) || (List.range 1536).any s.calibrationDue

/-- What keeps the module out of PS2 and PS3. -/
def State.keepsPs2 (s : State) : Bool :=
  s.mustRun || (s.q.cmds.any fun c => !s.onlyWaits c) || s.engineWork || s.flashWork || s.pwr.holdPs2

/-- What keeps the module out of PS3. -/
def State.keepsPs3 (s : State) : Bool := s.keepsPs2 || s.anyJob || !s.pci.d3hot || s.pwr.holdPs3

/-- Entry into a state begins. -/
def State.enter (s : State) (target : Nat) : State :=
  { s with pwr := { s.pwr with entering := some ⟨target, 0, false⟩ } }

/-- The module stands in power state `ps`, neither entering nor leaving one. -/
def State.settled (s : State) (ps : Nat) : Bool := s.pwr.ps == ps && s.pwr.entering.isNone && !s.pwr.exiting

/-- IDLE_TIMER_PS1: the timer of PS0, which started when the last core became quiescent, expires (19 R552); where the conditions do not
hold, it starts again. A delay of 0 shuts out its state and every deeper one. -/
def execIdleTimerPs1 (s : State) : Out :=
  if s.settled 0 = true ∧ s.gen.features.ps1Us ≠ 0 ∧ s.allQuiet = true then
    let s := { s with time := max s.time (s.pwr.quietSince.getD s.time + s.gen.features.ps1Us * 1000) }
    if s.mustRun then done { s with pwr := { s.pwr with quietSince := some s.time } } else done (s.enter 1)
  else done s

/-- IDLE_TIMER_PS2: the timer of PS1, started by the entry or by the last activity, expires (19 R552); where the conditions do not
hold, it starts again. -/
def execIdleTimerPs2 (s : State) : Out :=
  let f := s.gen.features
  if s.settled 1 = true ∧ f.ps1Us ≠ 0 ∧ f.ps2Ms ≠ 0 then
    let s := { s with time := max s.time (s.pwr.idleSince + f.ps2Ms * 1000000) }
    if s.keepsPs2 then done { s with pwr := { s.pwr with idleSince := s.time } } else done (s.enter 2)
  else done s

/-- IDLE_TIMER_PS3: the timer of PS2, started by the entry, expires (19 R552). -/
def execIdleTimerPs3 (s : State) : Out :=
  let f := s.gen.features
  if s.settled 2 = true ∧ f.ps1Us ≠ 0 ∧ f.ps2Ms ≠ 0 ∧ f.ps3S ≠ 0 then
    let s := { s with time := max s.time (s.pwr.idleSince + f.ps3S * 1000000000) }
    if s.keepsPs3 then done { s with pwr := { s.pwr with idleSince := s.time } } else done (s.enter 3)
  else done s

/-! ## Entry, abandonment and exit (19 R554-R559) -/

/-- Entry steps of a state. -/
def entrySteps (target : Nat) : Nat := match target with | 1 => 1 | 2 => 6 | _ => 4

/-- The time spent in the present state is counted, and another one begins. -/
def State.changePs (s : State) (ps : Nat) : State :=
  let old := s.pwr.ps
  { s with pwr := { s.pwr with
      psTime := bump s.pwr.psTime old (s.time - s.pwr.since), psEntries := bump s.pwr.psEntries ps 1, ps := ps
      since := s.time, idleSince := s.time } }.pwrEvt 0

/-- The ports are switched off: those that carried traffic are DOWN, and what they held is gone (19 R550, R557). -/
def State.portsOff (s : State) : State :=
  [0, 1, 2, 3].foldl (fun s p =>
    let st := (s.port p).state
    if st = .disabled then s
    else
      let s := { s with wlk := { s.wlk with waits := s.wlk.waits.filter fun w => (Sparse.get ({} : Route) s.wlk.routes w.src).port != p } }
      ((s.portState p .down).setPort p Port.lost).dropArrived p) s

/-- A snapshot of the lifetime counters (20 R581). -/
def State.saveLife (s : State) (ok : Bool) : State :=
  if ok then
    let l := { s.life with poweredNs := s.life.poweredNs + s.time, lastSave := s.time }
    { s.logLife 12832 with lifeLog := l, life := { s.life with lastSave := s.time } }
  else s.fltEvt 5

/-- What PS3 does not keep: scratchpads and stacked memory (19 R551). -/
def State.dropStacks (s : State) : State :=
  { s with
    cores := List.replicate 96 {}
    mem := { s.mem with
      stackRaw := [], stackCheck := []
      poison := s.mem.poison.filter fun k => !decide (1 ≤ k / 2 ^ 48 ∧ k / 2 ^ 48 ≤ 4)
      check := s.mem.check.filter fun e => !decide (1 ≤ e.1 / 2 ^ 48 ∧ e.1 / 2 ^ 48 ≤ 4)
      resident := s.mem.resident.filter fun (r : Nat × Resident) => match r.2 with
        | .stacked _ _ _ => false
        | .copy die _ => die.isNone } }

/-- The last entry step ends: the module is in the state (19 R550, R551; 18 R539; 20 R581). -/
def State.entered (s : State) (target : Nat) (saved : Bool) : State :=
  let levels := (List.range 512).filter s.level
  let s := { s with pwr := { s.pwr with entering := none } }.changePs target
  let s := if 2 ≤ target then { s with evc := { s.evc with frozenLevels := some levels } } else s
  if target = 3 then (s.dropStacks.lifeAdd 28 1).saveLife saved else s

/-- An entry is abandoned: what its steps did is undone (19 R559). -/
def State.abandon (s : State) : State :=
  { s with pwr := { s.pwr with
      entering := none, exiting := true, abandons := sat64 (s.pwr.abandons + 1) } }.pwrEvt 9 |>.lifeAdd 30 1

/-- ENTRY_STEP_DONE: an entry step ends at its safe point, and the entry is abandoned there, or goes on (19 R559). `saved`: the
lifetime snapshot at an entry into PS3 is written (20 R581). -/
def execEntryStepDone (saved : Bool) (s : State) : Out :=
  match s.pwr.entering with
  | none => done s
  | some e =>
    let s := if e.target = 3 ∧ e.done = 0 then s.departing.portsOff else s
    if e.abandon then done s.abandon
    else if e.done + 1 < entrySteps e.target then
      done { s with pwr := { s.pwr with entering := some { e with done := e.done + 1 } } }
    else done (s.entered e.target saved)

/-- The exit ends: the module is in PS0 (19 R554, R560). What PS2 held goes on (19 R556). -/
def State.arrivePs0 (s : State) (ns : Nat) : State :=
  let from_ := s.pwr.ps
  let s := { s with time := s.time + ns, pwr := { s.pwr with exiting := false } }
  let s := if from_ = 0 then s
    else { s with pwr := { s.pwr with lastExit := ns % 2 ^ 32 + 2 ^ 32 * from_ } }.changePs 0
  State.bar2Go { s with
    evc := { s.evc with frozenLevels := none }
    wlk := { s.wlk with inbox := s.wlk.inbox ++ s.wlk.held, held := [] } }

/-- POWER_WAKE: the exit, or the abandonment, that a wake cause began ends after `ns` (19 R554, R558). -/
def execPowerWake (ns : Nat) (s : State) : Out := if s.pwr.exiting then done (s.arrivePs0 ns) else done s

/-- A write of PWR_CTRL: a hold wakes the module from the states that it shuts out (19 R561). -/
def State.writePwrCtrl (s : State) (v : Nat) : State :=
  let s := { s with pwr := { s.pwr with holdPs1 := bit v 0, holdPs2 := bit v 1, holdPs3 := bit v 2 } }
  if bit v 8 || bit v 0 then s.wake 1 else if bit v 1 then s.wake 2 else if bit v 2 then s.wake 3 else s

/-- PWR_CTRL_WRITE. -/
def execPwrCtrlWrite (v : Nat) (s : State) : Out := done (s.writePwrCtrl v)

/-- The host takes its link out of L2: WAKE# falls, as the link begins training, and the antenna wakes the module (18 R538). -/
def State.leaveL2 (s : State) : State :=
  let s := { s with phys := { s.phys with wakeN := false } }
  if s.asleep && s.evc.wakePcie then s.antenna 2 0 else s

/-- D_STATE_CHANGE: the function enters or leaves D3hot, its link in L2 or not (18 R538; 19 R554, R557). -/
def execDStateChange (d3hot l2 : Bool) (s : State) : Out :=
  let left := s.pci.d3hot && !d3hot
  let exits := s.pci.linkL2 && !l2
  let s := { s with pci := { s.pci with d3hot := d3hot, linkL2 := l2 } }
  let s := if exits then s.leaveL2 else s
  done (if left then s.wake 3 else s)

end Sys2Proof.Machine
end

