-- ==== Sys2Proof/Machine/Arbiter.lean ====
section
/-!
DEFINITION. Arbiter.lean: the arbiters of the hub resources: their sources, the requests that stand, the grants (09 R273, R274). A
nanosecond of the timebase brings one grant of each resource (DESIGN CHOICE, log 108).
-/
namespace Sys2Proof.Machine

/-! ## The grant (09 R273) -/

/-- The credit of source `s`: zero of one that was not active at the last grant. -/
def Arb.credit (a : Arb) (s : Nat) : Int := ((a.credits.find? fun c => c.1 == s).map (·.2)).getD 0

/-- The active sources with their credits after a grant's addition. `ws`: source numbers with their weights, 0 where inactive. -/
def addCredits (ws : List (Nat × Nat)) (a : Arb) : List (Nat × Int) :=
  (ws.filter fun e => e.2 != 0).map fun e => (e.1, a.credit e.1 + (e.2 : Int))

/-- The source with the largest credit, of several the lowest source number. -/
def largestCredit : List (Nat × Int) → Option (Nat × Int)
  | [] => none
  | e :: t => match largestCredit t with
    | none => some e
    | some f => if e.2 < f.2 ∨ (e.2 = f.2 ∧ f.1 < e.1) then some f else some e

/-- The core that a die grants next: the next of its active cores after the one last granted, in ascending core number, wrapping. -/
def nextCore (cores : List Nat) (last : Option Nat) : Option Nat :=
  match last with
  | none => cores.head?
  | some k => match cores.find? fun n => decide (k < n) with | some n => some n | none => cores.head?

/-- One grant of a resource. `cores`: the active cores of each die. -/
def Arb.grant (a : Arb) (ws : List (Nat × Nat)) (cores : List (List Nat)) : Arb :=
  let credits := addCredits ws a
  let n := ws.foldl (fun (k : Nat) e => k + e.2) 0
  match largestCredit credits with
  | none => { a with credits := [], source := none }
  | some (s, _) =>
    let core := if s < 4 then nextCore (cores.getD s []) (a.last.getD s none) else none
    { credits := credits.map fun e => if e.1 = s then (s, e.2 - (n : Int)) else e
      last := if s < 4 then modifyAt a.last s fun _ => core else a.last
      source := some s
      core := core }

/-! ## The requests that stand (DESIGN CHOICE, log 108) -/

/-- The hub resource that reads of granule `g` use: 0 board memory, 1 the flash read path, 2 + d the inbound link of die `d`. -/
def State.hubOf (s : State) (g : Nat) : Nat :=
  let tier := s.tierOf g
  if tier < 4 then 2 + tier else if flashBase ≤ 64 * g ∧ s.placeOf g = 0 then 1 else 0

/-- The DMA engine of core `n` has a request pending for resource `k`; a die's own stacks need no hub resource. -/
def State.coreAsks (s : State) (k n : Nat) : Bool :=
  match (s.core n).dma with
  | [] => false
  | d :: _ => d.started && (if d.kind = .zone then k == 1
      else k != 2 + n / 24 && d.granules.any fun g => s.hubOf (g.dev / 64) == k && (s.aperture g.dev).isNone)

/-- The cores of die `d` that ask for resource `k`. -/
def State.coresAsking (s : State) (k d : Nat) : List Nat :=
  ((List.range 24).map fun i => 24 * d + i).filter (s.coreAsks k)

/-- A copy channel asks: it reads its page at its source, and fills a frame of a die or of board memory. -/
def Flight.asks (f : Flight) (k : Nat) : Bool :=
  let flash := decide (flashBase ≤ f.page * pageBytes)
  match f.dst with
  | some d => k == 2 + d || k == b2n flash
  | none => k == 0 || (flash && k == 1)

/-- Channel `i` of die `d` asks. -/
def State.channelAsks (s : State) (k d i : Nat) : Bool :=
  match (s.mem.flights.filter fun f => f.die == d)[i]? with
  | some f => f.asks k
  | none => false

/-- The host port reads the flash path for a ZONE_READ. -/
def State.hostAsks (s : State) (k : Nat) : Bool :=
  k == 1 && s.fl.reads.any fun r => match r.by_ with | .zoneRead _ => true | .dma _ | .stage _ => false

/-- A request on the device range that has arrived on port `p` waits to be served. -/
def State.portAsks (s : State) (k p : Nat) : Bool :=
  s.wlk.inbox.any fun e => e.1 == p && decide (2 ≤ e.2.cls ∧ e.2.cls ≤ 5) && s.hubOf (e.2.addr / 64) == k

/-- A command that places or reads data of the device range has begun, and the management cores have not run it. -/
def State.mgmtAsks (s : State) (k : Nat) : Bool :=
  k == 0 && s.q.cmds.any fun c => c.begun && !c.started && !stateMachine (c.dw 0 % 256)

/-- A pass of the step builder is due. -/
def State.builderAsks (s : State) (k : Nat) : Bool :=
  k == 0 && s.jobs.parts.any fun p => match p.job with | some r => r.state == .running && r.phase == .boundary | none => false

/-- A range scrub runs, or the background scrubber walks. -/
def State.scrubAsks (s : State) (k : Nat) : Bool :=
  match s.ecc.scrubs.find? (·.running) with
  | some c => s.hubOf (c.addr / 64) == k
  | none => s.ecc.scbEn && match scbNext s with
    | some ((tier, _), _) => (if tier < 4 then 2 + tier else 0) == k
    | none => false

/-- The sources of resource `k` with their weights: dies 0-3, then the copy channels, the host port, the Wyrdlink ports, the management
cores, the step builder and the scrub engine (09 R273). -/
def State.weights (s : State) (k : Nat) : List (Nat × Nat) :=
  let dies := (List.range 4).map fun d => (s.coresAsking k d).length
  let chans := (List.range 64).map fun i => b2n (s.channelAsks k (i / 16) (i % 16))
  let ports := (List.range 4).map fun p => b2n (s.portAsks k p)
  (dies ++ chans ++ b2n (s.hostAsks k) :: ports ++ [s.mgmtAsks k, s.builderAsks k, s.scrubAsks k].map b2n).zipIdx.map
    fun e => (e.2, e.1)

/-- MIG_ARB_WEIGHT of a list of weights: dies 0-3, then the hub-local total (09 R275). -/
def weightWord (ws : List (Nat × Nat)) : Nat :=
  (ws.take 4).foldl (fun n e => n + 2 ^ (8 * e.1) * e.2) 0 + 2 ^ 32 * (ws.drop 4).foldl (fun n e => n + e.2) 0

/-- A grant of each resource: board memory, the flash read path, the four inbound links. A grant of board memory leaves its weights in
MIG_ARB_WEIGHT. -/
def State.arbitrate (s : State) : State :=
  let ws := s.weights 0
  let asked := ws.any fun e => e.2 != 0
  { s with mig := { s.mig with
      arbs := s.mig.arbs.zipIdx.map fun e => e.1.grant (s.weights e.2) ((List.range 4).map (s.coresAsking e.2))
      arbWeight := if asked then weightWord ws else s.mig.arbWeight } }

/-- No command waits: the timebase of 00 R11 counts a nanosecond while the module has power, the hub resources are granted, and the timer
of PS0 starts where every core is quiescent (19 R552). -/
def idle (s : State) : State := if s.phys.on then { s.arbitrate.watchQuiet with time := s.time + 1 } else s

end Sys2Proof.Machine
end

