-- ==== Sys2Proof/Machine/AtomicPass.lean ====
section
/-!
DEFINITION. AtomicPass.lean: the step builder's pass of every kind of job (06 R182; 08 R224; 12 R334).
-/
namespace Sys2Proof.Machine

/-- The pass of a batch job: pending commands act, or the cores resume with the job's step number (06 R153, R182). -/
def batchPass (p : Nat) (b : Bundle) (s : State) : State :=
  let s := s.commit p
  match s.run p with
  | none => s
  | some r =>
    if r.state = .running then
      (s.resumeCores p b.view.stepEntry 0 (fun _ => ⟨r.step, 0, 0, 0, 0⟩) fun _ => []).setRun p fun r =>
        { r.newStep with stepStart := s.time }
    else s

/-- The step just run is counted: not the prologue, and not a boundary at which the cores are held (07 R203, DEDUCED, log 24). -/
def closesStep (r : Run) : Bool := r.phase == .boundary && !r.first

/-- A held pass of a generation job has nothing that calls for it (08 R224): `gates`, the step builder reads remote gate cells anew. -/
def passIdle (b : Bundle) (r : Run) (gates : Bool) : Bool :=
  b.kind == 1 && r.phase == .held && !r.again && r.pendings.isEmpty && !gates && r.gates.isEmpty

/-- The gate cells on other modules of waiting sequences that the pass to come has not asked for (01 R29; 08 R224; 17 R510). -/
def unaskedGates (s : State) (p : Nat) (r : Run) : List GateRead :=
  (s.liveEntries p).filterMap fun e =>
    if e.2.gated && e.2.state == .waiting && !e.2.leaving && e.2.root.isNone && !r.gates.any fun g => g.entry == e.1 then
      match r.binding e.2.gateBind with
      | some b => if b.module = s.gen.moduleId then none else some ⟨e.1, b.module, b.cell, none, none⟩
      | none => none
    else none

/-- The pass waits for the answers of gate reads: the step builder sends those that it has not sent (17 R510; DESIGN CHOICE, log 38). -/
def gatesWait (s : State) (p : Nat) (b : Bundle) (r : Run) : Bool :=
  b.kind == 1 && (unaskedGates s p r != [] || r.gates.any fun g => g.value.isNone)

/-- Those reads sent. -/
def State.askGates (s : State) (p : Nat) (r : Run) : State :=
  (s.setRun p fun x => { x with gates := x.gates ++ unaskedGates s p r }).sendGates p

/-- ATOMIC_PASS: the step builder's pass on partition `p` (08 R224). `reads`: what reads of consumer words give (DESIGN CHOICE, log 9);
`gates`: a step builder that holds the cores reads the gate cells on other modules anew (DESIGN CHOICE, log 38). It runs when every active
core has arrived, and the gate cells on other modules have been read (17 R510, R514). While the cores of a generation job are held it runs
again for a sequence command, a change of SEQ_POLICY, a gate cell written, or a command pending on the job. After it a self-test may borrow a
core, and the next pass waits for its return (20 R575). -/
def execAtomicPass (p : Nat) (reads : List HostRead) (gates : Bool) (found : List Finding) (s : State) :
    Out :=
  findingOut found s fun s =>
  match s.run p with
  | none => done s
  | some r =>
    match s.bundle r.bundle with
    | none => done s
    | some b =>
      if r.state ≠ .running ∨ (r.phase ≠ .boundary ∧ r.phase ≠ .held) ∨ r.borrow ≠ none ∨ passIdle b r gates = true then done s
      else if gatesWait s p b r then done (s.askGates p r)
      else
        let s := if closesStep r then
            (s.setRun p fun r => { r with steps := r.steps + 1 }).histogram (6 + p) (s.time - r.stepStart)
          else s
        match b.kind, b.kv with
        | 0, _ => done ((batchPass p b s).lend p)
        | 1, some kv =>
          match genPass p b kv r reads found s with
          | .ok s => done ((s.setRun p fun r => { r with gates := [] }).snapshot.lend p)
          | .error (f, s) => done ((s.latch (.job p) f).snapshot)
        | 2, _ => done ((queryPass p b r s).lend p)
        | _, _ => done s

end Sys2Proof.Machine
end

