-- ==== Sys2Proof/Machine/BundleCmds.lean ====
section
/-!
DEFINITION. BundleCmds.lean: BUNDLE_LOAD and BUNDLE_UNLOAD (07 R190-R193; 16 R473).
-/
namespace Sys2Proof.Machine

/-- The signature of an image: valid under some installed key, or absent (07 R189, R190). -/
inductive Signature where
  | absent | valid | invalid
  deriving DecidableEq, Repr

/-- The signature of the trailer. -/
def signatureOf (keys : List BundleKey) (bs : List Byte) : Signature :=
  let t := bs.length - 112
  if dwordAt (bs.drop t) 1 = 0 then .absent
  else if keys.any fun k => ecdsaVerify k.point (bs.take (t + 16)) (slice bs (t + 16) 48) (slice bs (t + 64) 48) then .valid
  else .invalid

/-- The imago knows a major version (07 R192). -/
def knowsMajor (releases : List (Nat × Nat)) (release : Nat) : Bool :=
  let m := release / 2 ^ 24
  releases.any fun e => decide (e.1 / 2 ^ 24 ≤ m ∧ m ≤ e.2 / 2 ^ 24)

/-- Every page of a byte range, in ascending order. -/
def pagesOf (d : Nat × Nat) : List Nat :=
  if d.2 = 0 then [] else (List.range ((d.1 + d.2 - 1) / pageBytes - d.1 / pageBytes + 1)).map fun i => d.1 / pageBytes + i

/-- A weight reference names a full or finished zone range (07 R191 check 11). -/
def refNamed (s : State) (w : WeightRef) : Bool :=
  let n := ceilDiv w.len 4096
  let zs := (List.range (zoneOf (w.lba + n - 1) - zoneOf w.lba + 1)).map fun i => zoneOf w.lba + i
  decide (1 ≤ n) && w.lba % 512 == 0 && decide (w.lba + n ≤ numZones * zoneBlocks) &&
    (zs.all fun z => let st := (s.zone z).state; st == .full || st == .finished) &&
    (List.range n).all fun i => let b := w.lba + i; decide (zoneOff b < (s.zone (zoneOf b)).wp)

/-- The blocks of a reference that cannot be read (13 R376, R377). `bad`: those that their code cannot correct. -/
def refLost (s : State) (bad : List Nat) (w : WeightRef) : List Nat :=
  if refNamed s w then ((List.range (ceilDiv w.len 4096)).map fun i => w.lba + i).filter fun b => bad.contains b || s.wordBad b
  else []

/-- A reference names a full or finished zone range whose bytes can be read and match its CRC. -/
def refOk (s : State) (bad : List Nat) (w : WeightRef) : Bool :=
  refNamed s w && refLost s bad w == [] && crc32c ((s.blocksBytes w.lba (ceilDiv w.len 4096)).take w.len) == w.crc

/-- The blocks that a load's reads lose are suspect, whether the load goes on or not (13 R377). -/
def State.suspectRefs (s : State) (bad : List Nat) (refs : List WeightRef) : State :=
  (ascending (refs.flatMap (refLost s bad))).foldl State.suspectBlock s

/-- The lowest free mapping numbers (16 R471). -/
def freeMaps (s : State) (n : Nat) : List Nat :=
  ((List.range (s.mem.maps.length + n)).filter fun i => (Sparse.find s.mem.maps i).isNone).take n

/-- The device address of an image offset that the placement covers (07 R193). -/
def placedAt (v : BundleView) (off : Nat) : Option Nat :=
  (v.placed.find? fun (g : Nat × Nat × Nat) => decide (g.2.1 ≤ off ∧ off < g.2.1 + g.2.2)).map fun g => g.1 + (off - g.2.1)

/-- Placement (07 R191 check 12, R193; 09 R251): the general-window pages of the declared regions and of the tables are allocated and
take the image's bytes, and each weight reference is mapped. -/
def placeBundle (s : State) (handle : Nat) (bs : List Byte) (v : BundleView) (refs : List WeightRef) :
    Except Nat (State × List Nat) :=
  let tables := placedTables bs v
  let pages := ((v.declared ++ tables.map fun t => (t.1, t.2.length)).flatMap pagesOf).foldl (fun l p => if l.contains p then l else p :: l) []
  let rp := refs.map fun w => (w.addr / pageBytes, ceilDiv w.len pageBytes)
  let clash := rp.zipIdx.any fun (a : (Nat × Nat) × Nat) =>
    (s.mem.maps.any fun (m : Nat × Mapping) => overlap a.1.1 (a.1.1 + a.1.2) m.2.page (m.2.page + m.2.pages)) ||
      rp.zipIdx.any fun (b : (Nat × Nat) × Nat) => a.2 != b.2 && overlap a.1.1 (a.1.1 + a.1.2) b.1.1 (b.1.1 + b.1.2)
  let maps := freeMaps s refs.length
  if (pages.any fun p => (s.allocOf p).isSome) || clash then .error 0x0404
  else if s.boardFree < pages.length ∨ 4096 < s.mem.maps.length + refs.length then .error 0x0401
  else
    let s := pages.foldl (fun (s : State) p =>
      State.zeroPages { s with mem := { s.mem with allocs := s.mem.allocs ++ [Alloc.mk p 1 (.bundle handle)] } } p 1) s
    let s := v.placed.foldl (fun (s : State) g =>
      { s with mem := { s.mem with bytes := Sparse.setList 0 s.mem.bytes g.1 (slice bs g.2.1 g.2.2) } }) s
    let s := tables.foldl (fun (s : State) t =>
      { s with mem := { s.mem with bytes := Sparse.setList 0 s.mem.bytes t.1 t.2 } }) s
    let s := (refs.zip maps).foldl (fun (s : State) e =>
      let m : Mapping := ⟨e.1.addr / pageBytes, ceilDiv e.1.len pageBytes, e.1.lba, some handle⟩
      { s with mem := { s.mem with maps := Sparse.put s.mem.maps e.2 m } }) s
    .ok (s, maps)

/-- The bundle that an accepted image makes. -/
def bundleOf (handle : Nat) (listed : Bool) (bs : List Byte) (v : BundleView) (sched : Schedule) (maps : List Nat) : Bundle :=
  let ts := (rawTables (sectionCount bs 0x05) (sectionBytes bs 0x05)).getD []
  { handle := handle, release := dwordAt bs 2, listed := listed, kind := bits (dwordAt bs 3) 0 2,
    adapter := bit (dwordAt bs 3) 2, partSizes := bits (dwordAt bs 3) 3 3, id := qwordAt bs 8, res := resourcesOf bs, view := v,
    kv := if bits (dwordAt bs 3) 0 2 = 1 then kvRecordOf v.kv else none,
    tables := ts.zipIdx.map fun e => tableOf (v.tableAddrs.getD e.2 0) e.1, luts := lutsOf bs, cals := calsOf bs,
    refs := refsOf bs, sched := sched, hasShadow := (sectionOf bs 0x0A).isSome,
    shadowBase := match sectionOf bs 0x0A with | some x => placedAt v x.off | none => none, live := liveOf bs, maps := maps }

/-- BUNDLE_LOAD's checks in the order of R191, then the bundle (07 R190-R193). `keys` and `level`: what was in force when it began (15 R461; 21 R601). -/
def loadBundle (h : HostCmd) (v : BundleView) (bad : List Nat) (keys : List BundleKey) (level : Nat) (bs : List Byte) (s : State) : State :=
  let d3 := dwordAt bs 3
  let kind := bits d3 0 2
  let adapter := bit d3 2
  let releases := Config.releases s.gen.version
  let release := dwordAt bs 2
  let maxLen := if kind = 2 then 3072 else 4096
  let entries := if kind = 2 ∧ v.postEntry ≠ 0xFFFF then [v.stepEntry, v.postEntry] else [v.stepEntry]
  let refs := refsOf bs
  let sig := signatureOf keys bs
  match lowestFree 64 fun i => (s.bundle i).isSome with
  | none => s.reply h.ref 0x0509 0
  | some handle =>
    if formatOk bs = false ∨ requiredOk v bs = false then s.reply h.ref 0x0501 0
    else if crc32c (bs.take (bs.length - 112)) ≠ dwordAt (bs.drop (bs.length - 112)) 0 then s.reply h.ref 0x0502 0
    else if sig = .invalid then s.reply h.ref 0x0901 0
    else if sig = .absent ∧ level = 2 then s.reply h.ref 0x0902 0
    else if knowsMajor releases release = false then s.reply h.ref 0x0503 0
    else if v.codes.any fun k => !fmtLayoutOk k.1 k.2 then s.reply h.ref 0x0504 0
    else if tablesOk bs adapter = false then s.reply h.ref 0x0505 0
    else match programsBad maxLen entries v.programs.zipIdx with
      | some (i, pc, r) => s.reply h.ref 0x0506 (i + 2 ^ 16 * pc + 2 ^ 28 * r)
      | none =>
        match badOperator kind adapter v with
        | some i => s.reply h.ref 0x050C i
        | none =>
          if !v.acyclic || !noDup v.tensors || (kind == 1 && !((kvRecordOf v.kv).any kvOk)) then
            let (x, s) := s.draw
            s.reply h.ref 0x050C x
          else match scheduleOf (sectionBytes bs 0x08) with
            | none => s.reply h.ref 0x0507 0
            | some sched =>
              if !resourcesOk bs kind (bits d3 3 3) || !addressesOk bs v refs (largestShare (bits d3 3 3)) || !scheduleOk v refs (resourcesOf bs) sched then
                s.reply h.ref 0x0507 0
              else if !refs.all (refOk s bad) then (s.suspectRefs bad refs).reply h.ref 0x0508 0
              else match placeBundle s handle bs v refs with
                | .error e => s.reply h.ref e 0
                | .ok (s, maps) =>
                  let listed := releases.any fun e => decide (e.1 ≤ release ∧ release ≤ e.2)
                  let b := bundleOf handle listed bs v sched maps
                  let s := { s with jobs := { s.jobs with bundles := s.jobs.bundles ++ [b] } }
                  s.ok h.ref (handle + 2 ^ 32 * b2n listed)

/-- BUNDLE_LOAD (07 R191; 16 R473). `v`: what the sections without a byte layout in the spec say; `bad`: blocks of the weight
references that cannot be corrected. -/
def execBundleLoad (h : HostCmd) (v : BundleView) (bad : List Nat) (s : State) : Out :=
  withCmd s h.ref 0x48 fun c s =>
    if c.has 0 = false then s.reply h.ref 0x0105 0 else readBuf h c 0 (c.len 0) s (loadBundle h v bad c.keys c.level)

/-- A queued job, a running job or a cocoon names the bundle (07 R193). -/
def bundleInUse (s : State) (n : Nat) : Bool :=
  (s.jobs.cocoons.any fun k => k.bundle == n) ||
    (s.jobs.queue.any fun q => !q.resume && q.handle == n) ||
    s.jobs.parts.any fun p => match p.job with | some r => r.bundle == n | none => false

/-- BUNDLE_UNLOAD (07 R193; 16 R473). -/
def execBundleUnload (h : HostCmd) (s : State) : Out :=
  withCmd s h.ref 0x49 fun c s =>
    let n := c.handle
    if (s.bundle n).isNone then s.reply h.ref 0x050B 0
    else if bundleInUse s n then s.reply h.ref 0x050A 0
    else
      let gone := fun (m : Nat × Mapping) => m.2.bundle == some n
      let s := (s.mem.maps.filter gone).foldl (fun (s : State) m => s.dropCopies m.2.page m.2.pages) s
      let s := { s with
        jobs := { s.jobs with bundles := s.jobs.bundles.filter fun b => b.handle != n }
        mem := { s.mem with maps := s.mem.maps.filter fun m => !gone m } }
      (s.freeOwner (.bundle n)).ok h.ref 0

end Sys2Proof.Machine
end

