-- ==== Sys2Proof/Machine/CoreControl.lean ====
section
/-!
DEFINITION. CoreControl.lean: control, stream and table instructions (06 R155-R163, R182, R183).
-/
namespace Sys2Proof.Machine

/-- NOP (06 R155): nothing but the PC. -/
def execNop (n : Nat) (w : IWord) (s : State) : Out := issue s n w 0x00 fun s _ _ => retire s n id

/-- LOOP (06 R158, R159). -/
def execLoop (n : Nat) (w : IWord) (s : State) : Out :=
  issue s n w 0x01 fun s _ c =>
    let count := if fld w 0 12 1 = 1 then getX c (fld w 0 8 4) else fld w 1 0 16
    let stop := fld w 1 16 12 + 1
    if 16777215 < count then pfault s n w reasonFieldRange
    else if count = 0 then done (s.setCore n fun c => loopBack 9 { c with pc := stop })
    else done (s.setCore n fun c => { c with
      pc := c.pc + 1
      loops := ⟨c.pc + 1, stop, count, fld w 0 16 4, fld w 2 0 32⟩ :: c.loops })

/-- ADDX: X[n] = X[m] + IMM (06 R155, R158). -/
def execAddx (n : Nat) (w : IWord) (s : State) : Out :=
  issue s n w 0x02 fun s _ _ =>
    retire s n fun c => setX c (fld w 0 8 4) (getX c (fld w 0 16 4) + fld w 2 0 32)

/-- MULX: X[n] = low 32 bits of X[m] × IMM (06 R155, R158). -/
def execMulx (n : Nat) (w : IWord) (s : State) : Out :=
  issue s n w 0x03 fun s _ _ =>
    retire s n fun c => setX c (fld w 0 8 4) (getX c (fld w 0 16 4) * fld w 2 0 32)

/-- TEST (06 R158, R160). The word of a granule with an uncorrectable error is a free value: no rule gives it (DESIGN CHOICE, log 16). -/
def execTest (n : Nat) (w : IWord) (found : List Finding) (s : State) : Out :=
  issue s n w 0x04 fun s r c =>
    match effOff c (fld w 1 0 23) (fld w 0 8 4) 4 with
    | none => pfaultAt s n w reasonAddress (fld w 1 0 23 + getX c (fld w 0 8 4)) .scratchpad
    | some o =>
      if stalls c [(o, 4)] || c.queue.any (fun e => meetAny (footOf (lswOf s r) (e.on c) e.instr).writes [(o, 4)]) then done s
      else
        let (s, v) := s.scan n [(o, 4)] found
        let (word, s) := if badIn v [(o, 4)] then s.draw else (leNat (spadBytes v o 4), s)
        let any := word &&& fld w 2 0 32 != 0
        let acts := if fld w 0 13 1 = 1 then !any else any
        if acts then
          if fld w 0 12 1 = 1 then pfault s n w reasonTrap
          else done (s.setCore n fun c => { c with pc := fld w 3 0 12 })
        else retire s n id

/-- JUMP (06 R160). -/
def execJump (n : Nat) (w : IWord) (s : State) : Out :=
  issue s n w 0x05 fun s _ _ => done (s.setCore n fun c => { c with pc := fld w 3 0 12 })

/-- FENCE (06 R161): completes once every earlier instruction has. -/
def execFence (n : Nat) (w : IWord) (s : State) : Out :=
  issue s n w 0x06 fun s _ c => if quiet c then retire s n id else done s

/-- A held group or an undrained tile faults STEP_END and HALT with GROUP (06 R166). -/
def undrained (c : Core) : Bool := c.group.isSome || c.tiles.any fun t => t.drain.isNone

/-- STEP_END (06 R182). -/
def execStepEnd (n : Nat) (w : IWord) (s : State) : Out :=
  issue s n w 0x07 fun s _ c =>
    if undrained c then pfault s n w reasonGroup
    else if quiet c then done ((s.setCore n fun c => { c with run := .atStepEnd }).arrived n w)
    else done s

/-- HALT (06 R161, R183). -/
def execHalt (n : Nat) (w : IWord) (s : State) : Out :=
  issue s n w 0x08 fun s _ c =>
    if undrained c then pfault s n w reasonGroup
    else if quiet c then done ((s.setCore n fun c => { c with run := .halted }).arrived n w)
    else done s

/-- TRAP (06 R161): faults the job at once with its code. -/
def execTrap (n : Nat) (w : IWord) (s : State) : Out :=
  issue s n w 0x09 fun s _ c => done (s.programFault n reasonTrap (fld w 1 0 16) 0 .none w c.pc)

/-- STREAM (06 R162): the slot is fixed with the register values of this moment. -/
def execStream (n : Nat) (w : IWord) (s : State) : Out :=
  issue s n w 0x10 fun s _ c =>
    match effOff c (fld w 1 0 23) (fld w 0 18 4) 64, effOff c (fld w 3 0 23) (fld w 0 22 4) 8,
        effOff c (fld w 5 0 23) (fld w 0 26 4) 2 with
    | some e, some a, some b =>
      let t : Slot := ⟨fld w 0 12 3, fld w 0 15 2, fld w 0 17 1, e, fld w 2 0 23, a, fld w 4 0 16, b, fld w 6 0 24⟩
      retire s n fun c => { c with slots := Sparse.put c.slots (fld w 0 8 4) t }
    | none, _, _ => pfaultAt s n w reasonAddress (fld w 1 0 23 + getX c (fld w 0 18 4)) .scratchpad
    | _, none, _ => pfaultAt s n w reasonAddress (fld w 3 0 23 + getX c (fld w 0 22 4)) .scratchpad
    | _, _, none => pfaultAt s n w reasonAddress (fld w 5 0 23 + getX c (fld w 0 26 4)) .scratchpad

/-- TABLE (06 R163): only a table address of the bundle may be bound. -/
def execTable (n : Nat) (w : IWord) (s : State) : Out :=
  issue s n w 0x11 fun s r c =>
    let a := (fld w 1 0 32 + 2 ^ 32 * fld w 2 0 16 + getX c (fld w 0 12 4)) % 2 ^ 48
    let known := match s.bundle r.bundle with | some b => b.tables.any fun t => t.addr == a | none => false
    if known then retire s n fun c => { c with tables := Sparse.put c.tables (fld w 0 8 3) a }
    else pfaultAt s n w reasonDevice a .device

end Sys2Proof.Machine
end

