-- ==== Sys2Proof/Machine/CoreReduce.lean ====
section
/-!
DEFINITION. CoreReduce.lean: the reduction and top-k instructions (06 R170; 05 R131-R149; 04 R116).
-/
namespace Sys2Proof.Machine

/-- The common check of the eight instructions (06 R170): the count and range of contexts. -/
def withCtxs (n : Nat) (w : IWord) (s : State) (f : Out) : Out :=
  if ctxCount w = 0 ∨ 256 < ctxFirst w + ctxCount w then pfault s n w reasonFieldRange
  else f

/-- The numbers of the contexts named. -/
def ctxNumbers (w : IWord) : List Nat := (List.range (ctxCount w)).map fun i => ctxFirst w + i

/-- Why the named contexts cannot be used as open ones of their kind (05 R135, 06 R170). Finishing, storing and merging ask for open
contexts as feeding does (DESIGN CHOICE, log 122). -/
def openReason (c : Core) (w : IWord) (topk : Bool) : Option Nat :=
  (ctxNumbers w).findSome? fun k =>
    match Sparse.find c.ctxs k with
    | none => some reasonClosed
    | some x => if (x.kind == .topk) == topk then none else some reasonChainFormat

/-- Change every named context. -/
def mapCtxs (c : Core) (ks : List Nat) (f : Nat → Ctx → Ctx) : Core :=
  { c with ctxs := c.ctxs.map fun e => if ks.contains e.1 then (e.1, f e.1 e.2) else e }

/-- Close the named contexts. -/
def closeCtxs (c : Core) (ks : List Nat) : Core := { c with ctxs := c.ctxs.filter fun e => !ks.contains e.1 }

/-- The bytes of a frame of kind `k` that are read: of a top-k frame, its header and the entries it counts (05 R142; 06 R170). -/
def frameReads (c : Core) (k : CtxKind) (o kReq : Nat) : Nat × Nat :=
  (o, if k = .topk then 32 + 16 * min (leNat (spadBytes c (o + 16) 2)) kReq else 1568)

/-- Offsets of `m` frames from `o` on. -/
def frameOffs (k : CtxKind) (kReq o m : Nat) : List Nat := (List.range m).map fun i => o + i * frameStride k kReq

/-- Frames loaded one after another. -/
def loadAll (k : CtxKind) (chainId kReq : Nat) (c : Core) (o : Nat) : List Nat → Except Nat Core
  | [] => .ok c
  | i :: t =>
    match loadFrame k chainId kReq (spadBytes c o (frameReads c k o kReq).2) with
    | .error r => .error r
    | .ok x => loadAll k chainId kReq { c with ctxs := Sparse.put c.ctxs i x } (o + frameStride k kReq) t

/-- The frames at these offsets are read (06 R170; 10 R282): `f` is given the core as the unit reads it. -/
def readFrames (n : Nat) (w : IWord) (k : CtxKind) (kReq o : Nat) (offs : List Nat) (found : List Finding) (s : State)
    (f : State → Core → Out) : Out :=
  let heads := offs.map fun o => (o, 32)
  let reads := offs.map fun o => frameReads (s.scan n heads found).2 k o kReq
  if !fits heads || !fits reads then pfault s n w reasonFieldRange
  else
    let (s, v) := s.scan n reads found
    if badIn v reads then done (s.poisonFault n w o true) else f s v

/-- RED_OPEN and TOPK_OPEN (05 R135, R143, R148; 06 R170). An instruction that both names an open context and exceeds the engine's storage
faults with CONTEXT_OPEN (DEDUCED, log 42). -/
def openCtxs (n : Nat) (w : IWord) (kind : CtxKind) (kReq : Nat) (found : List Finding) (c : Core) (s : State) : Out :=
  let ks := ctxNumbers w
  let chainId := fld w 2 0 32
  if ks.any fun k => (Sparse.find c.ctxs k).isSome then pfault s n w reasonOpen
  else if kind = .topk ∧ 1024 < (c.ctxs.filter fun e => e.2.kind == .topk).foldl (fun m e => m + e.2.kReq) 0 + kReq * ks.length then
    pfault s n w reasonTopkSpace
  else if fld w 0 10 1 = 0 then
    retire s n fun c => { c with ctxs := ks.foldl (fun m k => Sparse.put m k (freshCtx kind chainId kReq)) c.ctxs }
  else
    match ctxOff c w with
    | none => pfaultAt s n w reasonAddress (fld w 4 0 23 + getX c (fld w 0 12 4)) .scratchpad
    | some o => readFrames n w kind kReq o (frameOffs kind kReq o ks.length) found s fun s v =>
        match loadAll kind chainId kReq v o ks with
        | .error r => pfaultAt s n w r o .scratchpad
        | .ok c' => retire s n fun c => { c with ctxs := c'.ctxs }

/-- RED_OPEN (06 R170). -/
def execRedOpen (n : Nat) (w : IWord) (found : List Finding) (s : State) : Out :=
  issue s n w 0x40 fun s _ c => withCtxs n w s <|
    match fld w 0 8 2 with
    | 1 => openCtxs n w .sum 0 found c s
    | 2 => openCtxs n w .sumsq 0 found c s
    | 3 => openCtxs n w .meanvar 0 found c s
    | _ => pfault s n w reasonReserved

/-- TOPK_OPEN (06 R170, 05 R148). -/
def execTopkOpen (n : Nat) (w : IWord) (found : List Finding) (s : State) : Out :=
  issue s n w 0x50 fun s _ c => withCtxs n w s <|
    let kReq := fld w 3 0 11
    if kReq = 0 ∨ 1024 < kReq ∨ 1024 < kReq * ctxCount w then pfault s n w reasonFieldRange
    else openCtxs n w .topk kReq found c s

/-- The elements of row `i` of a stream slot, with their indices and the overflow of their conversion (02 R47; 05 R131,
R132); none where the row is poisoned (04 R116). -/
def feedElems (c : Core) (o : Slot) (i k0 k gidx : Nat) : OpRow × List (Nat × B32 × Bool) :=
  let l := slotL2 c o i
  let row := operandRow c o false l.1 i k0 k
  let row := { row with poison := row.poison || l.2, own := row.own || l.2 }
  let es := (List.range k).map fun j =>
    let v := row.vals.getD j 0
    let x := (Dyadic.mk v 0).mul (l2Val l.1)
    let x := round32 false ⟨x.m, x.e - b2n (o.fmt = 1)⟩
    (gidx + j, x, isInf32 x)
  (row, es)

/-- Rows of a slot into the named contexts, in order; poison stops before anything is stored. -/
def feedSlot (c : Core) (o : Slot) (k0 k gidx : Nat) (ks : List Nat) : Except Nat Core :=
  ks.zipIdx.foldl (fun acc e =>
    match acc with
    | .error r => .error r
    | .ok c =>
      match Sparse.find c.ctxs e.1 with
      | none => .error reasonClosed
      | some x =>
        match feedAll x (feedElems c o e.2 k0 k gidx).2 with
        | .error r => .error r
        | .ok x => .ok { c with ctxs := Sparse.put c.ctxs e.1 x }) (.ok c)

/-- RED_FEED, and TOPK_FEED from a stream slot (06 R170): a slot that no STREAM has loaded faults with FIELD_RANGE (DESIGN CHOICE, log 123);
OFFSET, which names nothing here, is not checked (DESIGN CHOICE, log 124). -/
def feedFrom (n : Nat) (w : IWord) (topk : Bool) (found : List Finding) (c : Core) (s : State) : Out :=
  match openReason c w topk with
  | some r => pfault s n w r
  | none =>
    match Sparse.find c.slots (fld w 0 16 4) with
    | none => pfault s n w reasonFieldRange
    | some o =>
      let k0 := fld w 6 0 24
      let k := fld w 5 0 17
      let ranges := readRanges o (ctxCount w) k0 k true
      if let some e := slotReason o then pfault s n w e
      else if o.axis = 1 ∧ o.layout ≠ 1 then pfault s n w reasonAxis
      else if !fits ranges then pfault s n w reasonFieldRange
      else
        let (s, v) := s.scan n ranges found
        let rows := (List.range (ctxCount w)).map fun i => (feedElems v o i k0 k 0).1
        if rows.any fun r => r.poison then done (s.poisonFault n w o.elem (rows.any fun r => r.own))
        else match feedSlot v o k0 k (fld w 7 0 32) (ctxNumbers w) with
          | .error r => pfault s n w r
          | .ok c' => retire s n fun c => { c with ctxs := c'.ctxs }

/-- RED_FEED (06 R170). -/
def execRedFeed (n : Nat) (w : IWord) (found : List Finding) (s : State) : Out :=
  issue s n w 0x41 fun s _ c => withCtxs n w s (feedFrom n w false found c s)

/-- Supplied entries offered to one list (05 R145, R147, R148). -/
def offerAll (x : Ctx) (es : List TopEntry) : Ctx :=
  { x with entries := mergeEntries x.kReq x.entries es, seen := sat64 (x.seen + es.length) }

/-- TOPK_FEED of supplied entries; the reserved dword of an entry is ignored (DESIGN CHOICE, log 125). -/
def feedEntries (n : Nat) (w : IWord) (found : List Finding) (c : Core) (s : State) : Out :=
  match openReason c w true with
  | some r => pfault s n w r
  | none =>
    match ctxOff c w with
    | none => pfaultAt s n w reasonAddress (fld w 4 0 23 + getX c (fld w 0 12 4)) .scratchpad
    | some o =>
      let k := fld w 5 0 17
      if !fits [(o, 16 * k)] then pfault s n w reasonFieldRange
      else
        let (s, v) := s.scan n [(o, 16 * k)] found
        if badIn v [(o, 16 * k)] then done (s.poisonFault n w o true)
        else retire s n fun c => mapCtxs c [ctxFirst w] fun _ x => offerAll x (entriesOf (spadBytes v o (16 * k)) k)

/-- TOPK_FEED (06 R170). -/
def execTopkFeed (n : Nat) (w : IWord) (found : List Finding) (s : State) : Out :=
  issue s n w 0x51 fun s _ c => withCtxs n w s <|
    match fld w 0 8 2 with
    | 0 => feedEntries n w found c s
    | 1 => feedFrom n w true found c s
    | _ => pfault s n w reasonReserved

/-- One frame merged into a list (05 R149; 06 R170). -/
def mergeFrame (x : Ctx) (bs : List Byte) : Except Nat Ctx :=
  let kind := bits (dwordAt bs 0) 0 8
  if 1 ≤ kind ∧ kind ≤ 3 then .error reasonNoTree
  else match loadFrame .topk x.chainId x.kReq bs with
    | .error r => .error r
    | .ok y => .ok { x with
        entries := mergeEntries x.kReq x.entries y.entries
        seen := sat64 (x.seen + y.seen)
        ovf := x.ovf || y.ovf
        nan := x.nan || y.nan }

/-- `m` frames from offset `o` on. -/
def mergeAll (c : Core) : Nat → Nat → Ctx → Except Nat Ctx
  | 0, _, x => .ok x
  | m + 1, o, x =>
    match mergeFrame x (spadBytes c o (frameReads c .topk o x.kReq).2) with
    | .error r => .error r
    | .ok y => mergeAll c m (o + frameStride .topk x.kReq) y

/-- TOPK_MERGE (06 R170, 05 R149). -/
def execTopkMerge (n : Nat) (w : IWord) (found : List Finding) (s : State) : Out :=
  issue s n w 0x52 fun s _ c => withCtxs n w s <|
    match openReason c w true, Sparse.find c.ctxs (ctxFirst w) with
    | some r, _ => pfault s n w r
    | none, none => pfault s n w reasonClosed
    | none, some x =>
      match ctxOff c w with
      | none => pfaultAt s n w reasonAddress (fld w 4 0 23 + getX c (fld w 0 12 4)) .scratchpad
      | some o =>
        let frames := fld w 5 0 16
        if frames = 0 then pfault s n w reasonFieldRange
        else readFrames n w .topk x.kReq o (frameOffs .topk x.kReq o frames) found s fun s v =>
          match mergeAll v frames o x with
          | .error r => pfaultAt s n w r o .scratchpad
          | .ok y => retire s n fun c => mapCtxs c [ctxFirst w] fun _ _ => y

/-- What the named contexts leave, one after another (05 R135, R140-R142): offset and bytes of each. `bytes`: what context `k` leaves;
`stride`: the distance after it. -/
def storeRuns (bytes : Ctx → List Byte) (stride : Ctx → Nat) (c : Core) (o : Nat) : List Nat → List (Nat × List Byte)
  | [] => []
  | k :: t =>
    match Sparse.find c.ctxs k with
    | none => storeRuns bytes stride c o t
    | some x => (o, bytes x) :: storeRuns bytes stride c (o + stride x) t

/-- The ranges that the stores write. -/
def storeRanges (bytes : Ctx → List Byte) (stride : Ctx → Nat) (c : Core) (o : Nat) (ks : List Nat) : List (Nat × Nat) :=
  (storeRuns bytes stride c o ks).map fun r => (r.1, r.2.length)

/-- The reduction unit writes runs of bytes; one that an unchecked group reads waits until that group passes (04 R113; 06 R179). -/
def State.unitWrites (s : State) (n : Nat) (found : List Finding) (runs : List (Nat × List Byte)) : State :=
  runs.foldl (fun s r =>
    if heldBack (s.core n) [(r.1, r.2.length)] then s.setCore n fun c => { c with held := c.held ++ [r] }
    else s.writeSpad n r.1 r.2 found) s

/-- RED_FINISH, RED_STORE and TOPK_STORE (06 R170). `found`: what the reads of its narrow writes find (10 R285). -/
def closing (n : Nat) (w : IWord) (topk : Bool) (bytes : Ctx → List Byte) (stride : Ctx → Nat) (found : List Finding) (c : Core)
    (s : State) : Out :=
  match openReason c w topk with
  | some r => pfault s n w r
  | none =>
    match ctxOff c w with
    | none => pfaultAt s n w reasonAddress (fld w 4 0 23 + getX c (fld w 0 12 4)) .scratchpad
    | some o =>
      let ks := ctxNumbers w
      let ranges := storeRanges bytes stride c o ks
      if !fits ranges then pfault s n w reasonFieldRange
      else retire (s.unitWrites n found (storeRuns bytes stride c o ks)) n fun c => closeCtxs c ks

/-- RED_FINISH (05 R139, R140). -/
def execRedFinish (n : Nat) (w : WithFound IWord) (s : State) : Out :=
  match w with
  | ⟨w, found⟩ =>
    issue s n w 0x42 fun s _ c => withCtxs n w s <|
      closing n w false (fun x => recBytes (finishCtx x (fld w 0 8 1 = 1))) (fun _ => 16) found c s

/-- RED_STORE (05 R141, R142). -/
def execRedStore (n : Nat) (w : WithFound IWord) (s : State) : Out :=
  match w with
  | ⟨w, found⟩ =>
    issue s n w 0x43 fun s _ c => withCtxs n w s <| closing n w false ctxFrame (fun x => frameStride x.kind x.kReq) found c s

/-- TOPK_STORE (05 R141, R142). -/
def execTopkStore (n : Nat) (w : WithFound IWord) (s : State) : Out :=
  match w with
  | ⟨w, found⟩ =>
    issue s n w 0x53 fun s _ c => withCtxs n w s <| closing n w true ctxFrame (fun x => frameStride x.kind x.kReq) found c s

end Sys2Proof.Machine
end

