-- ==== Sys2Proof/Machine/JobCmds.lean ====
section
/-!
DEFINITION. JobCmds.lean: JOB_START, JOB_END, JOB_PARK, JOB_ABORT and COCOON_DISCARD (07 R198-R207; 16 R474-R477).
-/
namespace Sys2Proof.Machine

/-- The JOB_START whose job bears a number, queued or held by a partition, by its place in the fetch order (07 R202). -/
def State.jobSeq (s : State) (number : Nat) : Option Nat :=
  match s.jobs.queue.find? fun q => q.number == number with
  | some q => some q.seq
  | none => match s.partOfJob number with
    | some p => (s.run p).map (·.seq)
    | none => none

/-- A job number is queued or held by a partition (07 R202). -/
def State.jobLive (s : State) (number : Nat) : Bool := (s.jobSeq number).isSome

/-- The partition's size is one that PART_SIZES allows (07 R187). -/
def sizeAllowed (s : State) (b : Bundle) : Bool := bit b.partSizes (Nat.log2 s.diesPer)

/-! ## Grants and bindings (16 R475, R476) -/

/-- A grant record read; none where a reserved field is not zero or its kind is reserved. -/
def grantOf (bs : List Byte) : Option Grant :=
  let d0 := dwordAt bs 0
  let base := qwordAt bs 2
  let kind := bits d0 0 2
  let limit := match kind with | 0 => 2 ^ 48 | 1 => 2 ^ 19 | _ => 2 ^ 6
  if d0 / 8 ≠ 0 ∨ kind = 3 ∨ limit ≤ base ∨ (kind = 2 ∧ dwordAt bs 1 ≠ 0) then none
  else some ⟨kind, bit d0 2, dwordAt bs 1, base⟩

/-- Another bundle's query-service job serves index `n` (12 R329). -/
def servedByOther (s : State) (bundle n : Nat) : Bool :=
  let serves := fun (h : Nat) (gs : List Grant) =>
    h != bundle && (match s.bundle h with | some b => b.kind == 2 | none => false) &&
      gs.any fun g => g.kind == 2 && g.base == n
  let bundleOf := fun (q : QueuedJob) =>
    if q.resume then (match s.jobs.cocoons.find? fun c => c.handle == q.handle with | some c => c.bundle | none => 0)
    else q.handle
  (s.jobs.queue.any fun q => serves (bundleOf q) q.grants) ||
    s.jobs.parts.any fun p => match p.job with | some r => serves r.bundle r.grants | none => false

/-- A grant record that JOB_START accepts (16 R475). -/
def grantAllowed (s : State) (b : Bundle) (g : Grant) : Bool :=
  match g.kind with
  | 0 =>
    g.base % pageBytes == 0 &&
      (List.range g.count).all fun i =>
        let a := g.base + i * pageBytes
        (s.allocated a || s.mapped a) && !(g.write && (decide (flashBase ≤ a) || s.inRegion a))
  | 1 => decide (g.base + g.count ≤ numZones) && (List.range g.count).all fun i => (s.zone (g.base + i)).owner.isNone
  | _ => (s.index g.base).isSome && !(b.kind == 2 && servedByOther s b.handle g.base)

/-- The grants cover what the schedule names beyond the declared regions (09 R260; DEDUCED, log 27). -/
def grantsCover (b : Bundle) (gs : List Grant) : Bool :=
  let more := (gs.filter fun g => g.kind == 0).map fun g => (g.base, g.base + g.count * pageBytes)
  b.sched.ranges.all (rangeDeclared b.view b.refs more)

/-- A binding record read; none where a reserved field is not zero. -/
def bindingOf (bs : List Byte) : Option Binding :=
  let d0 := dwordAt bs 0
  if d0 / 2 ^ 20 ≠ 0 ∨ dwordAt bs 1 / 2 ^ 16 ≠ 0 then none else some ⟨bits d0 0 8, bits d0 8 12, dwordAt bs 1⟩

/-- `n` records of `size` bytes, each read by `f`; none where one is refused. -/
def records {α : Type} (f : List Byte → Option α) (size n : Nat) (bs : List Byte) : Option (List α) :=
  (List.range n).mapM fun i => f ((bs.drop (size * i)).take size)

/-- What JOB_START refers to: the bundle, or the status of R198's first check. -/
def startBundle (s : State) (c : Cmd) : Except Nat Bundle :=
  if bit (c.dw 4) 24 then
    match s.jobs.cocoons.find? fun k => k.handle == c.handle with
    | some k => match s.bundle k.bundle with | some b => .ok b | none => .error 0x050B
    | none => .error 0x052C
  else match s.bundle c.handle with | some b => .ok b | none => .error 0x050B

/-- JOB_START after its buffer has been read (07 R198). -/
def startJob (c : Cmd) (ref : CmdRef) (bs : List Byte) (s : State) : State :=
  let p := bits (c.dw 4) 0 2
  let number := bits (c.dw 4) 8 8
  let ng := bits (c.dw 5) 0 7
  let nb := bits (c.dw 5) 16 9
  match startBundle s c with
  | .error e => s.reply ref e 0
  | .ok b =>
    if s.jobLive number then s.reply ref 0x0521 0
    else if s.numParts ≤ p ∨ sizeAllowed s b = false then s.reply ref 0x0522 0
    else if b.res.grants < ng ∨ b.res.bindings < nb then s.reply ref 0x052E 0
    else match records grantOf 16 ng bs, records bindingOf 8 nb (bs.drop (16 * ng)) with
      | some gs, some bd =>
        if !(gs.all (grantAllowed s b)) || !grantsCover b gs || !noDup (bd.map (·.slot)) then s.reply ref 0x052E 0
        else if bit (c.dw 4) 25 && !b.hasShadow then s.reply ref 0x052F 0
        else
          let q : QueuedJob :=
            { number := number, cmd := ref, seq := c.seq, handle := c.handle, resume := bit (c.dw 4) 24, partition := p,
              priority := bits (c.dw 4) 16 4, shadow := bit (c.dw 4) 25, grants := gs, binds := bd }
          { s with
            jobs := { s.jobs with queue := s.jobs.queue ++ [q] }
            idx := { s.idx with serials := Sparse.drop s.idx.serials number } }
      | _, _ => s.reply ref 0x052E 0

/-- JOB_START (07 R198): an accepted command replies when its job ends. -/
def execJobStart (h : HostCmd) (s : State) : Out :=
  withCmd s h.ref 0x60 fun c s =>
    readBuf h c 0 (16 * bits (c.dw 5) 0 7 + 8 * bits (c.dw 5) 16 9) s (startJob c h.ref)

/-! ## JOB_END, JOB_PARK, JOB_ABORT (07 R204) -/

/-- JOB_END, JOB_PARK and JOB_ABORT name the job that bore their number when they began: JOB_NOT_FOUND where none did,
JOB_ALREADY_ENDED where that job's end was committed since (07 R204). -/
def onJob (c : Cmd) (ref : CmdRef) (s : State) (f : Nat → State) : State :=
  let number := bits c.handle 0 8
  if c.job.isNone then s.reply ref 0x0528 0
  else if s.jobSeq number ≠ c.job then s.reply ref 0x052A 0
  else f number

/-- A pending JOB_END or JOB_PARK is added. -/
def State.addPending (s : State) (p : Nat) (park : Bool) (ref : CmdRef) : State :=
  s.setRun p fun r => { r with pendings := r.pendings ++ [⟨park, ref⟩] }

/-- JOB_END (07 R204; 16 R477): pending until a step boundary. -/
def execJobEnd (h : HostCmd) (s : State) : Out :=
  withCmd s h.ref 0x61 fun c s =>
    onJob c h.ref s fun number =>
      match s.partOfJob number with
      | none => s.reply h.ref 0x0529 0
      | some p => s.addPending p false h.ref

/-- JOB_PARK (07 R204, R205; 16 R477): pending until a step boundary; one at a time. -/
def execJobPark (h : HostCmd) (s : State) : Out :=
  withCmd s h.ref 0x62 fun c s =>
    onJob c h.ref s fun number =>
      match s.partOfJob number with
      | none => s.reply h.ref 0x0529 0
      | some p => match s.run p with
        | none => s
        | some r =>
          if r.state ≠ .faulted ∧ (r.parkCmd.isSome ∨ r.pendings.any (·.park)) then s.reply h.ref 0x052D 0
          else s.addPending p true h.ref

/-- The job of a number is aborted: `none` where there is no such job (07 R204). A FAULTED job's abort is pending until its
teardown; a DISPATCHING job is aborted at once as a running one is (DESIGN CHOICE, log 126). -/
def State.abortJob (s : State) (number : Nat) (ref : CmdRef) (reads : List HostRead) : Option State :=
  match s.jobs.queue.find? fun q => q.number == number with
  | some q => some ((s.dropQueued q 0x0527).ok ref 0)
  | none =>
    match s.partOfJob number with
    | none => none
    | some p => match s.run p with
      | none => none
      | some r =>
        if r.state = .faulted then some (s.addPending p false ref)
        else some ((s.abortRun p r reads).ok ref 0)

/-- JOB_ABORT (07 R204; 16 R477): acts at once. `reads`: what reads of consumer words give. -/
def execJobAbort (h : HostCmd) (reads : List HostRead) (s : State) : Out :=
  withCmd s h.ref 0x63 fun c s =>
    onJob c h.ref s fun number => (s.abortJob number h.ref reads).getD s

/-- A job that is being dispatched restores cocoon `n` (07 R207). -/
def State.resuming (s : State) (n : Nat) : Bool :=
  s.jobs.parts.any fun q => match q.job with | some r => r.state == .dispatching && r.resumes == some n | none => false

/-- COCOON_DISCARD (07 R207; 16 R477); a cocoon that a dispatch restores counts as queued for resumption (DEDUCED, log 53). -/
def execCocoonDiscard (h : HostCmd) (s : State) : Out :=
  withCmd s h.ref 0x64 fun c s =>
    let n := bits c.handle 0 6
    if !(s.jobs.cocoons.any fun k => k.handle == n) then s.reply h.ref 0x052C 0
    else if (s.jobs.queue.any fun q => q.resume && q.handle == n) || s.resuming n then s.reply h.ref 0x0529 0
    else
      let s := s.freeKvPages ((s.mem.kvMap.filter fun e => e.2 == .cocoon n).map (·.1))
      let s := { s with jobs := { s.jobs with cocoons := s.jobs.cocoons.filter fun k => k.handle != n } }
      (s.freeOwner (.cocoon n)).ok h.ref 0

end Sys2Proof.Machine
end

