-- ==== Sys2Proof/Machine/QueueOps.lean ====
section
/-!
DEFINITION. QueueOps.lean: doorbells, fetch, begin, range locks, queue commands and ABORT (14 R403-R438; 15 R441, R456; 16 R465-
R467; 19 R555; 21 R598).
-/
namespace Sys2Proof.Machine

/-! ## Range locks (14 R419-R422) -/

/-- The lock that a command takes, from its packet; an append's begins at the write pointer as it stands. -/
def State.lockOf (s : State) (c : Cmd) : Option RangeLock :=
  let zone := fun z n w => some (RangeLock.mk .zone (z * zoneBlocks) ((z + n) * zoneBlocks) w)
  let pages := fun unit w => some (RangeLock.mk .device (c.qw 4) (c.qw 4 + c.dw 6 * unit) w)
  match c.dw 0 % 256 with
  | 0x20 => some ⟨.zone, c.qw 4, c.qw 4 + c.dw 6, false⟩
  | 0x21 => some ⟨.zone, c.qw 4, c.qw 4 + c.dw 6, true⟩
  | 0x22 => some ⟨.zone, c.handle * zoneBlocks + (s.zone c.handle).wp, (c.handle + 1) * zoneBlocks, true⟩
  | 0x23 => zone c.handle 1 true
  | 0x24 => zone c.handle 1 true
  | 0x25 => zone c.handle (c.dw 6) false
  | 0x30 => some ⟨.sysflash, c.dw 4, c.dw 4 + c.dw 6, false⟩
  | 0x31 => some ⟨.sysflash, c.dw 4, c.dw 4 + c.dw 6, true⟩
  | 0x32 => some ⟨.sysflash, c.handle * 65536, (c.handle + 1) * 65536, true⟩
  | 0x40 => pages pageBytes true
  | 0x41 => pages pageBytes true
  | 0x42 => pages pageBytes true
  | 0x43 => match Sparse.find s.mem.maps c.handle with
    | some m => some ⟨.device, m.page * pageBytes, (m.page + m.pages) * pageBytes, true⟩
    | none => none
  | 0x44 => pages pageBytes false
  | 0x45 => pages (if kvBase ≤ c.qw 4 ∧ c.qw 4 < kvEnd then 65536 else pageBytes) false
  | _ => none

/-- Lock entries taken. -/
def State.locks (s : State) : Nat := (s.q.cmds.filter fun c => c.lock.isSome).length

/-- A command that needs a lock entry and holds none waits for one, at the head of the fetch order. -/
def State.wantsLock (s : State) (c : Cmd) : Bool := c.lock.isNone && !c.begun && (s.lockOf c).isSome

/-- The waiting command takes an entry that has been released. -/
def State.takeLock (s : State) : State :=
  if 1024 ≤ s.locks then s
  else match s.q.cmds.find? s.wantsLock with
    | some c => { s with q := { s.q with cmds := s.q.cmds.map fun d => if d.seq = c.seq then { d with lock := s.lockOf d } else d } }
    | none => s

/-- Two locks conflict (14 R420). -/
def RangeLock.conflicts (a b : RangeLock) : Bool := a.space == b.space && overlap a.lo a.hi b.lo b.hi && (a.write || b.write)

/-- A command must wait for an earlier one whose range conflicts with its own (14 R420). -/
def State.lockWaits (s : State) (c : Cmd) : Bool :=
  match c.lock with
  | none => s.wantsLock c
  | some l => (s.before c).any fun d => match d.lock with | some m => l.conflicts m | none => false

/-! ## Doorbells (14 R414) -/

/-- A doorbell error freezes the queue and is logged. -/
def State.doorbellError (s : State) (qid opcode v : Nat) : State :=
  match s.queue qid with
  | none => s
  | some q =>
    let e : ErrEntry := { seq := 0, qid := qid, opcode := opcode, cid := 0xFFFF, status := 0x0208, sqIndex := v % 65536,
                          result := v % 2 ^ 64, param := none, froze := !q.frozen, record := none, time := 0 }
    let s := if q.frozen then s else s.freeze qid (v % 65536) none
    ((s.logError e).markDrained qid).restarts

/-- The value that a doorbell reads. -/
def State.setDoorbell (s : State) (i v : Nat) : State :=
  { s with q := { s.q with doorbells := Sparse.set 0 s.q.doorbells i v } }

/-- A write of a submission tail doorbell. -/
def State.sqDoorbell (s : State) (qid v : Nat) : State :=
  let s := s.activity
  match s.queue qid with
  | none => s
  | some q =>
    let t := v % 65536
    if t < q.sqDepth then (s.setQueue qid fun q => { q with sqTail := t }).setDoorbell (2 * qid) t
    else s.doorbellError qid 0xFF v

/-- A write of a completion head doorbell. -/
def State.cqDoorbell (s : State) (qid v : Nat) : State :=
  let s := s.activity
  match s.queue qid with
  | none => s
  | some q =>
    let t := v % 65536
    let n := (t + q.cqDepth - q.cqHead) % q.cqDepth
    if t < q.cqDepth ∧ n ≤ q.cqTimes.length then
      let s := s.setQueue qid fun q => { q with cqHead := t, cqTimes := q.cqTimes.drop n }
      (s.setDoorbell (2 * qid + 1) t).restarts
    else s.doorbellError qid 0xFE v

/-- SQ_TAIL_DOORBELL (14 R414; DEDUCED, log 82). -/
def execSqTailDoorbell (qid v : Nat) (s : State) : Out := done (s.sqDoorbell qid v)

/-- CQ_HEAD_DOORBELL (14 R414). -/
def execCqHeadDoorbell (qid v : Nat) (s : State) : Out := done (s.cqDoorbell qid v)

/-! ## Fetch (14 R410, R413, R415) -/

/-- The admin queue is served (21 R591, R598). -/
def State.adminServed (s : State) : Bool := s.imagoRuns

/-- Fetching pauses on every queue: before the admin queue is served, in thermal hold, with 16,384 commands held, or behind a
command that waits for a lock entry (14 R415, R422; 20 R570; 21 R598). -/
def State.fetchPaused (s : State) : Bool :=
  !s.adminServed || s.flt.hubHold || decide (16384 ≤ s.q.cmds.length) || s.q.cmds.any s.wantsLock

/-- A packet is accepted into the fetch order. -/
def State.accept (s : State) (qid index : Nat) (ws : List Word) : State :=
  let c : Cmd := { seq := s.q.fetched, qid := qid, cid := (ws.getD 0 0).toNat / 65536, index := index, dwords := ws, fetchTime := s.time }
  let c := { c with lock := if s.locks < 1024 then s.lockOf c else none }
  let s := s.setQueue qid fun q => { q with sqHead := (q.sqHead + 1) % q.sqDepth }
  { s with q := { s.q with cmds := s.q.cmds ++ [c], fetched := s.q.fetched + 1 } }.activity.stopEntry

/-- A packet whose read fails freezes its queue at its entry (14 R410). -/
def State.packetError (s : State) (qid index : Nat) : State :=
  let e : ErrEntry := { seq := 0, qid := qid, opcode := 0xFF, cid := 0xFFFF, status := 0x0106, sqIndex := index, result := 0,
                        param := none, froze := true, record := none, time := 0 }
  ((((s.aerLog (.packet qid index)).freeze qid index (some index)).logError e).markDrained qid).restarts

/-- Up to `n` packets of one queue. -/
def fetchSome (reads : List PacketRead) (qid : Nat) : Nat → State → State
  | 0, s => s
  | n + 1, s =>
    match s.queue qid with
    | none => s
    | some q =>
      if q.frozen || q.sqHead == q.sqTail || s.fetchPaused || decide (q.cqDepth - 1 ≤ s.inUse qid q) then s
      else match reads.find? fun r => r.qid == qid && r.index == q.sqHead with
        | none => s
        | some r => match r.packet with
          | some ws => fetchSome reads qid n (s.accept qid q.sqHead ws)
          | none => s.packetError qid q.sqHead

/-- COMMAND_FETCH: one round, queue 0 first, up to WEIGHT packets from each other queue (14 R415). `reads`: what reads of the
packets give (DEDUCED, log 40). -/
def execCommandFetch (reads : List PacketRead) (s : State) : Out :=
  done ((s.q.queues.map fun (e : Nat × Queue) => (e.1, if e.1 = 0 then 65536 else e.2.weight)).foldl
    (fun s (e : Nat × Nat) => fetchSome reads e.1 e.2 s) s.takeLock)

/-! ## Begin (14 R409, R410, R416; 15 R441; 16 R465-R467) -/

/-- Sixteen bytes of host memory; none where their read fails. -/
def hostRead (reads : List HostRead) (a : Nat) : Option (List Byte) :=
  match reads.find? fun r => match r.bytes with
    | some bs => decide (r.addr ≤ a ∧ a + 16 ≤ r.addr + bs.length) | none => false with
  | some r => match r.bytes with | some bs => some ((bs.drop (a - r.addr)).take 16) | none => none
  | none => none

/-- The descriptors from `a` on, `left` of their array at most where it is a chained one, after those of `ds`: all of them, or the status
of a malformed list or of a failed read (14 R409, R410). The first number bounds the entries. -/
def descriptors (reads : List HostRead) : Nat → Nat → Option Nat → List Desc → Except Nat (List Desc)
  | 0, _, _, _ => .error 0x0102
  | n + 1, a, left, ds =>
    if left = some 0 then .error 0x0102
    else match hostRead reads a with
      | none => .error 0x0106
      | some bs =>
        let addr := qwordAt bs 0
        let len := dwordAt bs 2
        let f := dwordAt bs 3
        let last := bit f 0
        let chain := bit f 1
        if addr % 4 ≠ 0 ∨ len % 4 ≠ 0 ∨ len = 0 ∨ bits f 2 2 ≠ 0 ∨ bits f 8 24 ≠ 0 ∨ (last = true ∧ chain = true) ∨
            (chain = true ∧ len % 16 ≠ 0) then .error 0x0102
        else if chain then descriptors reads n addr (some (len / 16)) ds
        else
          let ds := ds ++ [⟨bits f 4 4, addr, len⟩]
          if last then .ok ds else descriptors reads n (a + 16) (left.map fun k => k - 1) ds

/-- The data descriptors of a packet. -/
def buffersOf (reads : List HostRead) (ddptr : Nat) : Except Nat (List Desc) :=
  if ddptr = 0 then .ok [] else if ddptr % 16 ≠ 0 then .error 0x0102 else descriptors reads 65536 ddptr none []

/-- The opcode is accepted at this point of start-up (16 R466; 21 R598). -/
def State.ready (s : State) (c : Cmd) : Bool :=
  let op := c.dw 0 % 256
  if op < 0x20 then
    if op = 0x07 ∨ op = 0x08 ∨ op = 0x09 ∨ (op = 0x06 ∧ bit (c.dw 4) 1 = true) then s.gen.eclosed else true
  else if op < 0x40 then s.gen.storageReady else s.gen.eclosed

/-- Commands that begin during an exit from PS2 or PS3 (19 R555; DEDUCED, log 84). -/
def beginsAsleep (s : State) (c : Cmd) : Bool :=
  let op := c.dw 0 % 256
  [0x00, 0x02, 0x0A, 0x10, 0x11, 0x12, 0x13].contains op || (op == 0x03 && !bit (c.dw 5) 0) ||
    ([0xA0, 0xA1, 0xA2, 0xA3].contains op && (!bit (c.dw 5) 16 || bits (c.dw 5) 0 16 == s.gen.moduleId))

/-- An earlier administrative command that has begun holds this one back (15 R441). -/
def State.adminWaits (s : State) (c : Cmd) : Bool :=
  c.qid == 0 && s.q.cmds.any fun d => d.qid == 0 && d.begun && !(d.dw 0 % 256 == 0x05 || d.dw 0 % 256 == 0x07)

/-- A PROTECTION_SET waits for the loads that began before it, for a key command, and for a lowering whose command a reset took
(15 R461; 22 R615). -/
def State.protWaits (s : State) (c : Cmd) : Bool :=
  c.qid == 0 && c.dw 0 % 256 == 0x08 &&
    (s.phys.keyBusy.isSome || s.lowering || s.q.cmds.any fun d => d.begun && d.qid != 0 && d.dw 0 % 256 == 0x48)

/-- The command may not begin yet (14 R416, R420, R422; 15 R441, R456, R461; 19 R555); operational commands wait for a lowering that is
under way (13 R397; DESIGN CHOICE, log 114). -/
def State.beginWaits (s : State) (c : Cmd) : Bool :=
  (bit (c.dw 0) 8 && (s.before c).any fun d => d.qid == c.qid) || s.lockWaits c ||
    (s.gen.restarting && !stateMachine (c.dw 0 % 256)) || (s.lowering && decide (0x20 ≤ c.dw 0 % 256)) || s.adminWaits c || s.protWaits c ||
    (decide (2 ≤ s.pwr.ps) && !beginsAsleep s c)

/-- The checks of R467, 1 to 5: the status of the first that fails, or the descriptors. -/
def State.beginCheck (s : State) (c : Cmd) (reads : List HostRead) : Except Nat (List Desc) :=
  let op := c.dw 0 % 256
  match fieldMasks op with
  | none => .error 0x0101
  | some ms =>
    if (c.qid == 0) != decide (op < 0x20) then .error 0x0101
    else if (s.before c).any fun d => d.qid == c.qid && d.cid == c.cid then .error 0x0206
    else if s.ready c = false then .error 0x0107
    else if fieldsOk c ms = false then .error 0x0102
    else buffersOf reads (c.qw 2)

/-- The command begins (14 R416); a JOB_END, JOB_PARK or JOB_ABORT notes the job that bears its number (07 R204), a BUNDLE_LOAD the keys and
the level in force (15 R461; 21 R601). -/
def State.begin_ (s : State) (c : Cmd) (descs : List Desc) : State :=
  let op := c.dw 0 % 256
  let job := if 0x61 ≤ op ∧ op ≤ 0x63 then s.jobSeq (bits c.handle 0 8) else none
  { s with q := { s.q with cmds := s.q.cmds.map fun d =>
      if d.seq = c.seq then { d with
        begun := true, descs := descs, job := job
        keys := if op = 0x48 then s.keysInForce else [], level := if op = 0x48 then s.gen.pl else 0 } else d } }

/-- COMMAND_BEGIN: the oldest fetched command of queue `qid` that has not begun passes its checks and begins, or replies (14
R416; 16 R467). `reads`: what reads of its descriptors give. -/
def execCommandBegin (qid : Nat) (reads : List HostRead) (s : State) : Out :=
  let s := s.takeLock
  match s.q.cmds.find? fun c => c.qid == qid && !c.begun with
  | none => done s
  | some c =>
    if s.beginWaits c then done s
    else match s.beginCheck c reads with
      | .error e => done ((s.replyTo c e 0 none).restarts)
      | .ok descs => done (s.begin_ c descs)

/-! ## Creation, deletion and restart (14 R404-R406, R428, R429) -/

/-- Queue `qid` exists no longer; its QST entry returns to its reset value (14 R438). -/
def State.dropQueue (s : State) (qid : Nat) : State :=
  { s with q := { s.q with
      masks := Sparse.drop s.q.masks qid, queues := Sparse.drop s.q.queues qid, restarts := s.q.restarts.filter fun r => r.qid != qid } }

/-- Queue `qid` is created, its doorbells at 0. -/
def State.addQueue (s : State) (qid : Nat) (q : Queue) : State :=
  let bells := Sparse.drop (Sparse.drop s.q.doorbells (2 * qid)) (2 * qid + 1)
  { s with q := { s.q with queues := Sparse.put s.q.queues qid q, doorbells := bells, masks := Sparse.drop s.q.masks qid } }

/-- The freeze mask that QST_CTRL of a queue that does not exist holds (14 R437; DEDUCED, log 117). -/
def State.idleMask (s : State) (qid : Nat) : Nat := Sparse.get 0x83FE s.q.masks qid

/-- A write of GEN_AQ_ATTR (14 R404). -/
def State.writeAqAttr (s : State) (v : Nat) : State :=
  let s := s.activity
  if bit s.gen.aqAttr 32 then
    if bit v 32 || s.q.cmds.any (fun c => c.qid == 0) then s
    else { s.dropQueue 0 with gen := { s.gen with aqAttr := s.gen.aqAttr % 2 ^ 32 } }
  else
    let ds := v % 2 ^ 32
    let s := { s with gen := { s.gen with aqAttr := ds } }
    if bit v 32 && bits v 0 16 != 0 && bits v 16 16 != 0 then
      { s with gen := { s.gen with aqAttr := ds + 2 ^ 32 } }.addQueue 0
        { sqBase := s.gen.aqSqBase, cqBase := s.gen.aqCqBase, sqDepth := bits v 0 16 + 1, cqDepth := bits v 16 16 + 1,
          freezeMask := s.idleMask 0 }
    else s

/-- GEN_AQ_ATTR_WRITE (14 R404). -/
def execGenAqAttrWrite (v : Nat) (s : State) : Out := done (s.writeAqAttr v)

/-- What reads of packets give of their CIDs, by ring index (14 R428). -/
def cidsOf (qid : Nat) (reads : List PacketRead) : List (Nat × Nat) :=
  reads.filterMap fun r => if r.qid = qid then match r.packet with
    | some ws => some (r.index, (ws.getD 0 0).toNat / 65536)
    | none => none
  else none

/-- A restart begins, at once where its queue is drained (14 R428). -/
def State.addRestart (s : State) (p : PendingRestart) : State :=
  { s with q := { s.q with restarts := s.q.restarts ++ [p] } }.restarts

/-- The freeze mask that a write gives: bits 1 and 2 read 1, bits 0 and 10-14 read 0 (14 R438). -/
def freezeMask (v : Nat) : Nat := (v &&& 0x83F8) + 6

/-- A write of QST_CTRL (14 R429, R438). -/
def State.writeQstCtrl (s : State) (qid v : Nat) (reads : List PacketRead) : State :=
  let s := s.activity
  let s := s.setQueue qid fun q => { q with freezeMask := freezeMask v }
  match s.queue qid with
  | none => { s with q := { s.q with masks := Sparse.set 0x83FE s.q.masks qid (freezeMask v) } }
  | some q =>
    if bit v 16 && qid == 0 && q.frozen then
      s.addRestart ⟨0, bit v 17, none, cidsOf 0 reads, none⟩
    else s

/-- QUEUE0_RESTART: a write of QST_CTRL of queue 0 (14 R429). `reads`: what reads of the packets give in DISCARD mode. -/
def execQueue0Restart (v : Nat) (reads : List PacketRead) (s : State) : Out := done (s.writeQstCtrl 0 v reads)

/-- COALESCE_TIMER: the oldest unconsumed reply of queue `qid` reaches COAL_US (14 R434; DESIGN CHOICE, log 32). -/
def execCoalesceTimer (qid : Nat) (s : State) : Out :=
  match s.queue qid with
  | none => done s
  | some q => match q.cqTimes with
    | [] => done s
    | t :: _ => if q.coalUs = 0 then done s else done { s with time := max s.time (t + q.coalUs * 1000) }

/-- QUEUE_CREATE (14 R405). -/
def execQueueCreate (h : HostCmd) (s : State) : Out :=
  withCmd s h.ref 0x10 fun c s =>
    let qid := bits c.handle 0 8
    let mask := bits (c.dw 9) 0 16
    if qid = 0 then s.reply h.ref 0x0201 0
    else if (s.queue qid).isSome then s.reply h.ref 0x0202 0
    else if c.qw 4 % 4096 ≠ 0 ∨ c.qw 6 % 4096 ≠ 0 ∨ bits (c.dw 8) 0 16 = 0 ∨ bits (c.dw 8) 16 16 = 0 ∨ mask &&& 0x7C01 ≠ 0 ∨
        bits (c.dw 9) 16 8 = 0 then s.reply h.ref 0x0203 0
    else
      (s.addQueue qid
        { sqBase := c.qw 4, cqBase := c.qw 6, sqDepth := bits (c.dw 8) 0 16 + 1, cqDepth := bits (c.dw 8) 16 16 + 1,
          weight := bits (c.dw 9) 16 8, coalCount := bits (c.dw 10) 0 16, coalUs := bits (c.dw 10) 16 16,
          freezeMask := freezeMask mask }).ok h.ref 0

/-- QUEUE_DELETE (14 R406). -/
def execQueueDelete (h : HostCmd) (s : State) : Out :=
  withCmd s h.ref 0x11 fun c s =>
    let qid := bits c.handle 0 8
    if qid = 0 ∨ (s.queue qid).isNone then s.reply h.ref 0x0201 0
    else if s.q.cmds.any fun d => d.qid == qid then s.reply h.ref 0x0204 0
    else (s.dropQueue qid).ok h.ref 0

/-- QUEUE_RESTART (14 R428). `reads`: what reads of the packets give in DISCARD mode. -/
def execQueueRestart (h : HostCmd) (reads : List PacketRead) (s : State) : Out :=
  withCmd s h.ref 0x12 fun c s =>
    let qid := bits c.handle 0 8
    match s.queue qid with
    | none => s.reply h.ref 0x0201 0
    | some q =>
      if qid = 0 then s.reply h.ref 0x0201 0
      else if !q.frozen then s.reply h.ref 0x0205 0
      else
        s.addRestart ⟨qid, bit (c.dw 4) 0, some h.ref, cidsOf qid reads, none⟩

/-! ## ABORT (14 R430-R433) -/

/-- Opcodes whose point of no return lies after their beginning (14 R432; 15 R454-R460; 16 R492). -/
def abortable (op : Nat) : Bool :=
  [0x01, 0x05, 0x06, 0x07, 0x08, 0x20, 0x21, 0x22, 0x23, 0x24, 0x25, 0x30, 0x31, 0x32, 0x44, 0x45, 0x48, 0x61, 0x62, 0x68, 0x69,
   0x6A, 0x6B, 0x82, 0x83, 0x84, 0x90, 0x91, 0x92, 0xA0, 0xA1, 0xA2, 0xA3].contains op

/-- A host signal operation that has been sent to a peer: its cell may have changed (16 R490, R492; DEDUCED, log 81). -/
def State.sentSig (s : State) (r : CmdRef) : Bool :=
  s.wlk.requests.any fun q => match q.by_ with | .hostSig c op => c == r && q.sent && op != 0 | _ => false

/-- What waits of a command is withdrawn (14 R432). -/
def State.withdraw (s : State) (r : CmdRef) : State :=
  let mineSf := fun (o : SfOp) => match o with
    | .erase _ c => c == some r | .program _ _ c => c == some r | .slotErase _ _ c => c == some r
    | .slotProgram _ => false | .config _ _ _ => false
    | .lowerKey _ c => c == some r | .lowerCommit _ c => c == some r | .lowerRest c => c == some r
  let lowers := s.sf.ops.any fun o => mineSf o && match o with | .lowerKey _ _ => true | .lowerCommit _ _ => true | _ => false
  let runs := match s.sf.ops with | .lowerKey _ c :: _ => c == some r | .lowerCommit _ c :: _ => c == some r | _ => false
  let leaving := s.seqs.leaves.filter fun l => l.cmd == r
  let others := s.seqs.leaves.filter fun l => l.cmd != r
  let s := leaving.foldl (fun s l =>
    s.setEntry l.entry fun e => { e with leaving := others.any fun o => o.entry == l.entry }) s
  let commit := match s.gen.fwOp with | some (.commit c _ _ _) => c == some r | _ => false
  let mineReq := fun (q : Request) => match q.by_ with | .hostSig c _ => c == r | _ => false
  let reqs := mapIf (fun (q : Request) => mineReq q && q.sent) (fun q => { q with by_ := .abandoned })
    (s.wlk.requests.filter fun q => q.sent || !mineReq q)
  let s := { s with
    wlk := { s.wlk with requests := reqs }
    fl := { s.fl with
      arrived := s.fl.arrived.filter fun o => o.cmd != some r
      reads := s.fl.reads.filter fun o => match o.by_ with | .zoneRead c => c != r | _ => true }
    sf := { s.sf with ops := s.sf.ops.filter fun o =>
      !(mineSf o) && !(commit && match o with | .slotProgram _ => true | _ => false) }
    gen := { s.gen with fwOp := if commit then none else s.gen.fwOp }
    seqs := { s.seqs with
      leaves := others, steps := s.seqs.steps.filter fun c => c.1 != r }
    jobs := { s.jobs with parts := s.jobs.parts.map fun p => { p with job := p.job.map fun j =>
      { j with pendings := j.pendings.filter fun c => c.cmd != r } } }
    idx := { s.idx with queries := s.idx.queries.filter fun q => q.cmd != r }
    sig := { s.sig with waits := s.sig.waits.filter fun w => w.cmd != r } }
  let s := if lowers then s.dropKeys.voidTallies else s
  let s := if runs then s.startSf else s
  (releaseHeld s.wlk.requests.length s).releaseAll

/-- A range scrub is aborted: it has read its first granules, how many is a free value (DESIGN CHOICE, log 63), and its record covers
them (10 R291); a scrub that waited has read none. -/
def State.abortScrub (s : State) (sc : Scrub) (found : List Finding) : State :=
  let (x, s) := s.draw
  let n := if sc.running then x % (scrubSize s sc + 1) else 0
  let (k, s) := scrubRange s sc n found
  let s := s.endScrub sc.cmd
  if sc.record then s.hostData sc.cmd 0 (scrubRecord k) else s

/-- The cores that jobs lent to a self-test that has ended return. -/
def State.endLoans (s : State) : State :=
  { s with jobs := { s.jobs with parts := s.jobs.parts.map fun p => { p with job := p.job.map fun j => { j with borrow := none } } } }

/-- The record of a range scrub or of a self-test that is aborted, or nothing (10 R291; 15 R459). -/
def State.abortRecords (s : State) (r : CmdRef) (found : List Finding) : State :=
  let s := match s.ecc.scrubs.find? fun c => c.cmd == r with
    | some sc => s.abortScrub sc found
    | none => s
  match s.gen.selfTest with
  | some t => if t.cmd = r then (s.endSelfTest t true).endLoans else s
  | none => s

/-- ABORT of a live JOB_START: it acts as JOB_ABORT of its job (14 R433). -/
def State.abortStart (s : State) (t : Cmd) (ref : CmdRef) (reads : List HostRead) : State :=
  let number := bits (t.dw 4) 8 8
  let own := fun (c : CmdRef) => c == ⟨t.qid, t.cid⟩
  let queued := s.jobs.queue.any fun q => own q.cmd
  let faulted := s.jobs.parts.any fun p => match p.job with | some r => own r.cmd && r.state == .faulted | none => false
  let runs := s.jobs.parts.any fun p => match p.job with | some r => own r.cmd | none => false
  if faulted then s.setCmd ⟨t.qid, t.cid⟩ fun c => { c with abortBy := some ref }
  else if queued || runs then match s.abortJob number ref reads with | some s => s | none => s.ok ref 0
  else (s.reply ⟨t.qid, t.cid⟩ 0x0527 0).ok ref 0

/-- ABORT (14 R430-R433): of a JOB_START that has not begun too, JOB_ABORTED stands in place of ABORTED. `reads`: what reads of consumer
words give where a job ends. -/
def execAbort (h : HostCmd) (reads : List HostRead) (s : State) : Out :=
  withCmd s h.ref 0x13 fun c s =>
    let qid := bits c.handle 0 8
    let cid := bits (c.dw 4) 0 16
    if (s.queue qid).isNone then s.reply h.ref 0x0201 0
    else match s.q.cmds.find? fun d => d.qid == qid && d.cid == cid with
      | none => s.reply h.ref 0x0104 0
      | some t =>
        let op := t.dw 0 % 256
        let r : CmdRef := ⟨qid, cid⟩
        if qid = 0 ∧ op = 0x13 then s.reply h.ref 0x0104 0
        else if !t.begun then ((s.replyTo t (if op = 0x60 then 0x0527 else 0x0103) 0 none).restarts).ok h.ref 0
        else if op = 0x60 then s.abortStart t h.ref reads
        else if t.pnr || !abortable op || s.sentSig r then s.setCmd r fun c => { c with abortBy := some h.ref }
        else ((((s.abortRecords r h.found).withdraw r).reply r 0x0103 0).ok h.ref 0).keyRun

end Sys2Proof.Machine
end

