-- ==== Sys2Proof/Machine/ZoneOps.lean ====
section
/-!
DEFINITION. ZoneOps.lean: the zone commands, the zones' sequencers, and what the dies finish (13 R364-R387; 16 R468-R470).
-/
namespace Sys2Proof.Machine

/-! ## Holds (13 R366) -/

/-- A half-open block range meets zone `z`. -/
def meetsZone (z first n : Nat) : Bool := overlap first (first + n) (z * zoneBlocks) ((z + 1) * zoneBlocks)

/-- A loaded bundle's weight reference, a mapping or a grant of a queued or running job holds zone `z`. -/
def State.zoneHeld (s : State) (z : Nat) : Bool :=
  (s.jobs.bundles.any fun b => b.refs.any fun w => meetsZone z w.lba (ceilDiv w.len 4096)) ||
    (s.mem.maps.any fun (m : Nat × Mapping) => meetsZone z m.2.lba (512 * m.2.pages)) ||
    (s.jobs.queue.flatMap (·.grants) ++ s.jobs.parts.flatMap fun p => match p.job with | some r => r.grants | none => []).any
      fun g => g.kind == 1 && decide (g.base ≤ z ∧ z < g.base + g.count)

/-! ## The commands -/

/-- The zone of a write, append, reset or finish. -/
def Cmd.zoneOf (c : Cmd) : Nat := if c.dw 0 % 256 = 0x21 then Machine.zoneOf (c.qw 4) else c.handle

/-- A command that passes through a zone's sequencer. -/
def Cmd.sequenced (c : Cmd) : Bool := decide (0x21 ≤ c.dw 0 % 256 ∧ c.dw 0 % 256 ≤ 0x24)

/-- A zone command stands before its sequencer. -/
def State.arrive (s : State) (o : Sequenced) : State := { s with fl := { s.fl with arrived := s.fl.arrived ++ [o] } }

/-- ZONE_WRITE: the checks of acceptance, then its buffer is read (13 R367, R368; 16 R468-R470). -/
def execZoneWrite (h : HostCmd) (s : State) : Out :=
  withCmd s h.ref 0x21 fun c s =>
    let lba := c.qw 4
    let n := c.dw 6
    if c.len 0 < n * 4096 then s.reply h.ref 0x0105 0
    else if numZones ≤ zoneOf lba then s.reply h.ref 0x030A 0
    else if n = 0 ∨ 2048 < n ∨ zoneBlocks < zoneOff lba + n then s.reply h.ref 0x0303 0
    else readBuf h c 0 (n * 4096) s fun bs s =>
      s.arrive ⟨some h.ref, zoneOf lba, .write false, zoneOff lba, n, bs⟩

/-- ZONE_APPEND (13 R367, R368). -/
def execZoneAppend (h : HostCmd) (s : State) : Out :=
  withCmd s h.ref 0x22 fun c s =>
    let n := c.dw 6
    if c.len 0 < n * 4096 then s.reply h.ref 0x0105 0
    else if numZones ≤ c.handle then s.reply h.ref 0x030A 0
    else if n = 0 ∨ 2048 < n then s.reply h.ref 0x0303 0
    else readBuf h c 0 (n * 4096) s fun bs s => s.arrive ⟨some h.ref, c.handle, .write true, 0, n, bs⟩

/-- ZONE_RESET (13 R371). -/
def execZoneReset (h : HostCmd) (s : State) : Out :=
  withCmd s h.ref 0x23 fun c s =>
    if numZones ≤ c.handle then s.reply h.ref 0x030A 0 else s.arrive ⟨some h.ref, c.handle, .reset, 0, 0, []⟩

/-- ZONE_FINISH (13 R372). -/
def execZoneFinish (h : HostCmd) (s : State) : Out :=
  withCmd s h.ref 0x24 fun c s =>
    if numZones ≤ c.handle then s.reply h.ref 0x030A 0 else s.arrive ⟨some h.ref, c.handle, .finish, 0, 0, []⟩

/-! ## The sequencer (13 R367-R372) -/

/-- A reply to the command of a sequenced operation, where a reply is still due. -/
def State.replyOpt (s : State) (c : Option CmdRef) (status result : Nat) : State :=
  match c with
  | some r => s.reply r status result
  | none => s

/-- A reset or finish that waited for earlier writes takes effect once none is left (13 R371, R372). -/
def State.runSequencer (s : State) (z : Nat) : State :=
  match s.fl.seqd.find? fun o => o.zone == z with
  | none => s
  | some o =>
    let rest := { s with fl := { s.fl with seqd := s.fl.seqd.erase o } }
    match o.op with
    | .write _ => s
    | .reset =>
      if (s.zone z).state = .offline then rest.replyOpt o.cmd 0x0309 0 else (rest.resetZone z).replyOpt o.cmd 0 0
    | .finish =>
      let y := s.zone z
      match y.state with
      | .readOnly => rest.replyOpt o.cmd 0x0308 0
      | .offline => rest.replyOpt o.cmd 0x0309 0
      | .full | .finished => rest.replyOpt o.cmd 0 y.wp
      | .empty | .opened =>
        let s := rest.finishZone z
        s.replyOpt o.cmd 0 (s.zone z).wp

/-- The state a write meets at its zone (13 R364, R367). -/
def Zone.writeStatus (x : Zone) : Nat :=
  match x.state with
  | .readOnly => 0x0308
  | .offline => 0x0309
  | .full | .finished => 0x0302
  | .empty | .opened => if x.seqPtr = zoneBlocks then 0x0302 else 0

/-- The status of a write at its sequencing, 0 where it is placed (13 R365, R367, R368). -/
def State.writeCheck (s : State) (o : Sequenced) (append : Bool) : Nat :=
  let x := s.zone o.zone
  if x.owner.isSome then 0x0307
  else if x.writeStatus ≠ 0 then x.writeStatus
  else if append = true ∧ zoneBlocks < x.seqPtr + o.blocks then 0x0303
  else if append = false ∧ o.first ≠ x.seqPtr then 0x0301
  else if x.state = .empty ∧ 1024 ≤ s.openZones then 0x0305
  else 0

/-- A write is placed at the sequencing pointer (13 R369). -/
def State.placeWrite (s : State) (o : Sequenced) : State :=
  let at_ := (s.zone o.zone).seqPtr
  let s := s.setZone o.zone fun x => { x with state := .opened, seqPtr := at_ + o.blocks }
  let s := { s with fl := { s.fl with seqd := s.fl.seqd ++ [{ o with first := at_ }] } }
  (s.bufferUnits o.zone at_ o.blocks o.data).kickZone o.zone

/-- The status of a reset or finish at its sequencing, 0 where it proceeds. -/
def State.eraseCheck (s : State) (o : Sequenced) : Nat :=
  let x := s.zone o.zone
  if x.owner.isSome then 0x0307
  else if o.op = .reset ∧ s.zoneHeld o.zone = true then 0x0306
  else if x.state = .offline then 0x0309
  else if o.op = .finish ∧ x.state = .readOnly then 0x0308
  else 0

/-- The operation `o` of the command `r` is sequenced. -/
def State.sequence (s : State) (r : CmdRef) (o : Sequenced) : State :=
  let s := { s with fl := { s.fl with arrived := s.fl.arrived.erase o } }
  let refuse := fun (st : Nat) => s.reply r st 0
  match o.op with
  | .write append => let st := s.writeCheck o append; if st ≠ 0 then refuse st else (s.commitCmd r).placeWrite o
  | .reset | .finish =>
    let st := s.eraseCheck o
    if st ≠ 0 then refuse st
    else
      let s := { s.commitCmd r with fl := { s.fl with seqd := s.fl.seqd ++ [o] } }
      (if o.op = .finish then s.padTail o.zone else s).runSequencer o.zone

/-- An earlier command of its queue, to the same zone, has not been sequenced (13 R368). -/
def State.waitsTurn (s : State) (c : Cmd) : Bool :=
  (s.q.cmds.takeWhile fun x => x != c).any fun x => x.qid == c.qid && x.sequenced && x.zoneOf == c.zoneOf && !x.pnr

/-- ZONE_SEQUENCE: the command's write, reset or finish reaches its zone's sequencer (13 R365-R369, R371, R372). -/
def execZoneSequence (qid cid : Nat) (s : State) : Out :=
  match s.cmd ⟨qid, cid⟩, s.fl.arrived.find? fun o => o.cmd == some ⟨qid, cid⟩ with
  | some c, some o =>
    if s.waitsTurn c = true ∨ (s.fl.seqd.any fun x => x.zone == o.zone && (x.op == .reset || x.op == .finish)) = true then
      done s
    else done (s.sequence ⟨qid, cid⟩ o)
  | _, _ => done s

/-- The write has reached its reply point's condition: its data stands in the hold-up-protected buffer, or, while a hold-up check
fails, every unit of it is programmed (13 R369, R375). -/
def State.durable (s : State) (o : Sequenced) : Bool :=
  !(s.zone o.zone).erasing &&
    (s.fl.holdupOk || (List.range ((o.first + o.blocks - 1) / 16 - o.first / 16 + 1)).all fun i =>
      !s.fl.buffered.contains (o.zone, o.first / 16 + i))

/-- ZONE_REPLY_POINT: the oldest sequenced write of zone `z` reaches its reply point (13 R369, R371, R375). -/
def execZoneReplyPoint (z : Nat) (s : State) : Out :=
  match s.fl.seqd.find? fun o => o.zone == z with
  | none => done s
  | some o =>
    match o.op with
    | .reset | .finish => done s
    | .write append =>
      if s.durable o = false then done s
      else
        let s := { s with fl := { s.fl with seqd := s.fl.seqd.erase o } }.landBlocks z o.first o.blocks
        done ((s.replyOpt o.cmd 0 (if append then z * zoneBlocks + o.first else o.first + o.blocks)).runSequencer z)

/-! ## Reads and reports -/

/-- Consecutive blocks of a read that are readable, in runs: first block (from the read's first) and length. -/
def goodRuns (first : Nat) (bad : List Nat) : Nat → List (Nat × Nat) → List (Nat × Nat)
  | 0, l => l
  | n + 1, l =>
    let l := goodRuns first bad n l
    if bad.contains (first + n) then l
    else match l with
      | (a, k) :: t => if a + k = n then (a, k + 1) :: t else (n, 1) :: l
      | [] => [(n, 1)]

/-- A ZONE_READ delivers its readable blocks and replies (13 R377; 16 R468). -/
def State.endZoneRead (s : State) (r : CmdRef) (bad : List Nat) : State :=
  match s.cmd r with
  | none => s
  | some c =>
    let lba := c.qw 4
    let n := c.dw 6
    let s := (goodRuns lba bad n []).reverse.foldl (fun s (e : Nat × Nat) =>
      s.hostDataAt r 0 (e.1 * 4096) (s.blocksBytes (lba + e.1) e.2)) s
    let s := s.lifeAdd 27 n
    if bad = [] then s.ok r 0
    else s.reply r 0x030B (bad.foldl min (bad.headD 0) + 2 ^ 38 * bad.length)

/-- ZONE_READ (13 R370, R376). -/
def execZoneRead (h : HostCmd) (s : State) : Out :=
  withCmd s h.ref 0x20 fun c s =>
    let lba := c.qw 4
    let n := c.dw 6
    let z := zoneOf lba
    writeBuf h c 0 (n * 4096) s fun s =>
      if numZones ≤ z then s.reply h.ref 0x030A 0
      else if n = 0 ∨ 16384 < n ∨ zoneBlocks < zoneOff lba + n then s.reply h.ref 0x0303 0
      else if (s.zone z).state = .offline then s.reply h.ref 0x0309 0
      else if (s.zone z).wp < zoneOff lba + n then s.reply h.ref 0x0304 0
      else
        let waiting := s.pageReads lba n
        if waiting = [] then s.endZoneRead h.ref []
        else { s with fl := { s.fl with reads := s.fl.reads ++ [{ by_ := .zoneRead h.ref, waiting := waiting }] } }

/-- STATE of a descriptor (13 R381). -/
def ZoneState.code : ZoneState → Nat
  | .empty => 0 | .opened => 1 | .full => 2 | .finished => 3 | .readOnly => 4 | .offline => 5

/-- The descriptor of zone `z` (13 R381). -/
def State.zoneDesc (s : State) (z : Nat) : List Byte :=
  let x := s.zone z
  let flags := b2n x.erasing * 2 ^ 23 + b2n x.worn * 2 ^ 24 + b2n (s.zoneHeld z) * 2 ^ 25 + b2n x.owner.isSome * 2 ^ 26 +
    b2n x.paddedLast * 2 ^ 27 + b2n x.lost * 2 ^ 28
  leBytes 4 (z + x.state.code * 2 ^ 20 + flags) ++ leBytes 4 x.wp ++ leBytes 4 x.pads ++ leBytes 4 (x.owner.getD 0) ++
    List.replicate 16 0 ++ (List.range 16).flatMap fun p => leBytes 2 (s.erasesOf (s.blockAt z p))

/-- ZONE_REPORT (13 R381; 16 R468, R469). -/
def execZoneReport (h : HostCmd) (s : State) : Out :=
  withCmd s h.ref 0x25 fun c s =>
    let n := c.dw 6
    writeBuf h c 0 (64 * n) s fun s =>
      if numZones ≤ c.handle then s.reply h.ref 0x030A 0
      else if n = 0 ∨ 4096 < n then s.reply h.ref 0x0303 0
      else
        let k := min n (numZones - c.handle)
        (s.hostData h.ref 0 ((List.range k).flatMap fun i => s.zoneDesc (c.handle + i))).ok h.ref k

/-! ## What the dies finish -/

/-- Page reads that wait on die `d` (13 R382). -/
def State.readsOn (s : State) (d : Nat) : Nat :=
  (s.fl.reads.flatMap fun r => r.waiting.filter fun b => s.dieAt (zoneOf b) (zoneOff b / 16) == d).length

/-- Die `d` can deliver a page: it is idle, or suspended with reads left of its sixteen. -/
def Die.serves (x : Die) : Bool := x.op.isNone || (x.suspended && decide (x.served < 16))

/-- A read that has its last page ends: a ZONE_READ replies, a DMA_ZONE waits for DMA_COMPLETE, a staging for PAGE_COPY_DONE. -/
def endRead (s : State) (r : FlashRead) : State :=
  match r.by_ with
  | .zoneRead c =>
    if r.waiting = [] then { s with fl := { s.fl with reads := s.fl.reads.erase r } }.endZoneRead c r.bad else s
  | .dma _ => s
  | .stage _ => s

/-- The die of a logical block. -/
def State.dieOf (s : State) (b : Nat) : Nat := s.dieAt (zoneOf b) (zoneOff b / 16)

/-- The oldest page that a read waits for on die `d` (13 R382). -/
def State.oldestOn (s : State) (d : Nat) : Option Nat := (s.fl.reads.flatMap (·.waiting)).find? fun b => s.dieOf b == d

/-- Die `d` may deliver the page of block `b` to a read that waits for it: a suspended die serves in arrival order (13 R382). -/
def State.mayServe (s : State) (b : Nat) : Bool :=
  let x := s.die (s.dieOf b)
  (s.fl.reads.any fun r => r.waiting.contains b) && x.serves && (x.op.isNone || s.oldestOn (s.dieOf b) == some b)

/-- A DMA_ZONE that meets its first uncorrectable block: the job faults (13 R377). -/
def dmaBlockLost (b : Nat) (s : State) (r : FlashRead) : State :=
  match r.by_ with
  | .dma k =>
    if r.waiting.contains b && r.bad.isEmpty then
      s.latch (.job (s.partOfCore k)) { status := 0x0F04, core := some k, addr := b, space := .zone }
    else s
  | .zoneRead _ => s
  | .stage _ => s

/-- The page of block `b` is delivered, uncorrectable where `lost`, or where the checks after its decryption fail (13 R376, R377). -/
def servePage (found : PageFound) (s : State) (b : Nat) : State :=
  if s.mayServe b = false then s
  else
    let lost := found.lost.contains b || s.wordBad b
    let reads := s.fl.reads
    let s := s.setDie (s.dieOf b) fun x =>
      (if x.suspended then { x with served := x.served + 1 } else x).countRead s.powered (found.shifted.contains b)
    let s := if lost then reads.foldl (dmaBlockLost b) (s.suspectBlock b) else s
    { s with fl := { s.fl with reads := reads.map fun (r : FlashRead) => { r with
      waiting := r.waiting.filter fun k => k != b
      bad := if lost && r.waiting.contains b then r.bad ++ [b] else r.bad } } }

/-- FLASH_READ_COMPLETE: of the pages of blocks `first` … `first + n - 1`, those that are being read and that their dies can serve end, in
ascending order (13 R376, R377, R382). -/
def execFlashReadComplete (first n : Nat) (found : PageFound) (s : State) : Out :=
  let s := ((List.range n).map fun i => first + i).foldl (servePage found) s
  done (s.fl.reads.foldl endRead s)

/-- Unreplied writes of zone `z` end with the state that the zone has taken. -/
def State.failWrites (s : State) (z : Nat) : State :=
  let isWrite := fun (o : Sequenced) => match o.op with | .write _ => true | _ => false
  let lost := s.fl.seqd.filter fun o => o.zone == z && isWrite o
  let s := { s with fl := { s.fl with seqd := s.fl.seqd.filter fun o => !(o.zone == z && isWrite o) } }
  (lost.foldl (fun s o => s.replyOpt o.cmd (s.zone z).writeStatus 0) s).runSequencer z

/-- A program failure with no spare at all (13 R379): the zone is READ_ONLY, and its write pointer moves back. -/
def State.loseUnits (s : State) (z u : Nat) : State :=
  let top := if u < 16 then 0 else (u - 15) * 16
  let lost := decide (top < (s.zone z).wp)
  let s := s.dropUnits z (top / 16)
  let s := { s with fl := { s.fl with words := Sparse.clear s.fl.words (z * zoneBlocks + top) ((z + 1) * zoneBlocks) } }
  let s := s.setZone z fun x =>
    { x with state := .readOnly, wp := min x.wp top, seqPtr := min x.wp top, lost := x.lost || lost }
  let s := (s.journal (.zoneState z .readOnly lost)).lifeAdd 24 1
  ((if lost then s.flashLost z else s).failWrites z).kickZone z

/-- UNIT_PROGRAM_COMPLETE: the program of unit `u` of zone `z` ends on its die, verified where `ok` (13 R378, R379). -/
def execUnitProgramComplete (z u : Nat) (ok : Bool) (s : State) : Out :=
  let d := s.dieAt z u
  if (s.die d).op ≠ some (.program z u) ∨ (s.die d).suspended = true then done s
  else
    let s := s.freeDie d
    if ok then done ((s.programUnit z u).kickDie d)
    else match s.retire z (u % 16) 0 with
      | some s => done ((s.kickDie d).kickZone z)
      | none => done (s.loseUnits z u)

/-- WORN follows when a block reaches 1,500 erases (13 R380). -/
def State.wear (s : State) (z : Nat) : State :=
  if !(s.zone z).worn && (List.range 16).any (fun p => decide (1500 ≤ s.erasesOf (s.blockAt z p))) then
    (s.setZone z fun x => { x with worn := true }).fltEvt 6
  else s

/-- The sixteen blocks of zone `z` are erased and verified, or fail at the positions `failed` (13 R371, R378-R380, R385). -/
def State.endErase (s : State) (z : Nat) (failed : List Nat) : State :=
  let dies := (List.range 16).map fun p => s.dieAt z p
  let s := dies.foldl (fun s d => (s.freeDie d).setDie d fun x => { x with erasesSince := x.erasesSince + 1 }) s
  let s := ((List.range 16).foldl (fun s p => s.countErase (s.blockAt z p)) s).wear z
  let s := { s with fl := { s.fl with words := Sparse.clear s.fl.words (z * zoneBlocks) ((z + 1) * zoneBlocks) } }
  let (s, fine) := retireAll z 64 (sortBy (fun a b => decide (a < b)) (failed.filter fun p => decide (p < 16))) s
  if fine then
    let s := s.journal (.eraseDone z 0xFFFF)
    let s := { s with fl := { s.fl with eraseQ := s.fl.eraseQ.filter fun y => y != z } }
    dies.foldl State.kickDie ((s.setZone z fun x => { x with erasing := false, intent := false }).kickZone z)
  else dies.foldl State.kickDie ((s.offline z).failWrites z)

/-- ZONE_ERASE_COMPLETE: the background erase of zone `z` ends (13 R371). -/
def execZoneEraseComplete (z : Nat) (failed : List Nat) (s : State) : Out :=
  let ready := (List.range 16).all fun p =>
    let x := s.die (s.dieAt z p)
    x.op == some (.erase z p) && !x.suspended
  if (s.zone z).erasing = true ∧ ready = true then done (s.endErase z failed) else done s

/-- Suspends of an operation (13 R382). -/
def DieOp.limit : DieOp → Nat
  | .program _ _ => 8
  | .erase _ _ => 32

/-- What an operation runs, in ns, before a suspend (13 R382). -/
def DieOp.runs : DieOp → Nat
  | .program _ _ => 50000
  | .erase _ _ => 200000

/-- DIE_SUSPEND: a busy die suspends its operation to serve queued reads (13 R382). -/
def execDieSuspend (d : Nat) (s : State) : Out :=
  match (s.die d).op with
  | none => done s
  | some o =>
    if (s.die d).suspended = false ∧ (s.die d).suspends < o.limit ∧ (s.die d).since + o.runs ≤ s.time ∧ 0 < s.readsOn d then
      done (s.setDie d fun x => { x with suspended := true, suspends := x.suspends + 1, served := 0 })
    else done s

/-- DIE_RESUME: a suspended die resumes (13 R382). -/
def execDieResume (d : Nat) (s : State) : Out :=
  if (s.die d).suspended = true ∧ (s.readsOn d = 0 ∨ 16 ≤ (s.die d).served) then
    done (s.setDie d fun x => { x with suspended := false, since := s.time })
  else done s

/-- READ_LEVEL_CALIBRATION: a scheduled calibration of die `d` runs, when no read waits there (13 R383; 20 R576). -/
def execReadLevelCalibration (d : Nat) (s : State) : Out :=
  if d < 1536 ∧ (s.die d).serves = true ∧ s.readsOn d = 0 then done (s.setDie d fun x =>
    { x with erasesSince := 0, calAt := s.powered, hourAt := s.powered, hourReads := 0, hourShifted := 0, shiftDue := false })
  else done s

/-- HOLDUP_CHECK: the check of the hold-up capacitors passes or fails (13 R375; 20 R571). -/
def execHoldupCheck (ok : Bool) (s : State) : Out :=
  let s := { s with fl := { s.fl with holdupOk := ok }, flt := { s.flt with holdupFail := !ok } }
  done (if ok then s else (s.fltEvt 2).lifeAdd 19 1)

/-- What a checkpoint records of a zone. -/
def Zone.kept (x : Zone) : Zone := { x with seqPtr := x.wp, owner := none }

/-- The record block that holds checkpoint `n`, in rotation over blocks 3,840-3,843 of every die (13 R361, R387). -/
def recordBlock (n : Nat) : Nat := n % 1536 * 4096 + 3840 + n / 1536 % 4

/-- Bytes of the records after the newest checkpoint. -/
def State.unreplayed (s : State) : Nat := 32 * (s.fl.journalSeq - s.fl.checkpoint.seq)

/-- The mirror of the spare map is written anew (13 R389; DESIGN CHOICE, log 113). -/
def State.writeMirror (s : State) : State :=
  let s := (List.range 14).foldl (fun s i => s.rewriteSector (3072 + i)) s
  { s with sf := { s.sf with mirror := s.fl.retired } }

/-- Journal sectors wholly older than record `seq` are erased (13 R387). -/
def State.dropSectors (s : State) (seq : Nat) : State :=
  let old := fun (j : JournalSector) => j.records.all fun b => decide (recordSeq b < seq)
  let s := (s.fl.journal.filter old).foldl (fun s j => s.eraseSector j.sector) s
  { s with fl := { s.fl with journal := s.fl.journal.filter fun j => !old j } }

/-- A checkpoint is written to the next record block, which is erased first, and its record to the journal (13 R387; DESIGN CHOICE, log
113). -/
def State.writeCheckpoint (s : State) : State :=
  let n := s.fl.checkpoint.number + 1
  let s := (s.countErase (recordBlock n)).setDie (recordBlock n / 4096) fun x => { x with erasesSince := x.erasesSince + 1 }
  let ck : Checkpoint :=
    { number := n, seq := s.fl.journalSeq, zones := s.fl.zones.map fun (e : Nat × Zone) => (e.1, e.2.kept),
      blockErases := s.fl.blockErases, spares := s.fl.spares, retired := s.fl.retired, keyGen := s.fl.keyGen }
  ({ s with fl := { s.fl with checkpoint := ck } }.journal (.checkpoint n (recordBlock n))).writeMirror

/-- JOURNAL_CHECKPOINT: once the unreplayed records pass 32 MiB, the imago writes a checkpoint and erases the journal sectors older than
it (13 R387). -/
def execJournalCheckpoint (s : State) : Out :=
  if s.unreplayed ≤ 32 * 2 ^ 20 then done s else done (s.writeCheckpoint.dropSectors s.fl.journalSeq)

end Sys2Proof.Machine
end

