-- ==== Sys2Proof/Machine/Faults.lean ====
section
/-!
DEFINITION. Faults.lean: the management watchdog, the recovery ladder, power loss, imago restart, hub shutdown, lifetime snapshots
(13 R373, R374, R386, R392; 14 R435; 15 R456; 20 R568-R581; 21 R589).
-/
namespace Sys2Proof.Machine

/-! ## The management watchdog (20 R568, R569) -/

/-- A device reset is requested. -/
def State.requestReset (s : State) : State :=
  { s with flt := { s.flt with resetReq := true, resetReqAt := if s.flt.resetReq then s.flt.resetReqAt else s.time } }.fltEvt 4

/-- Management cores that a watchdog reset rejoin within 200 ms. -/
def State.rejoin (s : State) : State :=
  let back := s.flt.mgmtDown.filter fun (e : Nat × Nat) => decide (e.2 + 200000000 ≤ s.time)
  let up := back.foldl (fun m (e : Nat × Nat) => setBit m e.1) s.flt.mgmtUp
  { s with flt := { s.flt with
      mgmtUp := up, mgmtDown := s.flt.mgmtDown.filter fun (e : Nat × Nat) => decide (s.time < e.2 + 200000000) } }

/-- Management core `c` is reset: what it was handling is delivered anew. -/
def State.resetMgmt (s : State) (c : Nat) : State :=
  { s with
    flt := { s.flt with mgmtUp := clearBits s.flt.mgmtUp (2 ^ c), mgmtDown := Sparse.put s.flt.mgmtDown c s.time }
    evc := { s.evc with
      nest := modifyAt s.evc.nest c fun _ => [], mgmtDone := s.evc.mgmtDone.filter fun e => e.1 != c } }

/-- A command that the core had begun: past its point of no return another core completes it; otherwise it is withdrawn and replies
FAULT_WATCHDOG with a record, and wakes the module as every fault does (R567). A dispatch that it had begun ends so too. Commands of the state machines are unaffected. -/
def State.watchdogCmd (s : State) (r : CmdRef) : State :=
  match s.cmd r with
  | none => s
  | some c =>
    let op := c.dw 0 % 256
    let dispatch := s.jobs.parts.zipIdx.find? fun e => match e.1.job with
      | some j => j.cmd == r && j.state == .dispatching
      | none => false
    if let some e := dispatch then s.latch (.job e.2) { status := 0x0F07 }
    else if stateMachine op || c.pnr || !(abortable op || (op == 0x60 && !c.started)) || s.sentSig r then s
    else
      let n := s.flt.nextRecord
      let d : Detection := ⟨n, .command r, 0, { status := 0x0F07 }, s.time, 0⟩
      let s := (s.abortRecords r []).withdraw r
      let s := { s with flt := { s.flt with nextRecord := n + 1 } }.wake 1
      ((s.writeFaultRecord (d.record s.time false 0)).replyRec r 0x0F07 n (some n)).keyRun

/-- WATCHDOG_EXPIRY: the watchdog of management core `c` expires; `begun`: the commands that it had begun (DEDUCED, log 87). -/
def execWatchdogExpiry (c : Nat) (begun : List CmdRef) (s : State) : Out :=
  let s := s.rejoin
  if bit s.flt.mgmtUp c = false then done s
  else
    let again := match s.flt.lastWatchdog with | some t => decide (s.time ≤ t + 10000000000) | none => false
    let s := ((s.resetMgmt c).fltEvt 1).lifeAdd 18 1
    let s := { s with flt := { s.flt with lastWatchdog := some s.time } }
    let s := begun.foldl State.watchdogCmd s
    done (if again || s.flt.mgmtUp == 0 then s.requestReset else s)

/-! ## Function-level reset (14 R435; 18 R540; 20 R577, R578) -/

/-- Who waits for a reply that will never be written: a queue that cannot exist. -/
def nobody : CmdRef := ⟨2 ^ 32, 0⟩

/-- A begun command whose point of no return is its beginning, and whose effect is still due, goes on without a reply; it bears a queue
number that no queue has. -/
def orphan (c : Cmd) : Option Cmd :=
  let op := c.dw 0 % 256
  if c.begun && !c.started && !abortable op && !([0x04, 0x10, 0x11, 0x12, 0x13, 0x60, 0x63] : List Nat).contains op then
    some { c with qid := c.qid + 256, lock := none }
  else none

/-- The queues, the fetched commands and the range locks are gone. -/
def State.dropQueues (s : State) : State :=
  { s with
    q := { fetched := s.q.fetched, errLog := s.q.errLog, errSeq := s.q.errSeq, round := s.q.round, cmds := s.q.cmds.filterMap orphan }
    gen := { s.gen with aqAttr := s.gen.aqAttr % 2 ^ 32, held := [], fwStage := [], staged := false } }

/-- The event controller, the antenna and MSI-X return to their reset values, and those that the imago writes (18 R540). -/
def State.resetEvents (s : State) : State :=
  { s with msix := {}, evc := { nest := s.evc.nest, mgmtDone := s.evc.mgmtDone, frozenLevels := s.evc.frozenLevels } }

/-- What the sequencers and the xSPI port had accepted completes without a reply; what had not passed its point of no return is
dropped, and a commit past its first erase stops with its slot invalid (20 R578). -/
def State.orphanFlash (s : State) : State :=
  let unreply := fun (o : SfOp) => match o with
    | .erase k _ => some (SfOp.erase k none)
    | .program a bs _ => some (.program a bs none)
    | .config k v (.reply _ _) => some (.config k v .nothing)
    | .config k v (.feature _ fid x n) => some (.config k v (.feature none fid x n))
    | .config k v n => some (.config k v n)
    | .slotErase _ _ _ => none
    | .slotProgram _ => none
    | .lowerKey _ _ => none
    | .lowerCommit _ _ => none
    | .lowerRest _ => some (.lowerRest none)
  let undone := s.sf.ops.any fun o => match o with | .lowerCommit _ _ => true | _ => false
  let ops := match s.sf.ops with
    | [] => []
    | o :: rest => (unreply o).toList ++ (rest.filterMap unreply).filter fun o => match o with | .config _ _ _ => true | _ => false
  let restart := match s.gen.fwOp with | some (.restart _ k) => some (FwOp.restart none k) | _ => none
  let kept := match s.sf.ops with | o :: _ => (unreply o).isSome | [] => true
  let s := { s with
    fl := { s.fl with
      arrived := []
      seqd := s.fl.seqd.map fun o => { o with cmd := none }
      reads := s.fl.reads.filter fun r => match r.by_ with | .zoneRead _ => false | _ => true }
    sf := { s.sf with ops := ops }
    gen := { s.gen with fwOp := restart } }
  let s := if undone then s.dropKeys.voidTallies else s
  if kept then s else s.startSf

/-- Requests that the host's commands and reads made are abandoned. -/
def State.orphanRequests (s : State) : State :=
  let host := fun (r : Request) => match r.by_ with | .hostSig _ _ => true | .bar2Read => true | _ => false
  let reqs := mapIf (fun (r : Request) => host r) (fun r => { r with by_ := .abandoned })
    (s.wlk.requests.filter fun r => r.sent || !host r)
  let s := { s with
    wlk := { s.wlk with requests := reqs }, mem := { s.mem with bar2 := [], bar2Held := [] }, sig := { s.sig with waits := [] } }
  releaseHeld s.wlk.requests.length s

/-- The sequences of a partition are gone, without end records. -/
def State.dropSeqs (s : State) (p : Nat) : State :=
  (s.liveEntries p).foldl (fun s e => (s.freeKvPages e.2.held).dropEntry e.1) s

/-- The job of partition `p` ends as by JOB_ABORT, with no reply; a faulted one keeps its teardown (20 R577; 07 R204). -/
def State.dropJob (s : State) (p : Nat) : State :=
  match s.run p with
  | none => s
  | some r =>
    let s := s.dropSeqs p
    let s := if r.state = .parking ∨ r.parkCmd.isSome then s.freeOwner (.cocoon r.cocoon) else s
    if r.state = .faulted then s.setRun p fun r => { r with cmd := nobody, parkCmd := none, pendings := [] }
    else
      let s := (s.stopCores p).releaseJob p
      (s.setPart p fun q => { q with job := none }).snapshot

/-- Compactions of an index go on without a reply; no query holds them up. -/
def Index.orphan (x : Index) : Index :=
  { x with compactions := x.compactions.map fun (k : Compaction) => { k with cmd := nobody, queries := [] } }

/-- Jobs, sequences and queries are gone. -/
def State.dropJobs (s : State) : State :=
  let s := { s with
    jobs := { s.jobs with queue := [] }
    seqs := { s.seqs with leaves := [], steps := [] }
    idx := { s.idx with queries := [], indexes := s.idx.indexes.map fun (e : Nat × Index) => (e.1, e.2.orphan) } }
  ([0, 1, 2, 3].foldl State.dropJob s).releaseAll

/-- Self-tests, scrubs and a layout change lose their commands; the change of layout is completed. -/
def State.dropAdmin (s : State) : State :=
  let s := match s.gen.selfTest with
    | some t => s.endSelfTest t true
    | none => s
  { s with
    gen := { s.gen with layoutReq := s.gen.layoutReq.map fun (l : LayoutReq) => { l with cmd := nobody } }
    ecc := { s.ecc with scrubs := [] } }.testOff

/-- A function-level reset (DEDUCED, log 88). -/
def State.flr (s : State) : State :=
  let s := s.activity
  let s := { s with pci := { speed := s.pci.speed, width := s.pci.width, up := s.pci.up, linkL2 := s.pci.linkL2, aer := s.pci.aer } }
  ((s.dropQueues.orphanFlash.orphanRequests.dropJobs.dropAdmin).resetEvents.lifeAdd 4 1).keyRun

/-- FUNCTION_LEVEL_RESET. -/
def execFunctionLevelReset (s : State) : Out := done s.flr

/-- LINK_WIDTH_LOCK at a training: the current value once the saved ones have been applied or it has been set, else the saved one (15
R450; 20 R577; 21 R593, R598). -/
def State.widthLock (s : State) : Nat :=
  if s.gen.eclosed || s.gen.boot == 0x80 || s.gen.setEarly.contains 4 then s.gen.features.linkWidthLock else s.savedFeature 4

/-- The host link is trained at a speed and a width; no wider than the width lock (21 R593; 15 R450). -/
def State.trainLink (s : State) (speed width : Nat) : State :=
  let lock := s.widthLock
  { s with
    pci := { s.pci with speed := speed, width := if lock = 0 then width else min width lock, up := true, linkL2 := false }
    phys := { s.phys with wakeN := false } }

/-- HOT_RESET: a function-level reset, after which the link trains anew (21 R589). -/
def execHotReset (speed width : Nat) (s : State) : Out := done (s.flr.trainLink speed width)

/-! ## What flash and system flash hold after a reset or a power loss (13 R373, R374, R386, R392; 15 R452) -/

/-- Unreplied writes land by a prefix of their blocks, `ks` of each; behind one that did not land whole, or behind an erase, nothing of
its zone does (13 R374). -/
def landAll : List Sequenced → List Nat → List Nat → State → State
  | [], _, _, s => s
  | o :: t, ks, stopped, s =>
    match o.op with
    | .write _ =>
      let k := if stopped.contains o.zone || (s.zone o.zone).erasing then 0 else min (ks.headD 0) o.blocks
      landAll t ks.tail (if k < o.blocks then o.zone :: stopped else stopped)
        (if k = 0 then s else s.landBlocks o.zone o.first k)
    | .reset | .finish => landAll t ks stopped s

/-- Blocks of a zone that did not land are gone from the write buffer. -/
def State.dropTail (s : State) (z : Nat) : State :=
  { s with fl := { s.fl with data := Sparse.clear s.fl.data ((z * zoneBlocks + (s.zone z).wp) * 4096) ((z + 1) * zoneBlocks * 4096) } }

/-- A zone's partial unit is padded; a zone no block of which landed is EMPTY (13 R373, R386). -/
def State.padZone (s : State) (z : Nat) : State :=
  let s := s.dropTail z
  let x := s.zone z
  if x.state ≠ .opened then s.setZone z fun x => { x with seqPtr := x.wp }
  else
    let top := 16 * ceilDiv x.wp 16
    let s := if top = x.wp then s else s.journal (.pad z x.wp top)
    let pads := (x.padAt.filter fun r => decide (r.2 ≤ x.wp)) ++ if x.wp < top then [(x.wp, top)] else []
    s.setZone z fun x => { x with
      wp := top, seqPtr := top, padAt := pads, paddedLast := x.paddedLast || decide (x.wp < top)
      state := if top = 0 then .empty else if top = zoneBlocks then .full else .opened }

/-- The units of the write buffer that hold landed blocks are programmed (13 R373). -/
def State.programAll (s : State) : State :=
  s.fl.buffered.foldl (fun s (e : Nat × Nat) => if 16 * e.2 < (s.zone e.1).wp then s.programUnit e.1 e.2 else s) s

/-- The write buffer is programmed, and the store stands still until start-up. Indexes are lost, and their zones with them become
ordinary zones (11 R326). -/
def State.stillFlash (s : State) (landed : List Nat) : State :=
  let s := landAll s.fl.seqd landed [] s
  let s := ((s.fl.zones.map (·.1)).foldl State.padZone s).programAll
  let owned := (s.fl.zones.filter fun (e : Nat × Zone) => e.2.owner.isSome).map (·.1)
  let s := owned.foldl (fun s z => s.setZone z fun x => { x with owner := none }) s
  let s := (s.fl.dies.map (·.1)).foldl State.freeDie s
  { s with fl := { s.fl with data := [], arrived := [], seqd := [], buffered := [], reads := [] } }

/-- `n` bytes that no rule gives (DESIGN CHOICE, log 2). -/
def State.freeBytes (s : State) (n : Nat) : List Byte × State :=
  ((List.range n).map fun i => BitVec.ofNat 8 (Config.free (s.freeCtr + i)), { s with freeCtr := s.freeCtr + n })

/-- The xSPI port stops: an erase or a lowering is left to start-up, the bytes of a program are unknown, a configuration copy that was
being written is intact or not (13 R386, R392, R398; 15 R452). -/
def State.stillSf (s : State) : State :=
  match s.sf.ops with
  | .program off bs _ :: _ =>
    let (l, s) := s.freeBytes bs.length
    let s := { s with sf := { s.sf with ops := [] } }
    { s with sf := { s.sf with host := Sparse.setList 0xFF s.sf.host off l } }
  | .config k v _ :: _ =>
    let (x, s) := s.draw
    let s := { s with sf := { s.sf with ops := [] } }
    if x % 2 = 1 then
      let s := { s with sf := { s.sf with configs := modifyAt s.sf.configs k fun _ => v } }
      (copySectors k).foldl (fun s i => s.setWord i wordValid) s
    else s
  | _ => { s with sf := { s.sf with ops := [] } }

/-! ## Device reset and power loss (20 R577-R581; 21 R589-R592) -/

/-- The protection level at start-up (21 R604). -/
def SysFlash.level (f : SysFlash) : Nat :=
  if f.pl2Fuse then 2
  else match f.prot.filter (·.valid) with
    | [] => 1
    | a :: t => (t.foldl (fun (m r : ProtRec) => if m.seq < r.seq then r else m) a).level

/-- MIN_SVN at start-up (21 R604). -/
def SysFlash.minSvn (f : SysFlash) : Nat := (f.prot.filter (·.valid)).foldl (fun m (r : ProtRec) => max m r.minSvn) 0

/-- The state in which start-up begins: what the flash, the system flash, the antenna domain and the pins hold stands, everything
else is at its reset value, the sideband registers with it (22 R614). -/
def State.fresh (s : State) (cause : Nat) : State :=
  { pending := s.pending, time := s.time, freeCtr := s.freeCtr, hostOut := s.hostOut, wlOut := s.wlOut, fl := s.fl, sf := s.sf,
    life := s.life, lifeLog := s.lifeLog
    gen := { pl := s.sf.level, minSvn := s.sf.minSvn, lastSelfTest := s.gen.lastSelfTest }
    flt := { records := s.flt.records, nextRecord := s.flt.nextRecord, written := s.flt.written, resetCause := cause }
    pwr := { since := s.time, idleSince := s.time }
    phys := { s.phys with keyBusy := none, keysOld := none, sbAlert := 0, sbAlertEn := 0, keyId := 0, keyData := [], keyResult := 0 } }

/-- What a device reset and a power loss share: DEPARTING, the write buffer, the system flash. -/
def State.stopAll (s : State) (landed : List Nat) : State := (s.departing.stillFlash landed).stillSf

/-- A lifetime snapshot that is not written leaves the counters of the newest one; the timebase, and the powered time with it, runs
on (20 R581). -/
def State.resumeLife (s : State) (saved : Bool) : State :=
  if saved then s.saveLife true else { s with life := { s.lifeLog with poweredNs := s.life.poweredNs } }

/-- A device reset. `cause`: RESET_CAUSE; `landed`: blocks that landed of each unreplied zone write; `saved`: its lifetime snapshot is
written (DEDUCED, log 89). -/
def State.deviceReset (s : State) (cause : Nat) (landed : List Nat) (saved : Bool) : State :=
  let s := (s.stopAll landed).lifeAdd cause 1
  (s.resumeLife saved).fresh cause

/-- A loss of power: the hold-up carries the module until it is off. The timebase restarts at 0 (13 R373; 20 R577, R581;
DEDUCED, log 90). -/
def State.powerLoss (s : State) (landed : List Nat) (saved : Bool) : State :=
  let s := (s.stopAll landed).lifeAdd 20 1
  let total := s.powered
  let s := if saved then s.saveLife true else s
  let s := { s with time := 0 }.fresh 0
  { s with
    life := if saved then { s.life with poweredNs := total } else s.lifeLog
    phys := { s.phys with on := false, wakeN := false, tap := .bypass, tapOut := [] } }

/-- Power goes where the module has it. -/
def State.loseInput (s : State) (landed : List Nat) (saved : Bool) : State :=
  let s := if s.phys.on then s.powerLoss landed saved else s
  { s with phys := { s.phys with shutdown := false } }

/-- POWER_LOSS: the input falls below 38 V (13 R373; 22 R617). -/
def execPowerLoss (landed : List Nat) (saved : Bool) (s : State) : Out :=
  let s := s.loseInput landed saved
  done { s with phys := { s.phys with inputIn := false } }

/-- PWREN_LOW: the power enable has been low for 10 ms (22 R612; DESIGN CHOICE, log 94). -/
def execPwrenLow (landed : List Nat) (saved : Bool) (s : State) : Out :=
  let s := s.loseInput landed saved
  done { s with phys := { s.phys with pwren := false } }

/-- FLT_RESET: a write of the register (20 R577, R586). -/
def execFltReset (v : Nat) (landed : List Nat) (saved : Bool) (s : State) : Out :=
  if v % 2 ^ 32 = 0x44455652 ∧ s.phys.on = true then done (s.deviceReset 1 landed saved) else done s

/-- PERST_ASSERT: PERST# is asserted (21 R589, R592). -/
def execPerstAssert (landed : List Nat) (saved : Bool) (s : State) : Out :=
  let s := { s with phys := { s.phys with perst := true } }
  if s.phys.on then done (s.deviceReset 2 landed saved) else done s

/-- AUTO_RESET: 100 ms after RESET_REQ with AUTO_RESET at 1 (20 R569). -/
def execAutoReset (landed : List Nat) (saved : Bool) (s : State) : Out :=
  if s.flt.resetReq = true ∧ s.flt.autoReset = true then
    done (State.deviceReset { s with time := max s.time (s.flt.resetReqAt + 100000000) } 3 landed saved)
  else done s

/-- HUB_SHUTDOWN: the hub reaches 120 °C, or stays in hold for 60 s (20 R570). -/
def execHubShutdown (t : Int) (landed : List Nat) (saved : Bool) (s : State) : Out :=
  if s.phys.on = false ∨ s.flt.hubHold = false ∨ (t < 120 ∧ s.time < s.flt.hubHoldSince + 60000000000) then done s
  else
    let s := (s.lifeAdd 17 1).powerLoss landed saved
    done { s with phys := { s.phys with shutdown := true } }

/-- LIFETIME_SNAPSHOT: a snapshot is written, or its write fails (20 R581). -/
def execLifetimeSnapshot (ok : Bool) (s : State) : Out := done (s.saveLife ok)

/-! ## Imago restart (15 R456; 20 R569; 21 R597) -/

/-- A command of the management cores that has begun, other than the activation, and has not replied. -/
def State.mgmtBusy (s : State) (r : Option CmdRef) : Bool :=
  s.q.cmds.any fun c =>
    let op := c.dw 0 % 256
    c.begun && !stateMachine op && r != some ⟨c.qid, c.cid⟩

/-- The management cores run the image of a slot. -/
def State.runImago (s : State) (slot : Nat) : State :=
  let x := s.sf.slots.getD slot {}
  { s with
    gen := { s.gen with version := x.version, svn := x.svn, compat := x.compat, slot := slot }
    flt := { s.flt with mgmtUp := 0xF, mgmtDown := [] } }

/-- IMAGO_RESTART: the management cores have loaded the new imago, or cannot (15 R456; DEDUCED, log 91). -/
def execImagoRestart (ok : Bool) (s : State) : Out :=
  match s.gen.fwOp with
  | some (.restart r slot) =>
    if s.gen.restarting = false ∨ s.mgmtBusy r = true then done s
    else if ok then
      let s := s.runImago slot
      let s := (s.raiseSvn s.gen.svn).lifeAdd 5 1
      let s := { s with gen := { s.gen with restarting := false, fwOp := none } }
      done (match r with | some r => s.ok r s.gen.version | none => s)
    else done { s with flt := { s.flt with mgmtUp := 0 } }.requestReset
  | _ => done s

end Sys2Proof.Machine
end

