-- ==== Sys2Proof/Machine/IndexCmds.lean ====
section
/-!
DEFINITION. IndexCmds.lean: the commands of an index, its insert feed, compaction, reclaim (11 R300-R326; 16 R484-R487).
-/
namespace Sys2Proof.Machine

/-! ## The definition record (11 R300) -/

/-- The fields of a definition record. -/
def defOf (bs : List Byte) : IndexDef :=
  let w := dwordAt bs
  { index := bits (w 0) 0 6, metric := bits (w 0) 8 2, tier := bit (w 0) 10, feedEn := bit (w 0) 11,
    feedLog2 := bits (w 0) 12 5, dim := bits (w 1) 0 13, degree := bits (w 1) 16 7, centCap := bits (w 2) 0 23,
    centInit := bits (w 3) 0 23, maxItems := qwordAt bs 4, segs := w 6, ncols := bits (w 7) 0 6,
    feedCell := bits (w 7) 8 12, doneCell := bits (w 7) 20 12, colWidths := qwordAt bs 8, region := bits (qwordAt bs 10) 0 48,
    regionPages := w 12, feedBase := bits (qwordAt bs 14) 0 48 }

/-- Reserved fields of a definition record are zero, the widths of absent columns included. -/
def defReserved (bs : List Byte) (d : IndexDef) : Bool :=
  let w := dwordAt bs
  [bits (w 0) 6 2, bits (w 0) 17 15, bits (w 1) 13 3, bits (w 1) 23 9, bits (w 2) 23 9, bits (w 3) 23 9, bits (w 7) 6 2,
    d.colWidths / 2 ^ (2 * d.ncols), bits (w 11) 16 16, w 13, bits (w 15) 16 16].all (· == 0)

/-- Every field of a definition is in range (11 R300). -/
def IndexDef.ok (d : IndexDef) : Bool :=
  d.metric != 3 && decide (64 ≤ d.dim ∧ d.dim ≤ 4096) && d.dim % 32 == 0 &&
    decide (1 ≤ d.centCap ∧ d.centCap ≤ 4194304 ∧ 1 ≤ d.centInit ∧ d.centInit ≤ d.centCap) &&
    (if d.graph then decide (8 ≤ d.degree ∧ d.degree ≤ 64) && d.degree % 8 == 0 else d.degree == 0) &&
    decide (1 ≤ d.maxItems ∧ d.maxItems ≤ 4000000000 ∧ ceilDiv d.maxItems 256 + d.centCap ≤ d.segs ∧ d.ncols ≤ 32) &&
    d.region % pageBytes == 0 && decide (d.region < kvBase) &&
    decide (6 ≤ d.feedLog2 ∧ d.feedLog2 ≤ 20 ∧ d.feedBase < kvBase) && d.feedBase % 64 == 0

/-! ## Graphs (11 R307) -/

/-- The `n` numbers of 4 bytes from byte `off` on. -/
def numbersAt (bs : List Byte) (off n : Nat) : List Nat := (List.range n).map fun i => leNat ((bs.drop (off + 4 * i)).take 4)

/-- The edges of node `c` are ones that R307 allows. -/
def nodeOk (live : Nat → Bool) (c : Nat) (edges : List Nat) : Bool :=
  let named := edges.filter fun e => e != none32
  noDup named && !named.contains c && named.all live

/-- The entry list is one that R307 allows. -/
def entriesOk (live : Nat → Bool) (entries : List Nat) : Bool :=
  let named := entries.filter fun e => e != none32
  !named.isEmpty && named.all live

/-! ## INDEX_CREATE, INDEX_DESTROY -/

/-- A new centroid: its record and its directory entry, with an empty chain A from epoch `born` on. -/
def State.newCentroid (s : State) (d : IndexDef) (c born : Nat) (record : List Byte) : State :=
  let l2 := leNat ((record.drop (d.dim / 2 + d.l1b)).take 2)
  (s.poke (d.centAddr c) (codeRecord d record l2 c)).putDir d c ⟨1, false, born, none32, { start := born }, {}⟩

/-- The scale of a code record is one that R303 accepts. -/
def recordScaleOk (d : IndexDef) (record : List Byte) : Bool := scaleOk (leNat ((record.drop (d.dim / 2 + d.l1b)).take 2))

/-- Bytes of INDEX_CREATE's buffer. -/
def createBytes (d : IndexDef) : Nat := 64 + d.centInit * d.cr + if d.graph then 64 + d.centInit * d.degree * 4 else 0

/-- The centroids and the graph that INDEX_CREATE carries are valid: 0, or the status that refuses them. -/
def createStatus (d : IndexDef) (bs : List Byte) : Nat :=
  let records := (List.range d.centInit).map fun c => (bs.drop (64 + c * d.cr)).take d.cr
  let g := 64 + d.centInit * d.cr
  let live := fun e => decide (e < d.centInit)
  if !(records.all (recordScaleOk d)) then 0x0703
  else if d.graph && !(entriesOk live (numbersAt bs g 16) &&
      allBelow d.centInit fun c => nodeOk live c (numbersAt bs (g + 64 + c * d.degree * 4) d.degree)) then 0x070C
  else 0

/-- The index comes into being at epoch 1, its stores zeroed; of its graph store, entry-list places and nodes that nothing has filled
are empty (11 R304, R307, R319). -/
def State.createIndex (s : State) (d : IndexDef) (bs : List Byte) : State :=
  let s := s.zeroPages (d.region / pageBytes) d.pagesAll
  let g := 64 + d.centInit * d.cr
  let s := (List.range d.centInit).foldl (fun s c => s.newCentroid d c 1 ((bs.drop (64 + c * d.cr)).take d.cr)) s
  let s := if d.graph then
      let nodes := (bs.drop (g + 64)).take (d.centInit * d.degree * 4)
      (s.poke (d.entryListAddr 0) ((bs.drop g).take 64 ++ List.replicate 64 0xFF)).poke (d.nodeAddr 0 0)
        (nodes ++ List.replicate ((2 * d.centCap - d.centInit) * d.degree * 4) 0xFF)
    else s
  { s with idx := { s.idx with indexes := Sparse.put s.idx.indexes d.index { defn := d } } }

/-! ## The order of an index's commands (11 R318, R319) -/

/-- An index command that has begun and is not applied yet. -/
def Cmd.indexDue (c : Cmd) : Bool := c.begun && !c.started && decide (0x80 ≤ c.dw 0 % 256 ∧ c.dw 0 % 256 ≤ 0x89)

/-- A command on an index waits for those on the same index that were accepted before it. INDEX_CREATE, whose index only its buffer
names, waits for every one accepted before it, and holds every later one (11 R318; DEDUCED, log 111). -/
def State.indexWaits (s : State) (r : CmdRef) : Bool :=
  match s.cmd r with
  | none => false
  | some c => (s.before c).any fun d => d.indexDue &&
      (d.dw 0 % 256 == 0x80 || c.dw 0 % 256 == 0x80 || bits d.handle 0 6 == bits c.handle 0 6)

/-- The command of an index opcode, once its turn has come. -/
def inTurn (h : HostCmd) (op : Nat) (s : State) (f : Cmd → State → State) : Out :=
  if s.indexWaits h.ref then done s else findingOut h.found s fun s => withCmd s h.ref op f

/-- The spans are read as the decoders find them: the first that holds an uncorrectable error or poison, and the state after (10 R280,
R281). -/
def readSpans (found : List Finding) : List (Nat × Nat) → State → Option Nat × State
  | [], s => (none, s)
  | (a, n) :: t, s =>
    let ((_, bad), s) := s.devRead a n found
    if bad then (some a, s) else readSpans found t s

/-- The findings outside spans that have been read: a correctable error there is corrected by then, unless CE_WB is 0 (10 R280). -/
def State.unread (s : State) (spans : List (Nat × Nat)) (found : List Finding) : List Finding :=
  if s.ecc.ceWb then found.filter fun f => !(spans.any fun r => meets (64 * f.granule, 64) r) else found

/-- What a command reads of its index: where it meets an uncorrectable error or poison, the command faults and changes nothing of the
index (20 R563; DESIGN CHOICE, log 112). -/
def onSpans (found : List Finding) (r : CmdRef) (spans : List (Nat × Nat)) (s : State) (f : State → State) : State :=
  match readSpans found spans s with
  | (some a, s) => s.latch (.command r) { status := 0x0F02, addr := a / 64 * 64, space := .device }
  | (none, s) => f { s with mem := { s.mem with found := s.unread spans s.mem.found } }

/-- INDEX_CREATE (11 R300-R307; 16 R484; DESIGN CHOICE, log 69). -/
def execIndexCreate (h : HostCmd) (s : State) : Out :=
  inTurn h 0x80 s fun c s =>
    readBuf h c 0 64 s fun bs s =>
      let d := defOf bs
      if d.ok = false ∨ defReserved bs d = false then s.reply h.ref 0x0703 0
      else readBuf h c 0 (createBytes d) s fun bs s =>
        let p := d.region / pageBytes
        let held := s.mem.allocs.foldl (fun k a => k + heldPages p d.regionPages a) 0
        if 64 ≤ s.idx.indexes.length then s.reply h.ref 0x070F 0
        else if (s.index d.index).isSome then s.reply h.ref 0x0701 0
        else if d.regionPages < d.pagesAll then s.reply h.ref 0x0704 0
        else if held < d.regionPages then s.reply h.ref 0x0403 0
        else if s.pagesInUse p d.regionPages then s.reply h.ref 0x0404 0
        else
          let st := createStatus d bs
          if st ≠ 0 then s.reply h.ref st 0 else (s.createIndex d bs).ok h.ref d.index

/-- Grants of queued and running jobs. -/
def State.grants (s : State) : List Grant :=
  s.jobs.queue.flatMap (·.grants) ++ s.jobs.parts.flatMap fun p => match p.job with | some r => r.grants | none => []

/-- The index's command: BUFFER_SHORT where a buffer is shorter than its packet asks (16 R467 step 5), INDEX_UNKNOWN where there is no such
index, else `f` on it. -/
def withIndexBuf (h : HostCmd) (op : Nat) (short : Cmd → Bool) (s : State) (f : Cmd → Nat → Index → State → State) : Out :=
  inTurn h op s fun c s =>
    let n := bits c.handle 0 6
    if short c then s.reply h.ref 0x0105 0
    else match s.index n with
      | none => s.reply h.ref 0x0702 0
      | some x => f c n x s

/-- The same, of a command whose packet alone fixes no length. -/
def withIndex (h : HostCmd) (op : Nat) (s : State) (f : Cmd → Nat → Index → State → State) : Out :=
  withIndexBuf h op (fun _ => false) s f

/-- A buffer of `n` items of `size` bytes is too short, `n` in its range. -/
def shortFor (c : Cmd) (b n lim size : Nat) : Bool := decide (1 ≤ n ∧ n ≤ lim) && decide (c.len b < n * size)

/-! ## Segments and codes -/

/-- The numbers below `lim` that an ascending list leaves free: how many, and the lowest. -/
def lowestGap (used : List Nat) : Nat := used.foldl (fun n k => if k = n then n + 1 else n) 0

/-- Segments in use: those whose table entry is not zero. -/
def State.usedSegs (s : State) (d : IndexDef) : List Nat := listedIn s (d.segAddr 0) 16 d.segs

/-- Free segments. -/
def State.freeSegs (s : State) (d : IndexDef) : Nat := d.segs - (s.usedSegs d).length

/-- Slots that are not free, ascending (11 R312). -/
def State.usedSlots (s : State) (d : IndexDef) (oldest : Nat) : List Nat :=
  (s.listedSlots d).filter fun k => !(s.item d k).free oldest

/-- The chain's next entry needs a segment. -/
def needsSeg (s : State) (d : IndexDef) (c : Chain) : Bool := c.tail == none32 || (s.segEnt d c.tail).2 == 256

/-- An entry at the tail of a chain: the entry first, then COUNT (11 R309, R310); REFS rises by one (R311). The caller has
checked that a segment is free. -/
def State.appendEntry (s : State) (d : IndexDef) (c : Chain) (sketch : List Byte) (code slot : Nat) : Chain × State :=
  let put := fun (s : State) (seg i : Nat) =>
    let s := (s.poke (d.sketchAddr seg i) sketch).poke (d.entryAddr seg i) (leBytes 8 code ++ leBytes 4 slot ++ leBytes 4 0)
    (s.poke (d.segAddr seg + 4) (leBytes 4 (i + 1))).refs d slot fun r => r + 1
  if needsSeg s d c then
    let g := lowestGap (s.usedSegs d)
    let s := s.poke (d.segAddr g) (leBytes 4 none32)
    let s := if c.tail = none32 then s else s.poke (d.segAddr c.tail) (leBytes 4 g)
    ({ c with head := if c.head = none32 then g else c.head, tail := g, count := c.count + 1 }, put s g 0)
  else ({ c with count := c.count + 1 }, put s c.tail (s.segEnt d c.tail).2)

/-- An entry appended to list `k`: to its newest chain, and to its built chain that awaits publication (11 R310, R322). -/
def State.appendList (s : State) (d : IndexDef) (k : Nat) (built : Bool) (sketch : List Byte) (code slot : Nat) : State :=
  let e := s.dirEnt d k
  let (c, s) := s.appendEntry d e.newest sketch code slot
  let e := e.setNewest c
  if built then
    let (c, s) := s.appendEntry d e.other sketch code slot
    s.putDir d k (e.setOther c)
  else s.putDir d k e

/-- Code records of a block of the code log (11 R313). -/
def IndexDef.perBlock (d : IndexDef) : Nat := 4096 / d.cr

/-- The lowest of some zones. -/
def lowestOf (zs : List Nat) : Option Nat := zs.foldl (fun m z => match m with | none => some z | some y => some (min y z)) none

/-- The zone to which the log appends its next block: the owned zone that is OPEN while it has room, so that no second one opens; else
the lowest-numbered owned zone that has room (11 R313; DESIGN CHOICE, log 73). -/
def State.logTarget (s : State) (x : Index) : Option Nat :=
  let zs := x.owned.map (·.zone)
  let room := fun z => decide ((s.zone z).wp < zoneBlocks) && !(x.compactions.any fun c => c.reclaim == some z)
  match lowestOf (zs.filter fun z => (s.zone z).state == .opened && room z) with
  | some z => some z
  | none => lowestOf (zs.filter fun z => (s.zone z).state == .empty && room z)

/-- The partly filled block is appended, padded with zero (11 R313; DESIGN CHOICE, log 73). -/
def State.flushLog (s : State) (n : Nat) : State :=
  match s.index n with
  | none => s
  | some x =>
    match x.logZone with
    | none => s
    | some z =>
      if x.partBlock = [] then s
      else
        let bs := x.partBlock.flatten
        let at_ := (s.zone z).wp
        let s := (s.bufferUnits z at_ 1 (bs ++ List.replicate (4096 - bs.length) 0)).setZone z fun y => { y with seqPtr := at_ + 1 }
        let s := s.landBlocks z at_ 1
        (s.setIndex n fun x => { x with partBlock := [] }).kickZone z

/-- A code record appended to the log of index `n`: its device address, or RSTAT 6 or 8 (11 R313, R317). -/
def State.appendCode (s : State) (n : Nat) (record : List Byte) : Except Nat (Nat × State) :=
  match s.index n with
  | none => .error 6
  | some x =>
    match if x.partBlock = [] then s.logTarget x else x.logZone with
    | none => .error 6
    | some z =>
      let y := s.zone z
      if y.state = .empty ∧ 1024 ≤ s.openZones then .error 8
      else
        let page := match x.owned.find? fun o => o.zone == z with
          | some o => (match Sparse.find s.mem.maps o.map with | some m => m.page | none => 0)
          | none => 0
        let addr := page * pageBytes + y.wp * 4096 + x.partBlock.length * x.defn.cr
        let s := s.setZone z fun y => { y with state := .opened }
        let s := s.setIndex n fun x => { x with partBlock := x.partBlock ++ [record], logZone := some z }
        .ok (addr, if x.partBlock.length + 1 = x.defn.perBlock then s.flushLog n else s)

/-- A code stored for a slot (11 R313). -/
def State.storeCode (s : State) (n : Nat) (d : IndexDef) (slot : Nat) (record : List Byte) : Except Nat (Nat × State) :=
  if d.tier then s.appendCode n record else .ok (d.codeAddr slot, s.poke (d.codeAddr slot) record)

/-! ## Inserts and deletes (11 R311-R317) -/

/-- The slot that holds an identifier, DEL none: the identifier map of 11 R312. -/
def State.slotOf (s : State) (d : IndexDef) (id : Nat) : Option Nat :=
  (s.listedSlots d).find? fun k => let i := s.item d k; i.id == id && i.del == none32

/-- Reserved fields of a record; in a host command OP agrees with it and dword 4 is zero (11 R315, R317). -/
def recordReserved (bs : List Byte) (host : Option Bool) : Bool :=
  let w := dwordAt bs
  let dw4 := if host.isSome then w 4 else w 4 / 256
  bits (w 2) 22 9 == 0 && bits (w 3) 16 16 == 0 && dw4 == 0 && w 5 == 0 && w 6 == 0 && w 7 == 0 &&
    match host with | some del => bit (w 2) 31 == del | none => true

/-- What applying a record reads: an insert its list's directory entry and last segment, a delete its item. -/
def recordSpans (s : State) (d : IndexDef) (del : Bool) (bs : List Byte) : List (Nat × Nat) :=
  if del then match s.slotOf d (qwordAt bs 0) with
    | some k => [(d.itemAddr k, 24)]
    | none => []
  else
    let k := bits (dwordAt bs 2) 0 22
    let tail := (s.dirEnt d k).newest.tail
    if d.centCap ≤ k then [] else (d.dirAddr k, 64) :: if tail < d.segs then [(d.segAddr tail, 16)] else []

/-- The attribute values of an insert record. -/
def recordCols (d : IndexDef) (bs : List Byte) : List Nat :=
  (List.range d.ncols).map fun j => leNat ((bs.drop (32 + d.dim / 2 + d.l1b + 8 * j)).take 8)

/-- Every attribute value fits its column. -/
def colsFit (d : IndexDef) (cols : List Nat) : Bool := cols.zipIdx.all fun e => decide (e.1 < 2 ^ (8 * d.colBytes e.2))

/-- An insert that its checks have passed is applied to slot `slot` and list `k` (11 R317). -/
def State.insert (s : State) (n : Nat) (x : Index) (bs : List Byte) (k slot : Nat) : Except Nat State :=
  let d := x.defn
  let l2 := bits (dwordAt bs 3) 0 16
  let record := codeRecord d (bs.drop 32) l2 slot
  match s.storeCode n d slot record with
  | .error e => .error e
  | .ok (addr, s) =>
    let s := s.putItem d slot ⟨qwordAt bs 0, k, x.cur + 1, none32, 0⟩
    let s := (recordCols d bs).zipIdx.foldl (fun s e => s.poke (d.colAddr e.2 slot) (leBytes (d.colBytes e.2) e.1)) s
    .ok (s.appendList d k (x.finished.contains k) (sketchOf d (storedCodes d (bs.drop 32) l2)) addr slot)

/-- One record applied: its RSTAT and the state after (11 R317). `host`: the operation of the host command, none in the
feed (DEDUCED, log 70). -/
def applyRecord (n : Nat) (host : Option Bool) (bs : List Byte) (s : State) : Nat × State :=
  match s.index n with
  | none => (2, s)
  | some x =>
    let d := x.defn
    let del := match host with | some b => b | none => bit (dwordAt bs 2) 31
    let id := qwordAt bs 0
    if del then
      if recordReserved bs host = false then (4, s)
      else match s.slotOf d id with
        | none => (7, s)
        | some slot => (0, s.putItem d slot { s.item d slot with del := x.cur + 1 })
    else
      let k := bits (dwordAt bs 2) 0 22
      let e := s.dirEnt d k
      let used := s.usedSlots d (s.oldest n x)
      let slot := lowestGap used
      let segs := b2n (needsSeg s d e.newest) + b2n (x.finished.contains k && needsSeg s d e.other)
      if (s.slotOf d id).isSome then (1, s)
      else if d.centCap ≤ k ∨ e.live (x.cur + 1) = false then (2, s)
      else if scaleOk (bits (dwordAt bs 3) 0 16) = false then (3, s)
      else if recordReserved bs host = false ∨ colsFit d (recordCols d bs) = false then (4, s)
      else if d.maxItems ≤ slot ∨ s.freeSegs d < segs then (5, s)
      else match s.insert n x bs k slot with
        | .error e => (e, s)
        | .ok s => (0, s)

/-- Records applied in record order: their RSTATs and the state after. -/
def applyRecords (n : Nat) (del : Bool) (stride : Nat) : Nat → List Byte → State → List Nat × State
  | 0, _, s => ([], s)
  | k + 1, bs, s =>
    let (r, s) := applyRecord n (some del) (bs.take stride) s
    let (rs, s) := applyRecords n del stride k (bs.drop stride) s
    (r :: rs, s)

/-- INDEX_INSERT and INDEX_DELETE (11 R315-R317; 16 R484). -/
def insertOrDelete (h : HostCmd) (del : Bool) (c : Cmd) (n : Nat) (x : Index) (s : State) : State :=
  let count := bits (c.dw 4) 0 17
  let stride := if del then 32 else x.defn.fr
  if count = 0 ∨ 65536 < count then s.reply h.ref 0x0102 0
  else if c.has 1 = true ∧ c.len 1 < count then s.reply h.ref 0x0105 0
  else readBuf h c 0 (count * stride) s fun bs s =>
    let spans := (List.range count).flatMap fun i => recordSpans s x.defn del ((bs.drop (i * stride)).take stride)
    onSpans h.found h.ref spans s fun s =>
      let (rs, s) := applyRecords n del stride count bs s
      let refused := (rs.filter fun r => r != 0).length
      let s := if c.has 1 then s.hostData h.ref 1 (rs.map (BitVec.ofNat 8)) else s
      s.reply h.ref (if refused = 0 then 0 else 0x0707) (refused * 2 ^ 32 + (count - refused))

/-- INDEX_INSERT. -/
def execIndexInsert (h : HostCmd) (s : State) : Out :=
  withIndexBuf h 0x82 (fun c => c.has 1 && shortFor c 1 (bits (c.dw 4) 0 17) 65536 1) s fun c n x s => insertOrDelete h false c n x s

/-- INDEX_DELETE. -/
def execIndexDelete (h : HostCmd) (s : State) : Out :=
  withIndexBuf h 0x83 (fun c =>
    let n := bits (c.dw 4) 0 17
    shortFor c 0 n 65536 32 || (c.has 1 && shortFor c 1 n 65536 1)) s fun c n x s => insertOrDelete h true c n x s

/-- `k` feed records consumed in order, each with its RSTAT written (11 R316). A record is taken as its granules read, whatever their
error-check state (DESIGN CHOICE, log 112). -/
def consume (n : Nat) (found : List Finding) : Nat → State → State
  | 0, s => s
  | k + 1, s =>
    match s.index n with
    | none => s
    | some x =>
      let d := x.defn
      let a := d.feedBase + x.feedDone % 2 ^ d.feedLog2 * d.fr
      let ((bs, _), s) := s.devRead a d.fr found
      let (r, s) := applyRecord n none bs s
      consume n found k ((s.poke (a + 16) [BitVec.ofNat 8 r]).setIndex n fun x => { x with feedDone := x.feedDone + 1 })

/-- The announced records of an index's feed are consumed, then DONE_CELL is set (11 R316). -/
def State.consumeFeed (s : State) (n : Nat) (found : List Finding) : State :=
  match s.index n with
  | none => s
  | some x =>
    let k := s.cell x.defn.feedCell - x.feedDone
    if x.defn.feedEn = false ∨ k = 0 then s
    else
      let feed := [(x.defn.feedBase, feedBytes x.defn)]
      (s.finding (s.unread feed found) (consume n found k)).activity.writeCell x.defn.doneCell (x.feedDone + k)

/-- INDEX_FEED_CONSUME: the engine consumes what producers have announced (11 R316, R317). `found`: what the decodings of the records
find. -/
def execIndexFeedConsume (n : WithFound Nat) (s : State) : Out := done (s.consumeFeed n.val n.found)

/-! ## INDEX_COMMIT (11 R319, R320) -/

/-- A built chain is published with FROM `p`. -/
def publish (d : IndexDef) (p : Nat) (s : State) (k : Nat) : State :=
  let e := s.dirEnt d k
  if e.building then s.putDir d k { e.setOther { e.other with start := p } with building := false } else s

/-- A centroid whose RETIRED epoch is committed becomes a tombstone (11 R306). -/
def entomb (d : IndexDef) (p : Nat) (s : State) (k : Nat) : State :=
  let e := s.dirEnt d k
  if e.state = 1 ∧ e.retired = p then s.putDir d k { e with state := 2 } else s

/-- The commit point: the pending epoch becomes current. -/
def State.commitEpoch (s : State) (n : Nat) (found : List Finding) : State :=
  match (s.consumeFeed n found).flushLog n |>.index n with
  | none => s
  | some x =>
    let s := (s.consumeFeed n found).flushLog n
    let d := x.defn
    let p := x.cur + 1
    let s := x.finished.foldl (publish d p) s
    let s := (s.listedCents d).foldl (entomb d p) s
    (s.setIndex n fun x => { x with
      cur := p
      finished := []
      rebalance := false
      vCur := if x.rebuild then 1 - x.vCur else x.vCur
      vFrom := if x.rebuild then p else x.vFrom
      freeAt := if x.rebuild then some p else x.freeAt
      rebuild := false }).release n

/-- INDEX_COMMIT. -/
def execIndexCommit (h : HostCmd) (s : State) : Out :=
  withIndex h 0x84 s fun _ n x s =>
    let p := x.cur + 1
    let pinned := (s.idx.queries.filter fun q => q.rec_.index == n).foldl
      (fun (l : List Nat) q => if l.contains q.epoch then l else q.epoch :: l) [p]
    if x.cur = 0xFFFFFFFE then s.reply h.ref 0x0709 0
    else if 8 < pinned.length then s.reply h.ref 0x0708 0
    else onSpans h.found h.ref (x.finished.map fun k => (x.defn.dirAddr k, 64)) s fun s => (s.commitEpoch n h.found).ok h.ref p

/-! ## INDEX_REBALANCE (11 R321; 16 R485) -/

/-- What the buffer of INDEX_REBALANCE holds. -/
structure Rebalance where
  retired : List Nat
  records : List (List Byte)
  edges : List (List Nat)
  assigns : List (Nat × Nat)
  reserved : Bool
  deriving DecidableEq, Repr

/-- `n` rounded up to a multiple of 64. -/
def up64 (n : Nat) : Nat := 64 * ceilDiv n 64

/-- The first bytes of the parts, and the bytes of all. -/
def rebalanceParts (d : IndexDef) (nr nn na : Nat) : Nat × Nat × Nat × Nat :=
  let b := up64 (4 * nr)
  let e := up64 (b + nn * d.cr)
  let a := if d.graph then up64 (e + nn * d.degree * 4) else e
  (b, e, a, a + 8 * na)

/-- The buffer's contents. -/
def rebalanceOf (d : IndexDef) (nr nn na : Nat) (bs : List Byte) : Rebalance :=
  let (b, e, a, _) := rebalanceParts d nr nn na
  let assign := (List.range na).map fun i => leNat ((bs.drop (a + 8 * i)).take 8)
  { retired := numbersAt bs 0 nr
    records := (List.range nn).map fun i => (bs.drop (b + i * d.cr)).take d.cr
    edges := if d.graph then (List.range nn).map fun i => numbersAt bs (e + i * d.degree * 4) d.degree else []
    assigns := assign.map fun v => (v % 2 ^ 32, v / 2 ^ 32 % 65536)
    reserved := assign.any fun v => decide (2 ^ 48 ≤ v) }

/-- The numbers of the new centroids: SLOT of their records. -/
def newNumbers (d : IndexDef) (r : Rebalance) : List Nat :=
  r.records.map fun b => leNat ((b.drop (d.dim / 2 + d.l1b + 8)).take 4)

/-- The entries that move, each with the place of its new list in the new set: retired lists in ascending number, entries in list
order; none for an entry without an assignment. -/
def moves (s : State) (d : IndexDef) (r : Rebalance) : List (ListEntry × Option Nat) :=
  (sortBy (fun a b => decide (a < b)) r.retired).flatMap fun c =>
    ((s.chainEntries d (s.dirEnt d c).newest).filter fun e => (s.item d e.slot).del == none32).map fun e =>
      (e, (r.assigns.find? fun a => a.1 == e.slot).map (·.2))

/-- The status that refuses a rebalance, 0 where it is applied (DEDUCED, log 71). -/
def rebalanceStatus (s : State) (x : Index) (r : Rebalance) : Nat :=
  let d := x.defn
  let p := x.cur + 1
  let nums := newNumbers d r
  let live := fun e => nums.contains e || (decide (e < d.centCap) && (s.dirEnt d e).live p && !r.retired.contains e)
  let ms := moves s d r
  let retiredOk := noDup r.retired && r.retired.all fun c =>
    decide (c < d.centCap) && (s.dirEnt d c).live p && (s.dirEnt d c).born != p
  let newOk := noDup nums && nums.all (fun c => decide (c < d.centCap) && (s.dirEnt d c).state == 0) &&
    r.records.all (recordScaleOk d)
  let edgesOk := (nums.zip r.edges).all fun e => nodeOk live e.1 e.2
  let assigned := ms.all fun m => match m.2 with
    | some i => decide (i < nums.length ∧ (s.item d m.1.slot).refs < 16777215)
    | none => true
  let need := (nums.zipIdx.map fun e => ceilDiv ((ms.filter fun m => m.2 == some e.2).length) 256).sum
  let entry := !d.graph || ((List.range 16).any fun i =>
    let c := s.word (d.entryListAddr x.vCur + 4 * i)
    decide (c < d.centCap) && (s.dirEnt d c).live p && !r.retired.contains c)
  if !(retiredOk && newOk && edgesOk && assigned && !r.reserved && decide (need ≤ s.freeSegs d)) then 0x070A
  else if !entry then 0x0710
  else if x.rebuild then 0x070E
  else if ms.any fun m => m.2.isNone then 0x070B
  else 0

/-- The lowest slot of a node that may take a new edge (11 R321 step 3): empty, or naming a centroid retired at or below the oldest
retained epoch. -/
def edgePlace (s : State) (d : IndexDef) (oldest : Nat) (edges : List Nat) : Option Nat :=
  (List.range edges.length).find? fun i =>
    let e := edges.getD i none32
    e == none32 || decide ((s.dirEnt d e).retired ≤ oldest)

/-- The edge from the new centroid `n` to `c` is answered by one from `c`. -/
def backEdge (d : IndexDef) (v oldest n : Nat) (s : State) (c : Nat) : State :=
  if c = none32 then s
  else match edgePlace s d oldest (numbersAt (s.devBytes (d.nodeAddr v c) (d.degree * 4)) 0 d.degree) with
    | some i => s.poke (d.nodeAddr v c + 4 * i) (leBytes 4 n)
    | none => s

/-- A rebalance is applied (11 R321 steps 1-3). -/
def State.rebalance (s : State) (n : Nat) (x : Index) (r : Rebalance) : State :=
  let d := x.defn
  let p := x.cur + 1
  let nums := newNumbers d r
  let ms := moves s d r
  let oldest := s.oldest n x
  let s := r.retired.foldl (fun s c => s.putDir d c { s.dirEnt d c with retired := p }) s
  let s := (nums.zip r.records).foldl (fun s (e : Nat × List Byte) => s.newCentroid d e.1 p e.2) s
  let s := ms.foldl (fun s (m : ListEntry × Option Nat) =>
    let k := nums.getD (m.2.getD 0) 0
    let sketch := s.devBytes (d.sketchAddr m.1.seg m.1.place) d.sk
    let s := s.appendList d k false sketch m.1.code m.1.slot
    s.putItem d m.1.slot { s.item d m.1.slot with list := k }) s
  let s := (nums.zip r.edges).foldl (fun s (e : Nat × List Nat) => s.poke (d.nodeAddr x.vCur e.1) (e.2.flatMap (leBytes 4))) s
  let s := (nums.zip r.edges).foldl (fun s (e : Nat × List Nat) => e.2.foldl (backEdge d x.vCur oldest e.1) s) s
  s.setIndex n fun x => { x with rebalance := true }

/-- INDEX_REBALANCE. -/
def execIndexRebalance (h : HostCmd) (s : State) : Out :=
  withIndex h 0x85 s fun c n x s =>
    let nr := bits (c.dw 4) 0 11
    let nn := bits (c.dw 5) 0 11
    let na := c.dw 6
    let size := (rebalanceParts x.defn nr nn na).2.2.2
    if nr = 0 ∨ 1024 < nr ∨ nn = 0 ∨ 1024 < nn ∨ 4000000000 < na then s.reply h.ref 0x0102 0
    else if c.len 0 < size then s.reply h.ref 0x070A 0
    else readBuf h c 0 size s fun bs s =>
      let r := rebalanceOf x.defn nr nn na bs
      onSpans h.found h.ref ((r.retired.filter fun k => decide (k < x.defn.centCap)).flatMap (listSpans s x.defn)) s fun s =>
        let st := rebalanceStatus s x r
        if st ≠ 0 then s.reply h.ref st 0 else (s.rebalance n x r).ok h.ref (moves s x.defn r).length

/-! ## Compaction and reclaim (11 R322, R323) -/

/-- A list that a compaction builds: live at the pending epoch, no build in progress, its older chain free (DEDUCED, log 44). -/
def compactable (s : State) (d : IndexDef) (p k : Nat) : Bool :=
  let e := s.dirEnt d k
  e.live p && !e.building && e.other.start == none32

/-- A zone that the index may reclaim: owned, not the one its log appends to, and not being reclaimed. -/
def reclaimable (s : State) (x : Index) (z : Nat) : Bool :=
  (x.owned.any fun o => o.zone == z) && (s.zone z).state != .opened && !(x.partBlock != [] && x.logZone == some z) &&
    !(x.compactions.any fun c => c.reclaim == some z)

/-- INDEX_COMPACT: the lists are marked; COMPACTION_BUILT builds them (16 R484). -/
def execIndexCompact (h : HostCmd) (s : State) : Out :=
  withIndex h 0x86 s fun c n x s =>
    let d := x.defn
    let first := bits (c.dw 4) 0 22
    let span := bits (c.dw 5) 0 23
    let reclaim := if bit (c.dw 6) 0 then some (bits (c.dw 7) 0 19) else none
    if span = 0 ∨ 4194304 < span then s.reply h.ref 0x0102 0
    else if (match reclaim with | some z => !reclaimable s x z | none => false) then s.reply h.ref 0x0706 0
    else
      let lists := (s.listedCents d).filter fun k => decide (first ≤ k ∧ k < first + span) && (s.dirEnt d k).state != 0
      onSpans h.found h.ref (lists.map fun k => (d.dirAddr k, 64)) s fun s =>
        let go := lists.filter fun k => compactable s d (x.cur + 1) k
        let s := go.foldl (fun s k => s.putDir d k { s.dirEnt d k with building := true }) s
        s.setIndex n fun x => { x with
          compactions := x.compactions ++ [⟨h.ref, go, lists.length - go.length, false, reclaim, []⟩] }

/-- One list's new chain, in the place of the older one: the entries whose slot's DEL is none, in list order; none where REFS or
segments do not suffice. -/
def buildChain (s : State) (d : IndexDef) (k : Nat) : Option State :=
  let e := s.dirEnt d k
  let es := (s.chainEntries d e.newest).filter fun t => (s.item d t.slot).del == none32
  if (es.any fun t => decide (16777215 ≤ (s.item d t.slot).refs)) || decide (s.freeSegs d < ceilDiv es.length 256) then none
  else
    let (c, s) := es.foldl (fun (a : Chain × State) t =>
      a.2.appendEntry d a.1 (a.2.devBytes (d.sketchAddr t.seg t.place) d.sk) t.code t.slot) (({} : Chain), s)
    some (s.putDir d k (e.setOther c))

/-- The lists of a compaction built: those built, and the state after; a list that is not stops BUILDING. -/
def buildLists (d : IndexDef) : List Nat → State → List Nat × State
  | [], s => ([], s)
  | k :: t, s =>
    if (s.dirEnt d k).building = false then buildLists d t s
    else match buildChain s d k with
      | none => buildLists d t (s.putDir d k { s.dirEnt d k with building := false })
      | some s => let (l, s) := buildLists d t s; (k :: l, s)

/-- Every entry of any chain whose code lies in `[lo, hi)`: the address of its record in the entry plane, and the code's. -/
def codesIn (s : State) (d : IndexDef) (lo hi : Nat) : List (Nat × Nat) :=
  (s.listedCents d).flatMap fun k =>
    let e := s.dirEnt d k
    ((s.chainEntries d e.a ++ s.chainEntries d e.b).filter fun t => decide (lo ≤ t.code ∧ t.code < hi)).map fun t =>
      (d.entryAddr t.seg t.place, t.code)

/-- The codes copied to the head of the log: old and new addresses; none where the log has no room. -/
def copyCodes (n : Nat) (d : IndexDef) : List Nat → List (Nat × Nat) → State → Option (List (Nat × Nat) × State)
  | [], m, s => some (m, s)
  | a :: t, m, s =>
    if m.any fun e => e.1 == a then copyCodes n d t m s
    else match s.appendCode n (s.devBytes a d.cr) with
      | .error _ => none
      | .ok (b, s) => copyCodes n d t ((a, b) :: m) s

/-- The pages of an owned zone in the flash window. -/
def State.ownedPages (s : State) (x : Index) (z : Nat) : Nat × Nat :=
  match x.owned.find? fun o => o.zone == z with
  | some o => (match Sparse.find s.mem.maps o.map with | some m => (m.page, m.pages) | none => (0, 0))
  | none => (0, 0)

/-- The codes of zone `z` move to the head of the log and every CODE_ADDR follows (11 R323 steps 1 and 2). -/
def State.reclaimCodes (s : State) (n : Nat) (x : Index) (z : Nat) : Option State :=
  let (page, pages) := s.ownedPages x z
  let es := codesIn s x.defn (page * pageBytes) ((page + pages) * pageBytes)
  match copyCodes n x.defn (es.map (·.2)) [] s with
  | none => none
  | some (m, s) =>
    some (es.foldl (fun s (e : Nat × Nat) =>
      match m.find? fun t => t.1 == e.2 with
      | some t => s.poke e.1 (leBytes 8 t.2)
      | none => s) (s.flushLog n))

/-- A compaction changed. -/
def State.setCompaction (s : State) (n : Nat) (r : CmdRef) (f : Compaction → Compaction) : State :=
  s.setIndex n fun x => { x with compactions := mapIf (fun (c : Compaction) => c.cmd == r) f x.compactions }

/-- A compaction ends with its reply. -/
def State.endCompaction (s : State) (n : Nat) (r : CmdRef) (status result : Nat) : State :=
  (s.setIndex n fun x => { x with compactions := x.compactions.filter fun c => c.cmd != r }).reply r status result

/-- RESULT of INDEX_COMPACT (11 R322). -/
def Compaction.result (c : Compaction) : Nat := c.lists.length + 2 ^ 32 * c.skipped

/-- The chains of a compaction are built; without RECLAIM it replies (11 R322, R323). -/
def State.built (s : State) (n : Nat) (x : Index) (c : Compaction) : State :=
  let (l, s) := buildLists x.defn c.lists s
  let c := { c with lists := l, skipped := c.skipped + (c.lists.length - l.length), built := true }
  let s := s.setIndex n fun x => { x with finished := x.finished ++ l }
  match c.reclaim with
  | none => s.endCompaction n c.cmd 0 c.result
  | some z =>
    match s.reclaimCodes n x z with
    | none => s.endCompaction n c.cmd 0x0706 0
    | some s =>
      let qs := (s.idx.queries.filter fun q => q.rec_.index == n).map (·.seq)
      s.setCompaction n c.cmd fun _ => { c with queries := qs }

/-- The index and the compaction of a command. -/
def State.compaction (s : State) (r : CmdRef) : Option (Nat × Index × Compaction) :=
  s.idx.indexes.findSome? fun (e : Nat × Index) => (e.2.compactions.find? fun c => c.cmd == r).map fun c => (e.1, e.2, c)

/-- A compaction whose command faults ends, and builds nothing. -/
def State.failCompaction (s : State) (n : Nat) (x : Index) (c : Compaction) (a : Nat) : State :=
  let s := c.lists.foldl (fun s k => s.putDir x.defn k { s.dirEnt x.defn k with building := false }) s
  let s := s.setIndex n fun x => { x with compactions := x.compactions.filter fun y => y.cmd != c.cmd }
  s.latch (.command c.cmd) { status := 0x0F02, addr := a / 64 * 64, space := .device }

/-- What the engine reads to build a compaction: the chains of its lists, and the codes of the zone that it reclaims (11 R322, R323). -/
def State.buildSpans (s : State) (x : Index) (c : Compaction) : List (Nat × Nat) :=
  c.lists.flatMap (listSpans s x.defn) ++ match c.reclaim with
    | none => []
    | some z =>
      let (page, pages) := s.ownedPages x z
      let codes := (codesIn s x.defn (page * pageBytes) ((page + pages) * pageBytes)).map (·.2)
      (codes.foldl (fun l a => if l.contains a then l else l ++ [a]) []).map fun a => (a, x.defn.cr)

/-- COMPACTION_BUILT: the chains of the range of an INDEX_COMPACT are built (11 R322). `found`: what the decodings of the chains and of
the codes find (13 R377): where one cannot be read, the command faults (DESIGN CHOICE, log 112). -/
def execCompactionBuilt (qid : Nat) (cid : WithFound Nat) (s : State) : Out :=
  match cid with
  | ⟨cid, found⟩ =>
    match s.compaction ⟨qid, cid⟩ with
    | none => done s
    | some (n, x, c) =>
      if c.built then done s
      else
        let spans := s.buildSpans x c
        match readSpans found spans s with
        | (some a, s) => done (s.failCompaction n x c a)
        | (none, s) => done (s.activity.finding (s.unread spans found) fun s => s.built n x c)

/-- The reclaimed zone is reset, stays owned and empty; copies of its pages are dropped (11 R323 step 3). -/
def State.reclaimReset (s : State) (n : Nat) (x : Index) (c : Compaction) (z : Nat) : State :=
  let (page, pages) := s.ownedPages x z
  ((s.dropCopies page pages).resetZone z).endCompaction n c.cmd 0 c.result

/-- RECLAIM_RESET: once every query accepted before the last rewrite has replied (11 R323). -/
def execReclaimReset (qid cid : Nat) (s : State) : Out :=
  match s.compaction ⟨qid, cid⟩ with
  | none => done s
  | some (n, x, c) =>
    match c.reclaim with
    | none => done s
    | some z =>
      if c.built = false ∨ (s.idx.queries.any fun q => c.queries.contains q.seq) = true then done s
      else done (s.reclaimReset n x c z)

/-- Compactions accepted before an INDEX_DESTROY complete before it (11 R318). -/
def finishCompactions (n : Nat) : Nat → State → State
  | 0, s => s
  | k + 1, s =>
    match s.index n with
    | none => s
    | some x =>
      match x.compactions with
      | [] => s
      | c :: _ =>
        let s := if c.built then s
          else match readSpans s.mem.found (s.buildSpans x c) s with
            | (some a, s) => s.failCompaction n x c a
            | (none, s) => s.built n x c
        match s.compaction c.cmd with
        | some (_, x, c) => finishCompactions n k (match c.reclaim with | some z => s.reclaimReset n x c z | none => s)
        | none => finishCompactions n k s

/-- A filter and its pages are gone (12 R351). -/
def State.freeFilter (s : State) (k : Nat) : State :=
  { s with idx := { s.idx with filters := Sparse.drop s.idx.filters k } }.freeOwner (.filter k)

/-- The index is gone: its mappings removed, its zones released, its filters freed (11 R325; 12 R351). -/
def State.destroyIndex (s : State) (n : Nat) (x : Index) : State :=
  let s := x.owned.foldl (fun s (o : OwnedZone) =>
    let s := s.setZone o.zone fun y => { y with owner := none }
    match Sparse.find s.mem.maps o.map with
    | some m => s.unmap o.map m
    | none => s) s
  let mine := (s.idx.filters.filter fun (e : Nat × Filter) => e.2.index == n).map (·.1)
  let s := mine.foldl State.freeFilter s
  { s with idx := { s.idx with indexes := Sparse.drop s.idx.indexes n } }

/-- A grant of a queued or running job names the index or its feed (11 R325). -/
def State.indexGranted (s : State) (n : Nat) (d : IndexDef) : Bool :=
  s.grants.any fun g => (g.kind == 2 && g.base == n) ||
    (g.kind == 0 && d.feedEn && overlap g.base (g.base + g.count * pageBytes) d.feedBase (d.feedBase + feedBytes d))

/-- INDEX_DESTROY. -/
def execIndexDestroy (h : HostCmd) (s : State) : Out :=
  withIndex h 0x81 s fun _ n x s =>
    if (s.idx.queries.any fun q => q.rec_.index == n) ∨ s.indexGranted n x.defn = true then s.reply h.ref 0x0705 0
    else
      let s := finishCompactions n x.compactions.length s
      match s.index n with
      | some x => (s.destroyIndex n x).ok h.ref 0
      | none => s

/-! ## INDEX_REBUILD (11 R324; 16 R486) -/

/-- A graph for every centroid live at `p`, and empty nodes for every other. -/
def rebuildOk (s : State) (d : IndexDef) (p : Nat) (bs : List Byte) : Bool :=
  let live := fun c => decide (c < d.centCap) && (s.dirEnt d c).live p
  entriesOk live (numbersAt bs 0 16) && allBelow d.centCap fun c =>
    let edges := numbersAt bs (64 + c * d.degree * 4) d.degree
    if live c then nodeOk live c edges else edges.all (· == none32)

/-- The checks of a rebuild after its graph's. -/
def rebuildStatus (x : Index) : Nat :=
  if x.rebalance then 0x070E else if x.rebuild || x.freeAt.isSome then 0x070D else 0

/-- INDEX_REBUILD. -/
def execIndexRebuild (h : HostCmd) (s : State) : Out :=
  withIndex h 0x87 s fun c n x s =>
    let d := x.defn
    let st := rebuildStatus x
    let take := fun (s : State) => (s.setIndex n fun x => { x with rebuild := true }).ok h.ref 0
    if d.graph then
      readBuf h c 0 (64 + d.centCap * d.degree * 4) s fun bs s =>
        onSpans h.found h.ref ((s.listedCents d).map fun k => (d.dirAddr k, 64)) s fun s =>
        if rebuildOk s d (x.cur + 1) bs = false then s.reply h.ref 0x070C 0
        else if st ≠ 0 then s.reply h.ref st 0
        else
          let v := 1 - x.vCur
          take ((s.poke (d.entryListAddr v) (bs.take 64)).poke (d.nodeAddr v 0) (bs.drop 64))
    else if st ≠ 0 then s.reply h.ref st 0
    else take s

/-! ## INDEX_ADD_ZONES (11 R313, R314), INDEX_INFO (16 R487) -/

/-- A zone that an index may take: empty, and named by no mapping, bundle, index or open host write. -/
def State.zoneFree (s : State) (z : Nat) : Bool :=
  decide (z < numZones) && (s.zone z).state == .empty && (s.zone z).owner.isNone &&
    !(s.jobs.bundles.any fun b => b.refs.any fun w => meetsZone z w.lba (ceilDiv w.len 4096)) &&
    !(s.mem.maps.any fun (m : Nat × Mapping) => meetsZone z m.2.lba (512 * m.2.pages)) &&
    !((s.fl.arrived ++ s.fl.seqd).any fun o => o.zone == z && match o.op with | .write _ => true | _ => false)

/-- The lowest run of `n` pages from `p` on that no mapping takes (DESIGN CHOICE, log 14). -/
def firstMap : Nat → Nat → Nat → List (Nat × Mapping) → Nat
  | 0, p, _, _ => p
  | k + 1, p, n, l =>
    match l.find? fun e => overlap p (p + n) e.2.page (e.2.page + e.2.pages) with
    | some e => firstMap k (e.2.page + e.2.pages) n l
    | none => p

/-- Zone `z` joins the code log of index `n`, mapped by the lowest free mapping number. -/
def State.ownZone (s : State) (n z : Nat) : State :=
  match lowestFree 4096 fun i => (Sparse.find s.mem.maps i).isSome with
  | none => s
  | some i =>
    let page := firstMap s.mem.maps.length (flashBase / pageBytes) 1024 s.mem.maps
    let s := { s with mem := { s.mem with maps := Sparse.put s.mem.maps i ⟨page, 1024, z * zoneBlocks, none⟩ } }
    (s.setZone z fun y => { y with owner := some n }).setIndex n fun x => { x with owned := x.owned ++ [⟨z, i⟩] }

/-- INDEX_ADD_ZONES. -/
def execIndexAddZones (h : HostCmd) (s : State) : Out :=
  withIndexBuf h 0x88 (fun c => shortFor c 0 (bits (c.dw 4) 0 11) 1024 4) s fun c n x s =>
    let count := bits (c.dw 4) 0 11
    if count = 0 ∨ 1024 < count then s.reply h.ref 0x0102 0
    else readBuf h c 0 (4 * count) s fun bs s =>
      let zs := numbersAt bs 0 count
      if noDup zs = false ∨ zs.all s.zoneFree = false then s.reply h.ref 0x0706 0
      else if 4096 < s.mem.maps.length + count then s.reply h.ref 0x0406 0
      else (zs.foldl (fun s z => s.ownZone n z) s).ok h.ref (x.owned.length + count)

/-- The 64-byte record of INDEX_INFO. -/
def infoRecord (s : State) (n : Nat) (x : Index) : List Byte :=
  let d := x.defn
  let es := s.retained n x
  let oldest := s.oldest n x
  let items := ((s.listedSlots d).filter fun k => (s.item d k).visible x.cur).length
  let tombs := ((s.listedCents d).filter fun k => (s.dirEnt d k).state == 2).length
  leBytes 4 x.cur ++ leBytes 4 oldest ++
    leBytes 4 (es.length + 16 * b2n x.rebalance + 32 * b2n x.rebuild + 64 * b2n d.graph) ++ leBytes 4 x.vCur ++
    leBytes 4 x.vFrom ++ leBytes 8 items ++ leBytes 8 (d.maxItems - (s.usedSlots d oldest).length) ++
    leBytes 4 (s.liveCents d x.cur).length ++ leBytes 4 tombs ++ leBytes 4 (s.freeSegs d) ++ leBytes 4 x.owned.length ++
    leBytes 4 x.feedDone ++ leBytes 8 0

/-- INDEX_INFO. -/
def execIndexInfo (h : HostCmd) (s : State) : Out :=
  withIndexBuf h 0x89 (fun c => shortFor c 0 1 1 64) s fun c n x s =>
    writeBuf h c 0 64 s fun s => (s.hostData h.ref 0 (infoRecord s n x)).ok h.ref x.cur

end Sys2Proof.Machine
end

