-- ==== Sys2Proof/Machine/JobDispatch.lean ====
section
/-!
DEFINITION. JobDispatch.lean: the dispatch of a queued job, a cocoon's resumption among them (07 R199-R208; 09 R246, R247,
R262; 12 R334).
-/
namespace Sys2Proof.Machine

/-- The queued job that partition `p` takes next: the highest priority, of several the one accepted first (07 R199). -/
def nextJob (s : State) (p : Nat) : Option QueuedJob :=
  (s.jobs.queue.filter fun q => q.partition == p).foldl (fun m q =>
    match m with
    | none => some q
    | some b => if b.priority < q.priority then some q else some b) none

/-- Checker test mode with a target on the partition (10 R295). -/
def eccHolds (s : State) (p : Nat) : Bool :=
  let tier := bits s.ecc.testCtrl 1 3
  bit s.ecc.testCtrl 0 &&
    ((decide (tier < 4) && s.partOfDie tier == p) || (tier == 5 && s.partOfCore (bits s.ecc.testTarget 56 7) == p))

/-- Dispatch of partition `p` may act: it is free and its write-back has ended (07 R199, R209), no layout change, restart,
thermal hold, gated die, or test holds it (01 R26; 10 R295, R296; 15 R456; 19 R549; 20 R570). -/
def mayDispatch (s : State) (p : Nat) : Bool :=
  let part := s.jobs.parts.getD p {}
  decide (p < s.numParts) && part.job.isNone && !part.writeback && !s.flt.hubHold && s.gen.layoutReq.isNone && !s.gen.restarting && !s.faulted p &&
    !eccHolds s p && !s.mem.reservedBad.contains p &&
    (s.diesOf p).all fun d => !s.pwr.gated.getD d false

/-- Active cores: those of the partition that are not fenced (07 R201; 06 R154). -/
def activeCores (s : State) (p : Nat) : List Nat := (s.coresOf p).filter fun n => !bit s.gen.features.fenced n

/-- A rank state that records nothing (07 R208). -/
def RankState.empty (r : RankState) : Bool := r.live.isEmpty && r.ctxs.isEmpty && r.x.all (· == 0)

/-- The bytes that the step builder places in private memory: descriptors, and the code records of a query-service job. -/
def builderBytes (b : Bundle) (n : Nat) : Nat :=
  n * b.res.descKib * 1024 + (if b.kind = 2 then 1024 * codeStride else 0)

/-- Eviction frames of a job (08 R211, R212). -/
def evictFrames (b : Bundle) : Nat := match b.kv with | some k => k.evictPages | none => 0

/-- Pages of PRIV_BOARD, which hold the eviction area and what the step builder places (08 R212; DESIGN CHOICE, log 23). -/
def privPages (b : Bundle) (n : Nat) : Nat := ceilDiv (max b.res.privBoard (builderBytes b n + evictFrames b * 65536)) pageBytes

/-- Board pages of a job over `n` cores (07 R194; 08 R624; 12 R334). -/
def boardPagesOf (b : Bundle) (n : Nat) : Nat := privPages b n + ceilDiv (sampleBytes b.kind) pageBytes

/-- KV pages of a cocoon: those that return to the pool, and those that return to the eviction area (07 R208). -/
def cocoonKv (c : Cocoon) (evicted : Bool) : List Nat :=
  c.entries.flatMap fun e => if e.2.evicted == evicted then e.2.held else []

/-- The checks of R201 and R208, in order: the status with which the dispatch ends. -/
def dispatchCheck (s : State) (q : QueuedJob) (b : Bundle) (co : Option Cocoon) (cores : List Nat) : Option Nat :=
  if cores = [] then some 0x0525
  else if sizeAllowed s b = false then some 0x0522
  else
    let pool := if b.kind = 1 then poolFrames s b else 0
    let placed := match co with
      | none => none
      | some c =>
        if (c.ranks.length != cores.length && !c.ranks.all RankState.empty) || decide (s.entriesPer < c.entries.length) then
          some 0x0522
        else if pool < (cocoonKv c false).length ∨ evictFrames b < (cocoonKv c true).length ∨ pinnedPages b q.shadow < c.pinPages then
          some 0x0524
        else none
    match placed with
    | some e => some e
    | none =>
      if s.diesPer * dieFrames < stackNeed b ∨ s.boardFree < boardPagesOf b cores.length then some 0x0524
      else if b.kind = 1 ∧ pool < b.res.kvPagesMin then some 0x0524
      else if q.resume ∧ co.isNone then some 0x052C
      else none

/-- A core as dispatch leaves it: its program loaded, registers cleared but for rank and count (06 R151-R154). -/
def freshCore (b : Bundle) (rank count : Nat) (run : CoreRun) (c : Core) : Core :=
  { c.quiesce with
    store := b.view.programs.getD (b.view.rankMap.getD rank 0) []
    x := (List.replicate 6 0) ++ [rank, count] ++ List.replicate 8 0
    rank := rank
    run := run }

/-- A core's state restored from its rank's record (06 R184; 07 R208). -/
def restoreRank (k : RankState) (c : Core) : Core :=
  k.bad.foldl (fun c w => badWord w c)
    (k.live.foldl (fun c l => spadWrite c l.1 l.2) { c with x := c.x.take 8 ++ k.x, ctxs := k.ctxs })

/-- The cores of a dispatched job (07 R201 step 4). -/
def placeCores (b : Bundle) (run : CoreRun) (cores : List Nat) (s : State) : State :=
  cores.zipIdx.foldl (fun s e => s.setCore e.1 (freshCore b e.2 cores.length run)) s

/-- The rank states of a cocoon in the cores of the job, rank for rank (07 R208). -/
def placeRanks (c : Cocoon) (cores : List Nat) (s : State) : State :=
  if c.ranks.length = cores.length then (cores.zip c.ranks).foldl (fun s e => s.setCore e.1 (restoreRank e.2)) s else s

/-- The scale records of a sequence move from its old entry place to the records of its new entry; a poisoned one stays poisoned (07 R208;
10 R282). -/
def placeScales (p : Nat) (b : Bundle) (c : Cocoon) (old new : Nat) (found : List Finding) (s : State) : State :=
  b.adaptive.foldl (fun s k =>
    let ((bs, bad), s) := s.devRead (c.base * pageBytes + b.view.scaleBase + 16 * (old * b.res.adaptiveT + k.adaptIndex)) 16 found
    let s := s.putPair p b new k.adaptIndex (scalePairOf bs)
    match s.run p with
    | some r => if bad then s.poison (scaleAddr s r b new k.adaptIndex / 64) else s
    | none => s) s

/-- The sequences of a cocoon take the lowest entries of the share, in ascending order of their old numbers, with their scale
records and their KV frames (07 R208). -/
def placeSeqs (p : Nat) (b : Bundle) (c : Cocoon) (found : List Finding) (s : State) : State :=
  let s := (s.moveKv (cocoonKv c false) (.pool p)).moveKv (cocoonKv c true) (.evict p)
  let base := p * s.entriesPer
  let l := sortBy (fun (a b : Nat × SeqEntry) => decide (a.1 < b.1)) c.entries
  let s := l.zipIdx.foldl (fun s e => placeScales p b c e.1.1 (base + e.2) found (s.putEntry (base + e.2) e.1.2)) s
  let top := l.foldl (fun m e => max m (e.2.arrival + 1)) 0
  { s with seqs := { s.seqs with arrival := modifyAt s.seqs.arrival p (max top) } }

/-- Contents of a cocoon's private regions, at their new bases (07 R208): what the new private board memory has room for beside PRIV_BOARD,
which is the same, the step builder writes anew (DESIGN CHOICE, log 118). -/
def placeMem (r : Run) (c : Cocoon) (found : List Finding) (s : State) : State :=
  let at_ := fun (page : Nat) => (c.base + page) * pageBytes
  let s := s.copySpan (at_ 0) (at_ (min c.privPages r.ownPages)) r.privBase found
  let s := s.copySpan (at_ c.privPages) (at_ (c.privPages + c.samplePages)) r.sampleBase found
  (s.copySpan (at_ (c.privPages + c.samplePages)) (at_ (c.privPages + c.samplePages + c.pinPages)) r.pinBase found).countCopied c.pinPages

/-- The lead distance of a dispatch on partition `p` (09 R261). -/
def leadOf (s : State) (p : Nat) (b : Bundle) : Nat :=
  let o := s.mig.lead.getD p 16
  if o < 16 then o else b.sched.lead

/-- The cocoon that the job of partition `p` resumes is restored, and consumed (07 R201 step 5, R207, R208). -/
def State.restoreCocoon (s : State) (p : Nat) (r : Run) (b : Bundle) (c : Cocoon) (found : List Finding) : State :=
  let s := placeSeqs p b c found (placeMem r c found (placeRanks c r.cores s))
  let s := if b.kind = 0 then s.resumeCores p b.view.stepEntry 0 (fun _ => ⟨c.step, 0, 0, 0, 0⟩) fun _ => [] else s
  let s := { s with jobs := { s.jobs with cocoons := s.jobs.cocoons.filter fun k => k.handle != c.handle } }
  (s.freeOwner (.cocoon c.handle)).setRun p fun r => { r with resumes := none }

/-- The dispatch of partition `p` has staged what it can: it restores the cocoon of a resumed job, and its cores start (07 R201, R202; 09
R262). `found`: what the decoders find as the cocoon is read. -/
def State.launchJob (s : State) (p : Nat) (found : List Finding) : State :=
  match s.run p with
  | none => s
  | some r =>
    if r.state ≠ .dispatching ∨ (s.mem.flights.any fun f => f.partition == p) = true then s
    else
      let s := match s.bundle r.bundle, s.jobs.cocoons.find? fun c => some c.handle == r.resumes with
        | some b, some c => s.finding found fun s => s.restoreCocoon p r b c found
        | _, _ => s
      (s.setRun p fun r => { r with state := .running }).snapshot

/-- Staging that belongs to the dispatch: resident ranges, shadow copies and layers 0 … LEAD, complete before the cores start (07 R202;
09 R262). -/
def State.dispatchStaging (s : State) (p : Nat) (found : List Finding) : State := (s.serve p).launchJob p found

/-- PAGE_COPY_DONE: the engine finishes copying a page in flight (09 R248, R249), once the dies have delivered a flash-backed one; it
stops in thermal hold (20 R570). `found`: what the decodings of the source granules of a general-window page find, and those of a cocoon that a
dispatch then restores. -/
def execPageCopyDone (page : Nat) (found : List Finding) (s : State) : Out :=
  match s.mem.flights.find? fun f => f.page == page with
  | none => done s
  | some f =>
    if s.flt.hubHold || s.stageWaits page then done s
    else if (s.jobs.parts.getD f.partition {}).writeback then done (s.activity.landBack f.partition (· == f) found)
    else
      let (lost, s) := s.endStaging page
      done (((s.activity.land f lost found).serve f.partition).launchJob f.partition found)

/-- The run of a dispatched job (07 R201). A batch job runs its step 0 from PC 0 on; other jobs run their prologue, and a
resumed one awaits its first pass (06 R153; 07 R201). -/
def newRun (s : State) (p : Nat) (q : QueuedJob) (b : Bundle) (co : Option Cocoon) (cores : List Nat)
    (priv pin : Nat) : Run :=
  let step := match co with | some c => c.step | none => 0
  let batch := b.kind == 0
  { number := q.number, bundle := b.handle, cmd := q.cmd, seq := q.seq, priority := q.priority, shadow := q.shadow, grants := q.grants,
    binds := q.binds, state := .dispatching, phase := if co.isSome && !batch then .boundary else .run, prologue := !batch && co.isNone,
    first := !batch, step := if batch then step + 1 else step, cores := cores, lead := leadOf s p b,
    privBase := priv * pageBytes, privPages := boardPagesOf b cores.length, pinBase := pin * pageBytes,
    pinPages := pinnedPages b q.shadow, evictPages := if b.kind = 1 then evictFrames b else 0,
    pool := if b.kind = 1 then poolFrames s b else 0,
    resumes := co.map (·.handle), sampleBase := (priv + privPages b cores.length) * pageBytes, descBase := priv * pageBytes, stepStart := s.time }

/-- The job is dispatched (07 R201): its cocoon, where it resumes one, is restored and consumed once its staging is complete (R202, R207). -/
def startRun (p : Nat) (q : QueuedJob) (b : Bundle) (co : Option Cocoon) (cores : List Nat) (found : List Finding) (s : State) : State :=
  let (priv, s) := s.allocPages (boardPagesOf b cores.length) (.priv p)
  let (pin, s) := s.allocPages (pinnedPages b q.shadow) (.pinned p)
  let s := placeCores b (if co.isSome && b.kind != 0 then CoreRun.atStepEnd else CoreRun.running) cores s
  let s := s.setPart p fun x => { x with job := some (newRun s p q b co cores priv pin) }
  let s := { s with mig := { s.mig with
    miss := modifyAt s.mig.miss p fun _ => 0, shadow := modifyAt s.mig.shadow p fun _ => 0,
    lastJob := modifyAt s.mig.lastJob p fun _ => q.number, stagingWait := modifyAt s.mig.stagingWait p fun _ => false } }
  (s.dispatchStaging p found).snapshot

/-- JOB_DISPATCH: partition `p` takes its next queued job; a dispatch that fails ends the job and leaves its cocoon (07
R199-R201, R207, R208). `found`: what the decoders find as a cocoon is read. -/
def execJobDispatch (p : WithFound Nat) (s : State) : Out :=
  match p with
  | ⟨p, found⟩ =>
  if !mayDispatch s p then done s
  else match nextJob s p with
    | none => done s
    | some q =>
      if s.awake = false then done (s.wake 1)
      else
      let co := if q.resume then s.jobs.cocoons.find? fun c => c.handle == q.handle else none
      let bundle := if q.resume then (match co with | some c => s.bundle c.bundle | none => none) else s.bundle q.handle
      match bundle with
      | none => done (s.dropQueued q (if q.resume then 0x052C else 0x050B))
      | some b =>
        let cores := activeCores s p
        match dispatchCheck s q b co cores with
        | some e => done (s.dropQueued q e)
        | none =>
          done (startRun p q b co cores found { s with jobs := { s.jobs with queue := s.jobs.queue.erase q } })

end Sys2Proof.Machine
end

