-- ==== Sys2Proof/Machine/Physical.lean ====
section
/-!
DEFINITION. Physical.lean: contacts, the 48 V input, the power enable, PERST#, the sideband's key commands, and the test connector (21
R593, R601; 22 R609-R623).
-/
namespace Sys2Proof.Machine

/-! ## Power and PERST# (22 R609-R617) -/

/-- The module starts where SENSE is made, PWREN is high and the input is in range (22 R609, R612, R617). -/
def State.powerUp (s : State) : State :=
  let p := s.phys
  if !p.on && p.sense && p.pwren && p.inputIn && !p.shutdown then
    { s with phys := { p with on := true } }.lifeAdd 0 1
  else s

/-- SENSE_MAKE (22 R609). -/
def execSenseMake (s : State) : Out := done { s with phys := { s.phys with sense := true } }.powerUp

/-- SENSE_BREAK: power-loss handling runs (22 R609). -/
def execSenseBreak (landed : List Nat) (saved : Bool) (s : State) : Out :=
  let s := s.loseInput landed saved
  done { s with phys := { s.phys with sense := false } }

/-- PWREN_HIGH: the enable rises; where it had been low for 10 ms, the module starts, at the 100 ms point at the earliest (22
R612). -/
def execPwrenHigh (s : State) : Out := done { s with phys := { s.phys with pwren := true } }.powerUp

/-- INPUT_RANGE_CHANGE: the input, in mV, lies between 38 and 63 V, and leaves or enters 40-60 V (22 R617; 19 R562). A module that is off
starts, or reconnects, from 40 V on and below 60 V. -/
def execInputRangeChange (mv : Nat) (s : State) : Out :=
  if mv < 38000 ∨ 63000 < mv then done s
  else
    let s := { s with pwr := { s.pwr with vin := mv } }
    if s.phys.on then done (if mv < 40000 ∨ 60000 < mv then s.pwrEvt 8 else s)
    else if 40000 ≤ mv ∧ mv < 60000 then done { s with phys := { s.phys with inputIn := true } }.powerUp
    else done s

/-- INPUT_OVERVOLTAGE: above 63 V the input is disconnected (22 R617). -/
def execInputOvervoltage (mv : Nat) (landed : List Nat) (saved : Bool) (s : State) : Out :=
  if mv ≤ 63000 then done s
  else
    let s := s.loseInput landed saved
    done { s with phys := { s.phys with inputIn := false } }

/-- PERST_DEASSERT: link training begins once the boot ROM runs, the antenna wakes the module, and EXTEST, CLAMP and HIGHZ act as
BYPASS (18 R538; 21 R593; 22 R623). -/
def execPerstDeassert (speed width : Nat) (s : State) : Out :=
  let s := { s with phys := { s.phys with perst := false } }
  let s := match s.phys.tap with
    | .extest | .clamp | .highz => { s with phys := { s.phys with tap := .bypass } }
    | .bypass | .idcode | .samplePreload => s
  if s.phys.on = false then done s
  else
    let s := if s.asleep && s.evc.wakePcie then s.antenna 2 0 else s
    done (if 0x10 ≤ s.gen.boot then s.trainLink speed width else s)

/-- AUX_POWER_CHANGE: 3V3AUX rises or falls; the straps are sampled as it rises (22 R611). -/
def execAuxPowerChange (on : Bool) (straps : Nat) (s : State) : Out :=
  let addr := if on && !s.phys.aux then straps % 4 else s.phys.sbAddr
  done { s with phys := { s.phys with aux := on, sbAddr := addr } }

/-! ## Key commands of the sideband (21 R601; 22 R615) -/

/-- A write of SB_KEY_CMD; ignored while BUSY is 1. -/
def State.keyCommand (s : State) (k : Nat) (fine : Bool) : State :=
  if s.phys.keyBusy.isSome ∨ s.phys.on = false then s
  else { s with phys := { s.phys with keyBusy := some (k, fine) } }.keyRun

/-- SB_KEY_INSTALL. `fine`: the configuration write succeeds (DEDUCED, log 93). -/
def execSbKeyInstall (fine : Bool) (s : State) : Out := done (s.keyCommand 1 fine)

/-- SB_KEY_REMOVE. -/
def execSbKeyRemove (fine : Bool) (s : State) : Out := done (s.keyCommand 2 fine)

/-! ## Test connector (22 R623) -/

/-- An instruction stands in the five dies of the chain; `out`: what they shift out, hub die first. -/
def State.tapTo (s : State) (i : TapInstr) (out : List Nat) : State :=
  if s.phys.on then { s with phys := { s.phys with tap := i, tapOut := out } } else s

/-- The bypass registers of the chain. -/
def bypassOut : List Nat := [0, 0, 0, 0, 0]

/-- BYPASS acts. -/
def State.bypass (s : State) : State := s.tapTo .bypass bypassOut

/-- EXTEST, CLAMP and HIGHZ take effect: PERST# is asserted and the zone write buffer is empty. -/
def State.tapFree (s : State) : Bool := s.phys.perst && s.fl.buffered.isEmpty

/-- BYPASS. -/
def execBypass (s : State) : Out := done s.bypass

/-- The IDCODE of every die of the part: version, part number, manufacturer, 1. -/
def idcode : Nat := Config.stepping.val * 2 ^ 28 + 0x7224 * 2 ^ 12 + Config.jedec % 2048 * 2 + 1

/-- IDCODE. -/
def execIdcode (s : State) : Out := done (s.tapTo .idcode (List.replicate 5 idcode))

/-- SAMPLE_PRELOAD: the boundary cells sample `pins` and take `preload`. -/
def execSamplePreload (pins preload : List Nat) (s : State) : Out :=
  let s := s.tapTo .samplePreload pins
  done (if s.phys.on then { s with phys := { s.phys with boundary := preload } } else s)

/-- EXTEST: the boundary cells drive the contacts, and capture `pins`. -/
def execExtest (pins cells : List Nat) (s : State) : Out :=
  if s.tapFree then
    let s := s.tapTo .extest pins
    done (if s.phys.on then { s with phys := { s.phys with boundary := cells } } else s)
  else done s.bypass

/-- CLAMP: the boundary cells drive the contacts through the bypass registers. -/
def execClamp (s : State) : Out := if s.tapFree then done (s.tapTo .clamp bypassOut) else done s.bypass

/-- HIGHZ: the contacts float. -/
def execHighz (s : State) : Out := if s.tapFree then done (s.tapTo .highz bypassOut) else done s.bypass

/-- DEBUG_INSTRUCTION: at PL1 and PL2 it acts as BYPASS; at PL0 the spec gives the Beynath debug instructions no effect
(DEDUCED, log 96). -/
def execDebugInstruction (s : State) : Out :=
  if s.gen.pl = 0 then .refused .debugUnspecified else done s.bypass

end Sys2Proof.Machine
end

