-- ==== Sys2Proof/Machine/QueryCmds.lean ====
section
/-!
DEFINITION. QueryCmds.lean: QUERY, QUERY_MERGE, FILTER_LOAD and FILTER_FREE (12 R329-R333, R348-R357; 16 R488, R489).
-/
namespace Sys2Proof.Machine

/-! ## QUERY -/

/-- The jobs that serve index `n`, queued and running, in ascending number (12 R329). -/
def State.servers (s : State) (n : Nat) : List Nat :=
  let serves := fun (h : Nat) (gs : List Grant) =>
    (match s.bundle h with | some b => b.kind == 2 | none => false) && gs.any fun g => g.kind == 2 && g.base == n
  let bundleOf := fun (q : QueuedJob) =>
    if q.resume then (match s.jobs.cocoons.find? fun c => c.handle == q.handle with | some c => c.bundle | none => 0)
    else q.handle
  let queued := (s.jobs.queue.filter fun q => serves (bundleOf q) q.grants).map (·.number)
  let running := s.jobs.parts.filterMap fun p => match p.job with
    | some r => if serves r.bundle r.grants then some r.number else none
    | none => none
  sortBy (fun a b => decide (a < b)) (queued ++ running)

/-- The serving job with the fewest unreplied queries, the lower number first (12 R330). -/
def State.serverFor (s : State) (n : Nat) : Option Nat :=
  let load := fun j => (s.idx.queries.filter fun q => q.job == j).length
  (s.servers n).foldl (fun m j => match m with
    | none => some j
    | some k => if load j < load k then some j else some k) none

/-- The parts of a query record: bytes of the input, where terms and values begin, bytes of all (12 R332). -/
def queryParts (d : IndexDef) (bs : List Byte) : Nat × Nat × Nat × Nat :=
  let w := dwordAt bs
  let input := if bit (w 0) 8 then d.cr else 4 * bits (w 1) 0 17
  let terms := 32 * ceilDiv (64 + input) 32
  let values := terms + 32 * bits (w 8) 0 6
  (input, terms, values, values + 8 * bits (w 8) 16 13)

/-- The header's fields lie in range and its reserved fields are zero (12 R332, R333). -/
def queryHeaderOk (d : IndexDef) (bs : List Byte) : Bool :=
  let w := dwordAt bs
  let code := bit (w 0) 8
  let ntok := bits (w 1) 0 17
  let k := bits (w 2) 0 11
  let nprobe := bits (w 3) 0 13
  let ef := bits (w 4) 0 15
  let rerank := bits (w 6) 0 19
  let reserved := [bits (w 0) 6 2, w 0 / 2 ^ 10, w 1 / 2 ^ 17, w 2 / 2 ^ 11, w 3 / 2 ^ 13, w 4 / 2 ^ 15, w 5 / 2 ^ 13,
    w 6 / 2 ^ 19, w 7 / 2 ^ 9, bits (w 8) 6 10, bits (w 8) 29 3, w 10, w 11, w 12, w 13, w 14, w 15]
  reserved.all (· == 0) && (if code then ntok == 0 else decide (1 ≤ ntok ∧ ntok ≤ 65536)) &&
    decide (1 ≤ k ∧ k ≤ 1024 ∧ 1 ≤ nprobe ∧ nprobe ≤ 4096) &&
    (if d.graph then decide (nprobe ≤ ef ∧ ef ≤ 16384) else ef == 0) &&
    decide (bits (w 5) 0 13 ≤ d.dim ∧ k ≤ rerank ∧ rerank ≤ 262144 ∧ bits (w 8) 0 6 ≤ 32 ∧ bits (w 8) 16 13 ≤ 4096)

/-- The term in 32 bytes (12 R348). -/
def termOf (bs : List Byte) : Term :=
  let w := dwordAt bs
  ⟨bits (w 0) 0 4, bits (w 0) 4 5, bit (w 0) 9, bits (w 1) 0 13, qwordAt bs 2, qwordAt bs 4⟩

/-- A term breaks no rule of R349 by itself: its operation, its reserved fields, its column, its set. -/
def termOk (d : IndexDef) (values : Nat) (bs : List Byte) : Bool :=
  let t := termOf bs
  decide (t.op ≤ 10) && dwordAt bs 0 / 2 ^ 10 == 0 && dwordAt bs 1 / 2 ^ 13 == 0 && qwordAt bs 6 == 0 &&
    (decide (8 ≤ t.op) || decide (t.col < d.ncols)) &&
    (t.op != 7 || decide (1 ≤ t.count ∧ t.count ≤ 4096 ∧ t.a + t.count ≤ values))

/-- Values on the stack after the terms; none where an operator finds too few (12 R349). -/
def stackAfter : List Term → Nat → Option Nat
  | [], n => some n
  | t :: ts, n =>
    if t.op = 8 ∨ t.op = 9 then if n < 2 then none else stackAfter ts (n - 1)
    else if t.op = 10 then if n < 1 then none else stackAfter ts n
    else stackAfter ts (n + 1)

/-- The query record (12 R332). -/
def queryOf (d : IndexDef) (bs : List Byte) : QueryRec :=
  let w := dwordAt bs
  let (input, terms, values, _) := queryParts d bs
  let code := bit (w 0) 8
  { index := bits (w 0) 0 6, code := code, hits := bit (w 0) 9,
    toks := if code then [] else numbersAt bs 64 (bits (w 1) 0 17)
    input := if code then (bs.drop 64).take input else []
    k := bits (w 2) 0 11, nprobe := bits (w 3) 0 13, ef := bits (w 4) 0 15, hamMax := bits (w 5) 0 13,
    rerankMax := bits (w 6) 0 19, filter := if bit (w 7) 8 then some (bits (w 7) 0 8) else none
    terms := (List.range (bits (w 8) 0 6)).map fun i => termOf ((bs.drop (terms + 32 * i)).take 32)
    values := (List.range (bits (w 8) 16 13)).map fun i => leNat ((bs.drop (values + 8 * i)).take 8)
    mergeId := w 9 }

/-- The reserved fields of a supplied code record are zero (11 R302; 12 R333). -/
def recordReservedOk (d : IndexDef) (record : List Byte) : Bool :=
  let t := record.drop (d.dim / 2 + d.l1b)
  leNat ((t.drop 2).take 2) == 0 && leNat ((t.drop 12).take 4) == 0

/-- The checks that follow the header's, 0 where the query is accepted (12 R333, R349; DEDUCED, log 72). -/
def queryStatus (s : State) (c : Cmd) (d : IndexDef) (r : QueryRec) (bs : List Byte) : Nat :=
  let (_, terms, _, _) := queryParts d bs
  let raw := (List.range r.terms.length).map fun i => (bs.drop (terms + 32 * i)).take 32
  if (r.code && !(recordScaleOk d r.input && recordReservedOk d r.input)) || (r.hits && decide (c.len 1 < 64 + 16 * r.k)) then 0x0712
  else if !(raw.all (termOk d r.values.length)) || (!r.terms.isEmpty && stackAfter r.terms 0 != some 1) then 0x0713
  else match r.filter with
    | none => 0
    | some h => match Sparse.find s.idx.filters h with
      | some f => if f.index = r.index then 0 else 0x0714
      | none => 0x0714

/-- The query joins job `j`, pinned to the index's current epoch (12 R330). -/
def State.joinQuery (s : State) (ref : CmdRef) (j epoch : Nat) (r : QueryRec) : State :=
  let serial := Sparse.get 0 s.idx.serials j
  { s with idx := { s.idx with
    queries := s.idx.queries ++ [{ cmd := ref, seq := match s.cmd ref with | some c => c.seq | none => 0, job := j, epoch := epoch, serial := serial, rec_ := r, accepted := s.time }]
    serials := Sparse.set 0 s.idx.serials j (serial + 1) } }

/-- QUERY (12 R330-R333): an accepted query replies at a step boundary of its serving job. -/
def execQuery (h : HostCmd) (s : State) : Out :=
  withCmd s h.ref 0x90 fun c s =>
    readBuf h c 0 64 s fun bs s =>
      let n := bits (dwordAt bs 0) 0 6
      match s.index n, s.serverFor n with
      | none, _ => s.reply h.ref 0x0702 0
      | some _, none => s.reply h.ref 0x0711 0
      | some x, some j =>
        let d := x.defn
        if queryHeaderOk d bs = false then s.reply h.ref 0x0712 0
        else readBuf h c 0 (queryParts d bs).2.2.2 s fun bs s =>
          let r := queryOf d bs
          let st := queryStatus s c d r bs
          if st ≠ 0 then s.reply h.ref st 0 else s.joinQuery h.ref j x.cur r

/-! ## QUERY_MERGE (12 R357; 16 R489) -/

/-- A hit list read from its bytes; none where it breaks R141 or bears another K_REQ or CHAIN_ID. -/
def hitListOf (k : Nat) (chain : Nat) (bs : List Byte) : Option HitList :=
  let w := dwordAt bs
  match loadFrame .topk chain k (bs.drop 32) with
  | .error _ => none
  | .ok f => some
    { epoch := w 0, index := bits (w 1) 0 6, capped := bit (w 1) 6, timing := bit (w 1) 7, lists := bits (w 2) 0 13,
      candidates := w 3, survivors := w 4, thresh := bits (w 5) 0 13, scanned := qwordAt bs 6, chainId := chain, kReq := k,
      seen := f.seen, entries := f.entries }

/-- Two hit lists merged, the first one's INDEX kept (12 R357; 05 R149; DESIGN CHOICE, log 74). -/
def HitList.merge (a b : HitList) : HitList :=
  { epoch := if a.epoch = b.epoch then a.epoch else none32
    index := a.index
    capped := a.capped || b.capped
    timing := a.timing || b.timing
    lists := min (a.lists + b.lists) (2 ^ 13 - 1)
    candidates := sat32 (a.candidates + b.candidates)
    survivors := sat32 (a.survivors + b.survivors)
    thresh := 0
    scanned := sat64 (a.scanned + b.scanned)
    chainId := a.chainId
    kReq := a.kReq
    seen := sat64 (a.seen + b.seen)
    entries := mergeEntries a.kReq a.entries b.entries }

/-- QUERY_MERGE. -/
def execQueryMerge (h : HostCmd) (s : State) : Out :=
  withCmd s h.ref 0x91 fun c s =>
    let nl := bits (c.dw 4) 0 9
    let k := bits (c.dw 5) 0 11
    let size := 64 + 16 * k
    if nl < 2 ∨ 256 < nl ∨ k = 0 ∨ 1024 < k then s.reply h.ref 0x0102 0
    else if c.len 1 < size then s.reply h.ref 0x0105 0
    else readBuf h c 0 (nl * size) s fun bs s =>
      let chain := dwordAt (bs.drop 32) 1
      match (List.range nl).mapM fun i => hitListOf k chain ((bs.drop (i * size)).take size) with
      | some (a :: rest) =>
        let m := rest.foldl HitList.merge { a with entries := mergeEntries k [] a.entries, thresh := 0 }
        (s.hostData h.ref 1 m.bytes).ok h.ref m.result
      | _ => s.reply h.ref 0x0719 0

/-! ## Filters (12 R350, R351; 16 R488) -/

/-- Runs ascend, do not overlap and do not touch, and end within the chunk. -/
def runsOk : Nat → List (Nat × Nat) → Bool
  | _, [] => true
  | lo, r :: t => decide (lo ≤ r.1 ∧ r.1 + r.2 ≤ 65536) && runsOk (r.1 + r.2 + 1) t

/-- The highest slot of the chunk that a chunk record allows, plus one. -/
def ChunkKind.top : ChunkKind → Nat
  | .none => 0
  | .all => 65536
  | .runs rs => rs.foldl (fun m r => max m (r.1 + r.2)) 0
  | .raw bs => bs.zipIdx.foldl (fun m e => if e.1 = 0 then m else 8 * e.2 + Nat.log2 e.1.toNat + 1) 0

/-- What a chunk record says, and its bytes; none where a rule is broken. -/
def chunkOf (bs : List Byte) : Option (Nat × ChunkKind × Nat) :=
  let chunk := dwordAt bs 0
  let w := dwordAt bs 1
  let kind := bits w 0 2
  let n := bits w 16 16
  if bits w 2 14 ≠ 0 ∨ (kind ≠ 2 ∧ n ≠ 0) then none
  else match kind with
    | 0 => some (chunk, .none, 8)
    | 1 => some (chunk, .all, 8)
    | 2 =>
      let rs := (List.range n).map fun i =>
        let r := dwordAt (bs.drop 8) i
        (bits r 0 16, bits r 16 16 + 1)
      if n = 0 ∨ 32768 < n ∨ bs.length < 8 * ceilDiv (8 + 4 * n) 8 ∨ runsOk 0 rs = false then none
      else some (chunk, .runs rs, 8 * ceilDiv (8 + 4 * n) 8)
    | _ => if bs.length < 8200 then none else some (chunk, .raw ((bs.drop 8).take 8192), 8200)

/-- The chunk records of a form, in strictly ascending CHUNK, no bit at or above `maxItems`. -/
def chunksOf (maxItems : Nat) : Nat → Nat → List Byte → Option (List (Nat × ChunkKind))
  | 0, _, _ => some []
  | n + 1, lo, bs =>
    if bs.length < 8 then none
    else match chunkOf bs with
      | none => none
      | some (c, k, size) =>
        if c < lo ∨ (k.top ≠ 0 ∧ maxItems < 65536 * c + k.top) then none
        else match chunksOf maxItems n (c + 1) (bs.drop size) with
          | none => none
          | some t => some ((c, k) :: t)

/-- FILTER_LOAD (12 R350). -/
def execFilterLoad (h : HostCmd) (s : State) : Out :=
  withCmd s h.ref 0x92 fun c s =>
    readBuf h c 0 (max 16 (c.len 0)) s fun bs s =>
      let w := dwordAt bs
      let n := bits (w 0) 0 6
      match s.index n with
      | none => s.reply h.ref 0x0702 0
      | some x =>
        let form := if w 0 / 64 ≠ 0 ∨ qwordAt bs 2 ≠ 0 then none else chunksOf x.defn.maxItems (w 1) 0 (bs.drop 16)
        let pages := ceilDiv (ceilDiv x.defn.maxItems 8) pageBytes
        match form, lowestFree 256 fun i => (Sparse.find s.idx.filters i).isSome with
        | none, _ => s.reply h.ref 0x0715 0
        | some _, none => s.reply h.ref 0x0717 0
        | some chunks, some k =>
          if s.boardFree < pages then s.reply h.ref 0x0401 0
          else
            let (page, s) := s.allocPages pages (.filter k)
            let f : Filter := ⟨n, chunks, page, pages⟩
            { s with idx := { s.idx with filters := Sparse.put s.idx.filters k f } }.ok h.ref k

/-- FILTER_FREE (12 R351; 16 R488). -/
def execFilterFree (h : HostCmd) (s : State) : Out :=
  withCmd s h.ref 0x93 fun c s =>
    let k := bits c.handle 0 8
    if (Sparse.find s.idx.filters k).isNone then s.reply h.ref 0x0714 0
    else if s.idx.queries.any fun q => q.rec_.filter == some k then s.reply h.ref 0x0716 0
    else (s.freeFilter k).ok h.ref 0

end Sys2Proof.Machine
end

