-- ==== Sys2Proof/Machine/Startup.lean ====
section
/-!
DEFINITION. Startup.lean: the stages of start-up (13 R375, R386, R388, R398; 15 R450; 20 R573; 21 R590-R607).
-/
namespace Sys2Proof.Machine

/-! ## Boot selector and imago (21 R594-R597) -/

/-- The lowest bit that is 1, cleared. -/
def clearLowest (x : Nat) : Nat := match (List.range 8).find? fun i => bit x i with | some i => clearBits x (2 ^ i) | none => x

/-- The boot ROM clears an ATTEMPTS bit of the record in force before a start from it. -/
def State.countAttempt (s : State) : State :=
  match s.selectorAt with
  | none => s
  | some i =>
    let f := fun (r : Selector) => { r with attempts := clearLowest r.attempts }
    { s with sf := { s.sf with selector := modifyAt s.sf.selector i f } }

/-- ATTEMPTS bits that the record in force has cleared. -/
def State.attempts (s : State) : Nat :=
  match s.selectorAt with
  | some i => 8 - ones 8 (s.sf.selector.getD i ⟨0, 0, 0, false⟩).attempts
  | none => 0

/-- The slots in the order in which the ROM tries them: the selected one first, unless three earlier starts from this record have
failed (R595). The start in progress has cleared its own bit. -/
def State.slotOrder (s : State) : List Nat :=
  let a := s.selectedSlot
  if 4 ≤ s.attempts then [1 - a, a] else [a, 1 - a]

/-- A slot verifies: it is whole, its header is well formed, its key is the module's and its signature verifies, its stepping and its
SVN fit (R595). `damaged`: slots whose flash no longer holds what was programmed (DEDUCED, log 92). -/
def State.slotOk (s : State) (damaged : List Nat) (i : Nat) : Bool :=
  let x := s.sf.slots.getD i {}
  x.valid && !damaged.contains i && bit x.steppings Config.stepping.val && decide (s.gen.minSvn ≤ x.svn) &&
    (x.factory || (imageOk x.image x.length && imageSigned x.image x.length))

/-- A slot that was tried and failed reads no version (R595). -/
def State.failSlot (s : State) (i : Nat) : State :=
  { s with sf := { s.sf with slots := modifyAt s.sf.slots i fun x => { x with valid := false } } }

/-- The first slot of the order that verifies, those before it marked. -/
def tryImages (damaged : List Nat) : List Nat → State → Option Nat × State
  | [], s => (none, s)
  | i :: t, s => if s.slotOk damaged i then (some i, s) else tryImages damaged t (s.failSlot i)

/-- What the imago writes when it begins to run: EVC_CTRL and ANT_CTRL (18 R540), PWR_LIMIT (19 R560), SCB_RATE (10 R297); the ports
begin training under the saved MODULE_ID (21 R593). -/
def State.imagoWrites (s : State) : State :=
  let id := s.savedFeature 5
  let s := { s with
    gen := { s.gen with boot := 0x21, moduleId := id, features := { s.gen.features with moduleId := id } }
    evc := { s.evc with prigrp := 4, wakePcie := true, wakeSideband := true }
    pwr := { s.pwr with limit := 2400 }
    ecc := { s.ecc with scbEn := Config.scbEn, scbRate := 1000 } }
  [0, 1, 2, 3].foldl (fun s p => if (s.port p).disable then s else s.portState p .down) s

/-! ## Journal replay and keys (13 R386, R398; 21 R602, R607) -/

/-- A sector whose status word shows an interrupted erase is erased again; one left OPEN is closed, a tally sector excepted (13 R390;
21 R605). -/
def scanSector (s : State) (e : Nat × Nat) : State :=
  if e.2 = wordOpen then if 4110 ≤ e.1 ∧ e.1 < 4118 then s else s.setWord e.1 wordValid
  else if e.2 = wordValid ∨ e.2 = wordErased then s
  else s.eraseSector e.1

/-- The sector status words are read at start-up. -/
def State.scanSectors (s : State) : State := s.sf.words.foldl scanSector s

/-- Records from number `n` on, up to the first whose CRC fails or whose SEQ does not follow: what comes then is a torn tail (13 R386). -/
def goodRecords : Nat → List (List Byte) → List JournalRec
  | _, [] => []
  | n, b :: t =>
    match recordOf b with
    | some r => if recordSeq b = n then r :: goodRecords (n + 1) t else []
    | none => []

/-- The records that replay reads: those from the newest checkpoint's on. -/
def State.replayable (s : State) : List JournalRec :=
  let n := s.fl.checkpoint.seq
  goodRecords n ((s.fl.journal.flatMap (·.records)).dropWhile fun b => decide (recordSeq b < n))

/-- The store as the newest checkpoint has it, and the journal without its torn tail after `n` good records. -/
def State.fromCheckpoint (s : State) (n : Nat) : State :=
  let c := s.fl.checkpoint
  let whole := fun (b : List Byte) => (recordOf b).isSome && decide (recordSeq b < c.seq + n)
  { s with fl := { s.fl with
      zones := c.zones, blockErases := c.blockErases, spares := c.spares, retired := c.retired, keyGen := c.keyGen
      eraseQ := (c.zones.filter fun (e : Nat × Zone) => e.2.erasing).map fun (e : Nat × Zone) => e.1
      journal := s.fl.journal.map fun (j : JournalSector) => { j with records := j.records.filter whole }
      journalSeq := c.seq + n } }

/-- A zone as a CRYPTO_ERASE leaves it (13 R397, R398): what holds older data is EMPTY, its erase pending. -/
def replayCrypto (g : Nat) (s : State) (z : Nat) : State :=
  let old := s.fl.words.any fun w => zoneOf w.1 == z && decide (w.2.gen < g)
  match (s.zone z).state with
  | .offline => s
  | .readOnly => s.setZone z fun x => { x with state := .offline, wp := 0, seqPtr := 0, padAt := [] }
  | .empty => if old then s.markErase z else s
  | _ => s.markErase z

/-- The erase of a zone has ended: its blocks at the positions `ps` are counted, but for the spares `spared` of those that failed. -/
def State.erasedZone (s : State) (z : Nat) (ps spared : List Nat) : State :=
  let s := ((ps.map (s.blockAt z)).filter fun b => !spared.contains b).foldl State.countErase s
  { s with fl := { s.fl with eraseQ := s.fl.eraseQ.filter fun y => y != z } }

/-- What replay makes of a record (13 R386). Beside the state, the spares that took the place of blocks whose erase failed and has no end
record yet: the erase counts on the block that failed it (13 R380). -/
def replayRec (a : State × List Nat) : JournalRec → State × List Nat
  | .eraseIntent z _ => ((a.1.setZone z fun x => { x with intent := true }).markErase z, a.2)
  | .eraseDone z m =>
    let ps := (List.range 16).filter (bit m)
    ((a.1.erasedZone z ps a.2).setZone z fun x => { x with erasing := false, intent := false },
      a.2.filter fun b => !(ps.map (a.1.blockAt z)).contains b)
  | .finish z wp => (a.1.setZone z fun x => { x with state := .finished, wp := wp }, a.2)
  | .pad z _ wp => (a.1.setZone z fun x => { x with state := .opened, wp := wp, paddedLast := true }, a.2)
  | .retire z b r =>
    let failed := (a.1.zone z).intent
    ((if failed then a.1.countErase b else a.1).takeSpare b (r / 4096) (r % 4096 - 3844), if failed then r :: a.2 else a.2)
  | .sfIntent _ => a
  | .sfDone _ => a
  | .cryptoErase g => let s := { a.1 with fl := { a.1.fl with keyGen := g } }; (s.usedZones.foldl (replayCrypto g) s, a.2)
  | .checkpoint _ _ => a
  | .zoneState z st lost =>
    let s := a.1.erasedZone z (if st = .offline ∧ (a.1.zone z).intent = true then List.range 16 else []) a.2
    (s.setZone z fun x => { x with state := st, lost := x.lost || lost, erasing := false, intent := false }, a.2)

/-- A zone's write pointer is recovered from the metadata of its program units: past the last block of the generation in force (13 R386);
its suspect blocks stay so (DESIGN CHOICE, log 115). -/
def recoverZone (old : State) (s : State) (z : Nat) : State :=
  let ws : List (Nat × FlashWord) := s.fl.words.filter fun w => zoneOf w.1 == z && w.2.gen == s.fl.keyGen
  let top := ws.foldl (fun m w => max m (zoneOff w.1 + 1)) 0
  let worn := (List.range 16).any fun p => decide (1500 ≤ s.erasesOf (s.blockAt z p))
  s.setZone z fun x =>
    let x := { x with
      suspect := (old.zone z).suspect, worn := x.worn || worn
      padAt := (ws.filter fun (w : Nat × FlashWord) => w.2.pad).map fun (w : Nat × FlashWord) => (zoneOff w.1, zoneOff w.1 + 1) }
    if x.erasing ∨ x.state = .offline then { x with wp := 0, seqPtr := 0, padAt := [] }
    else match x.state with
      | .finished => { x with seqPtr := x.wp }
      | .readOnly => { x with wp := top, seqPtr := top }
      | _ => { x with
          state := if top = 0 then .empty else if top = zoneBlocks then .full else .opened
          wp := top, seqPtr := top, paddedLast := x.paddedLast && x.wp == top }

/-- System-flash sectors whose erase has an intent record and no done record. -/
def openSectors (rs : List JournalRec) : List Nat :=
  rs.foldl (fun l r => match r with | .sfIntent k => l ++ [k] | .sfDone k => l.filter fun x => x != k | _ => l) []

/-- The bytes of sector `i` of an imago slot read erased. -/
def ImagoSlot.eraseSector (x : ImagoSlot) (i : Nat) : ImagoSlot :=
  { x with image := x.image.zipIdx.map fun (e : Byte × Nat) => if e.2 / 65536 = i then 0xFF else e.1 }

/-- An interrupted erase of a host-area or imago-slot sector is done again (13 R386). -/
def State.redoSector (s : State) (k : Nat) : State :=
  if 3086 ≤ k ∧ k < 4110 then s.eraseHost (k - 3086)
  else
    let slots := if 16 ≤ k ∧ k < 1040 then modifyAt s.sf.slots ((k - 16) / 512) (fun x => x.eraseSector ((k - 16) % 512)) else s.sf.slots
    (State.countSector { s with sf := { s.sf with slots := slots } } k).journal (.sfDone k)

/-- A lowering that has committed is completed where its older key record still stands; one that has not is undone (13 R398; 21 R602,
R607). -/
def State.settleLowering (s : State) : State :=
  match s.sf.keyRecs.getD s.spareKey none with
  | some r => if r.generation < s.fl.keyGen then s.endLowering.voidTallies else s.dropKeys.voidTallies
  | none => s.dropKeys.voidTallies

/-- Erases under intent records are done again; `failed`: 16 * zone + channel position of each block whose erase fails (13 R385, R386). -/
def State.replayErases (s : State) (failed : List Nat) : State :=
  (s.fl.eraseQ.filter fun z => (s.zone z).intent).foldl
    (fun s z => s.endErase z ((failed.filter fun f => f / 16 == z).map fun f => f % 16)) s

/-- The journal is replayed, the write pointers are recovered (13 R386, R398; 21 R602, R607); erases that a CRYPTO_ERASE left pending
begin. -/
def State.replay (s : State) (failed : List Nat) : State :=
  let old := s.scanSectors
  let rs := old.replayable
  let (s, _) := rs.foldl replayRec (old.fromCheckpoint rs.length, [])
  let s := (s.usedZones.foldl (recoverZone old) s).settleLowering
  let s := ((openSectors rs).foldl State.redoSector s).replayErases failed
  s.fl.eraseQ.foldl State.kickZone s

/-! ## Eclosion (15 R450; 21 R590, R594, R597, R598) -/

/-- The saved features, but for those set since the admin queue was served, and the saved layout. -/
def State.applySaved (s : State) : State :=
  let fs := (s.config.saved.filter fun e => !s.gen.setEarly.contains e.1).foldl
    (fun (f : Features) e => f.set e.1 e.2) s.gen.features
  { s with gen := { s.gen with features := fs, layout := s.config.layout.getD 0, setEarly := [] } }

/-- The selector record in force names the running slot, with at most one bit cleared. -/
def State.selectorFits (s : State) : Bool :=
  s.selectorAt.isSome && s.selectedSlot == s.gen.slot && decide (s.attempts ≤ 1)

/-- ECLOSED is set. -/
def State.eclose (s : State) : State :=
  let s := s.raiseSvn s.gen.svn
  let s := if s.selectorFits then s else s.writeSelector s.gen.slot
  { s with gen := { s.gen with eclosed := true }, pwr := { s.pwr with idleSince := s.time } }

/-! ## Stages (21 R590, R591) -/

/-- The stop codes of a stage. -/
def stopCodes (boot : Nat) : List Nat :=
  match boot with
  | 0x10 => [0x8001, 0x8003]
  | 0x30 => [0x8004]
  | 0x40 => [0x8005]
  | 0x50 => [0x8006, 0x8007]
  | 0x70 => [0x8008, 0x8009]
  | _ => []

/-- BOOT_CODE takes a value; a stop code alerts the sideband (22 R614). -/
def State.bootCode (s : State) (b : Nat) : State :=
  let s := { s with gen := { s.gen with boot := b } }
  if 0x8000 ≤ b then s.sbAlert 5 else s

/-- The generation that replay puts in force: that of the newest CRYPTO_ERASE record, else the newest checkpoint's (21 R602). -/
def State.replayGen (s : State) : Nat :=
  s.replayable.foldl (fun m r => match r with | .cryptoErase g => g | _ => m) s.fl.checkpoint.keyGen

/-- The key record of the generation that replay puts in force verifies (21 R602). -/
def State.keyOk (s : State) : Bool :=
  s.sf.keyRecs.any fun k => match k with | some r => r.generation == s.replayGen && r.torn.isNone | none => false

/-- The key record in force no longer holds what was programmed: its bytes are free values (21 R602; DEDUCED, log 92). -/
def State.tearKey (s : State) : State :=
  let (l, s) := s.freeBytes 84
  let g := s.replayGen
  let tear := fun (k : Option KeyRec) => k.map fun r => if r.generation = g then { r with torn := some l } else r
  { s with sf := { s.sf with keyRecs := s.sf.keyRecs.map tear } }

/-- Tally record `i` is found torn: its bytes are free values (21 R607; DEDUCED, log 92). -/
def State.tearTally (s : State) (i : Nat) : State :=
  let (l, s) := s.freeBytes 32
  { s with sf := { s.sf with tallies := modifyAt s.sf.tallies i fun t => { t with torn := some l } } }

/-- The stage of replay ends (13 R386; 21 R602, R607): a key record in force that fails stops start-up. `failed`: the blocks whose erase
fails, and 2^32 + i for each tally record i found torn. -/
def State.endReplay (s : State) (failed : List Nat) : State :=
  if s.keyOk then
    let torn := (failed.filter fun n => decide (2 ^ 32 ≤ n)).map fun n => n - 2 ^ 32
    ((torn.foldl State.tearTally s).replay (failed.filter fun n => decide (n < 2 ^ 32))).bootCode 0x60
  else s.bootCode 0x8007

/-- The verification stage ends: the slot that verified runs, or start-up stops (21 R591, R595). -/
def State.verified (s : State) (damaged : List Nat) : State :=
  match tryImages damaged s.slotOrder s with
  | (some i, s) => (s.runImago i).imagoWrites
  | (none, s) => s.bootCode 0x8002

/-- The hold-up check of stage 0x0030 (13 R375; 20 R571). -/
def State.holdup (s : State) (ok : Bool) : State :=
  let s := { s with fl := { s.fl with holdupOk := ok }, flt := { s.flt with holdupFail := !ok } }
  if ok then s else (s.fltEvt 2).lifeAdd 19 1

/-- The stage in progress completes. `failed`: at 0x0020 the slots whose contents are damaged, at 0x0030 not empty where the hold-up check
fails, at 0x0050 the blocks whose erase fails and the torn tally records, at 0x0070 the cores that fail their test. `speed` and `width`: what link training gives. -/
def State.endStage (s : State) (failed : List Nat) (speed width : Nat) : State :=
  match s.gen.boot with
  | 0x00 => s.bootCode 0x01
  | 0x01 => (if s.phys.perst then s else s.trainLink speed width).bootCode 0x10
  | 0x10 => s.bootCode 0x11
  | 0x11 => s.countAttempt.bootCode 0x20
  | 0x20 => s.verified failed
  | 0x21 => s.bootCode 0x30
  | 0x30 => (s.holdup failed.isEmpty).bootCode 0x40
  | 0x40 => s.bootCode 0x50
  | 0x50 => s.endReplay failed
  | 0x60 => { s with gen := { s.gen with storageReady := true } }.bootCode 0x70
  | 0x70 =>
    let s := ((failed.filter fun n => decide (n < 96)).foldl State.flagCore s).applySaved
    { s with pwr := { s.pwr with gated := [false, false, false, false] } }.bootCode 0x80
  | 0x80 => if s.gen.eclosed then s else s.eclose
  | _ => s

/-- STARTUP_STAGE: the stage in progress completes, or stops start-up with one of its codes (DEDUCED, log 92). -/
def execStartupStage (stop : Option Nat) (failed : List Nat) (speed width : Nat) (s : State) : Out :=
  if s.phys.on = false then done s
  else match stop with
    | some c =>
      if (stopCodes s.gen.boot).contains c then done ((if c = 0x8007 then s.tearKey else s).bootCode c) else done s
    | none => done (s.endStage failed speed width)

end Sys2Proof.Machine
end

