-- ==== Sys2Proof/Machine/RegRead.lean ====
section
/-!
DEFINITION. RegRead.lean: what the registers of BAR0 read, as 64-bit values at 8-byte aligned offsets, and those of the sideband (09
R275-R277; 10 R297-R299; 14 R402, R404, R436-R438; 15 R442, R443; 16 R493; 17 R522-R524; 18 R534, R540, R541; 19 R560-R562; 20
R586-R588; 22 R613, R614). A register that no block has reads 0.
-/
namespace Sys2Proof.Machine

/-- Bit `i` of the value is `f i`, for the first `n` bits. -/
def flags (n : Nat) (f : Nat → Bool) : Nat := (List.range n).foldl (fun x i => x + b2n (f i) * 2 ^ i) 0

/-- Fields of `w` bits from the values `f 0` … `f (n - 1)`. -/
def packFields (n w : Nat) (f : Nat → Nat) : Nat := (List.range n).foldl (fun x i => x + f i % 2 ^ w * 2 ^ (w * i)) 0

/-- GEN_STATUS (15 R443). -/
def State.genStatus (s : State) : Nat :=
  let g := s.gen
  b2n g.eclosed + 2 * b2n g.storageReady + 4 * g.pl + 16 * g.slot + 32 * b2n g.restarting + 64 * g.layout +
    256 * b2n g.selfTest.isSome + 512 * b2n g.staged + 2 ^ 16 * g.boot

/-- The GEN block (15 R442; 14 R404). -/
def State.readGen (s : State) (o : Nat) : Nat :=
  match o with
  | 0x000 => Config.pciId % 2 ^ 32
  | 0x008 => s.gen.version % 2 ^ 32 + 2 ^ 32 * Config.stepping.val
  | 0x010 => s.genStatus
  | 0x018 => s.time
  | 0x020 => s.gen.moduleId
  | 0x028 => s.gen.features.fenced % 2 ^ 64
  | 0x030 => s.gen.features.fenced / 2 ^ 64 % 2 ^ 32
  | 0x100 => s.gen.aqSqBase
  | 0x108 => s.gen.aqCqBase
  | 0x110 => s.gen.aqAttr
  | _ => 0

/-- PWR_STATE (19 R561). -/
def State.pwrState (s : State) : Nat :=
  let p := s.pwr
  let target := match p.entering with | some e => e.target | none => 0
  p.ps + 4 * b2n p.entering.isSome + 8 * b2n p.exiting + 16 * target + 64 * b2n s.pci.d3hot +
    2 ^ 16 * packFields 4 2 s.op + 2 ^ 24 * flags 4 fun d => p.gated.getD d false

/-- PWR_INPUT, and SB_INPUT (19 R560). -/
def Pwr.input (p : Pwr) : Nat := p.vin % 2 ^ 16 + 2 ^ 16 * (p.power % 2 ^ 16)

/-- PWR_TEMP, and SB_TEMP: signed °C. -/
def Pwr.temps (p : Pwr) : Nat := packFields 5 8 fun d => unsigned 8 (p.temp.getD d 0)

/-- PWR_PSn_TIME: the present stay counts too. -/
def State.psTimeOf (s : State) (n : Nat) : Nat :=
  sat64 (s.pwr.psTime.getD n 0 + if s.pwr.ps = n then s.time - s.pwr.since else 0)

/-- The PWR block (19 R560-R562). -/
def State.readPwr (s : State) (o : Nat) : Nat :=
  let p := s.pwr
  match o with
  | 0x000 => 0x44
  | 0x008 => s.pwrState
  | 0x010 => b2n p.holdPs1 + 2 * b2n p.holdPs2 + 4 * b2n p.holdPs3
  | 0x018 => p.limit
  | 0x020 => p.evt
  | 0x028 => p.evtEn
  | 0x030 => p.input
  | 0x038 => packFields 4 16 fun d => p.vcore.getD d 0
  | 0x040 => p.temps
  | 0x048 => packFields 4 16 fun d => if s.dark d then 0 else p.rate.getD d 0
  | 0x050 => p.abandons
  | 0x058 => p.lastExit
  | _ => if 0x60 ≤ o ∧ o < 0x80 then s.psTimeOf ((o - 0x60) / 8)
    else if 0x80 ≤ o ∧ o < 0xA0 then p.psEntries.getD ((o - 0x80) / 8) 0 else 0

/-- EVC_SRCs (18 R541). -/
def State.srcWord (s : State) (n : Nat) : Nat :=
  let x := s.src n
  x.priority + 2 ^ 8 * b2n x.hostEn + 2 ^ 9 * b2n x.mask + 2 ^ 10 * b2n x.autoRearm + 2 ^ 16 * x.vector +
    2 ^ 25 * s.mgmtRoute n

/-- EVC_Pp_FLAGS (18 R541). -/
def PartFlags.word (f : PartFlags) : Nat := b2n f.jobEnd + 2 * b2n f.jobFault + 4 * b2n f.seqDrop + 256 * f.job

/-- EVC_WATCHw_CTRL (18 R541). -/
def Watch.word (w : Watch) : Nat := b2n w.en + 2 * b2n w.mode + 4 * b2n w.hit + 256 * w.cell

/-- The EVC block (18 R540, R541). -/
def State.readEvc (s : State) (o : Nat) : Nat :=
  let e := s.evc
  if o < 0x100 then
    match o with
    | 0x000 => 0x20200200
    | 0x008 => b2n e.gdis + 256 * e.prigrp
    | 0x018 => e.flashUncorr + 256 * e.flashLost
    | 0x020 => e.flashEn
    | _ => if 0x40 ≤ o ∧ o < 0x80 then flags 64 fun i => s.level (8 * (o - 0x40) + i)
      else if 0x80 ≤ o ∧ o < 0xC0 then flags 64 fun i => s.pendingSrc (8 * (o - 0x80) + i)
      else if 0xC0 ≤ o then flags 64 fun i => e.active.contains (8 * (o - 0xC0) + i) else 0
  else if o < 0x140 then
    let f := e.part.getD ((o - 0x100) / 16) {}
    if o % 16 = 0 then f.word else f.en
  else if 0x200 ≤ o ∧ o < 0x400 then flags 64 fun i => e.ring.contains (8 * (o - 0x200) + i)
  else if 0x400 ≤ o ∧ o < 0x600 then
    let w := e.watches.getD ((o - 0x400) / 16) {}
    if o % 16 = 0 then w.word else w.thresh
  else if o = 0x600 then b2n e.wakePcie + 2 * b2n e.wakeSideband + 4 * b2n e.wakeHost
  else if o = 0x608 then e.antCause + 2 ^ 16 * e.antSrc
  else if 0x700 ≤ o ∧ o < 0x800 then
    let w := e.antWatch.getD ((o - 0x700) / 8) {}
    w.src + 2 ^ 15 * b2n w.en
  else if 0x800 ≤ o ∧ o < 0x1000 then s.srcWord ((o - 0x800) / 4) + 2 ^ 32 * s.srcWord ((o - 0x800) / 4 + 1)
  else 0

/-- The ECC and SCB block (10 R297-R299). -/
def State.readEcc (s : State) (o : Nat) : Nat :=
  let e := s.ecc
  match o with
  | 0x000 => 0x404
  | 0x008 => b2n e.ceWb
  | 0x010 => e.evt
  | 0x018 => e.evtEn
  | 0x080 => e.narrow
  | 0x088 => e.narrowLost
  | 0x090 => e.lastUe
  | 0x0A0 => e.testCtrl
  | 0x0A8 => e.testTarget
  | 0x0B8 => e.testResult
  | 0x100 => b2n e.scbEn
  | 0x108 => e.scbRate
  | 0x110 => match e.scbAt with | some (tier, a) => Config.frame tier a % 2 ^ 32 + 2 ^ 32 * tier | none => 0
  | 0x118 => e.scbPasses
  | 0x120 => e.scbCe
  | 0x128 => e.scbUe
  | _ => if 0x20 ≤ o ∧ o < 0x50 then e.ce.getD ((o - 0x20) / 8) 0 else if 0x50 ≤ o ∧ o < 0x80 then e.ue.getD ((o - 0x50) / 8) 0
    else 0

/-- FLT_STATUS (20 R587). -/
def State.fltStatus (s : State) : Nat :=
  let f := s.flt
  flags 4 s.faulted + 16 * b2n f.resetReq + 32 * b2n f.hubHold + 64 * b2n f.holdupFail + 256 * f.mgmtUp + 2 ^ 16 * f.resetCause

/-- The channel with the fewest free spares, and their number (20 R586). -/
def State.sparesMin (s : State) : Nat :=
  let best := (List.range 96).foldl (fun (m : Nat × Nat) ch => let k := s.freeSpares ch; if k < m.1 then (k, ch) else m)
    (s.freeSpares 0, 0)
  best.1 + 2 ^ 16 * best.2

/-- The FLT block (20 R586-R588). -/
def State.readFlt (s : State) (o : Nat) : Nat :=
  let f := s.flt
  match o with
  | 0x000 => 0x70C
  | 0x008 => b2n f.autoReset + 2 * b2n f.flagFirst
  | 0x010 => s.fltStatus
  | 0x018 => f.evt
  | 0x020 => f.evtEn
  | 0x028 => f.coreFlags % 2 ^ 64
  | 0x030 => f.coreFlags / 2 ^ 64
  | 0x038 => match f.records.getLast? with | some r => r.number + 2 ^ 32 * r.info.status | none => 0
  | 0x040 => f.written
  | 0x048 => f.confineMax
  | 0x058 => Sparse.get 0 s.life.counters 0
  | 0x060 => s.powered
  | 0x068 => s.sparesMin
  | 0x070 => (s.fl.zones.filter fun (z : Nat × Zone) => z.2.worn).length
  | 0x078 => s.life.lastSave
  | _ => if 0x80 ≤ o ∧ o < 0xA0 then f.faults.getD ((o - 0x80) / 8) 0
    else if 0xA8 ≤ o ∧ o < 0xE0 then Sparse.get 0 s.life.counters (5 + (o - 0xA0) / 8) else 0

/-- STATE of WLK_Pp_STATUS (17 R523). -/
def PortState.code : PortState → Nat
  | .disabled => 0 | .down => 1 | .training => 2 | .up => 3 | .retrain => 4 | .conflict => 5

/-- WLK_Pp_STATUS (17 R523). -/
def Port.status (t : Port) : Nat :=
  t.state.code + 16 * (if t.state = .up then t.width else 0) + 256 * t.lanesOk + 2 ^ 32 * t.peer + 2 ^ 48 * b2n t.peerValid

/-- The registers of a port (17 R522). -/
def Port.read (t : Port) (i : Nat) : Nat :=
  match i with
  | 0 => t.status
  | 1 => b2n t.auto + 2 * b2n t.disable + 16 * t.maxWidth
  | 2 => t.retry
  | 3 => t.retrains
  | 4 => t.crc
  | 5 => t.txFlits
  | 6 => t.rxFlits
  | _ => t.losses

/-- A route entry as WLK_RT_DATA shows it (17 R522). -/
def State.routeWord (s : State) (i : Nat) : Nat := let r := Sparse.get ({} : Route) s.wlk.routes i; r.port + 4 * b2n r.valid

/-- The WLK block (17 R522-R524; DEDUCED, log 79). -/
def State.readWlk (s : State) (o : Nat) : Nat :=
  let w := s.wlk
  if o < 0x100 then
    match o with
    | 0x000 => 0x202044
    | 0x008 => 2 * b2n w.fwdEn
    | 0x010 => w.timeoutUs
    | 0x018 => w.evt
    | 0x020 => w.evtEn
    | 0x028 => w.rtIndex + 2 ^ 16 * b2n w.rtAuto
    | 0x030 => s.routeWord w.rtIndex
    | 0x038 => w.undeliv
    | 0x040 => w.refused
    | 0x048 => w.lastNotice
    | 0x050 => w.fwdFlits
    | _ => 0
  else if o < 0x200 then (s.port ((o - 0x100) / 64)).read (o % 64 / 8)
  else if 0x400 ≤ o ∧ o < 0x800 then
    let a := w.apertures.getD ((o - 0x400) / 32) {}
    match o % 32 / 8 with
    | 0 => a.localBase
    | 1 => a.remoteBase + 2 ^ 48 * a.module
    | 2 => b2n a.en + 2 * a.cls + 2 ^ 32 * a.pages
    | _ => 0
  else if 0x800 ≤ o ∧ o < 0xC00 then
    let e := w.exports.getD ((o - 0x800) / 32) {}
    match o % 32 / 8 with
    | 0 => e.base
    | 1 => e.src
    | 2 => b2n e.en + 2 * b2n e.read + 4 * b2n e.write + 8 * b2n e.any + 2 ^ 32 * e.pages
    | _ => 0
  else 0

/-- MIG_Pp_STATUS (09 R277). -/
def State.migStatus (s : State) (p : Nat) : Nat :=
  let wait := 2 ^ 11 * b2n (s.mig.stagingWait.getD p false)
  let back := 2 ^ 10 * b2n (s.jobs.parts.getD p {}).writeback
  match s.run p with
  | some r => r.number + 2 ^ 8 + 2 ^ 9 * b2n r.shadow + back + wait
  | none => s.mig.lastJob.getD p 0 + back + wait

/-- The registers of a partition in the MIG block (09 R275). -/
def State.readMigPart (s : State) (p i : Nat) : Nat :=
  let m := s.mig
  match i with
  | 0 => s.migStatus p
  | 1 => match s.run p with | some r => r.current.getD 0 + 2 ^ 32 * r.step | none => 0
  | 2 => m.lead.getD p 0
  | 3 => m.miss.getD p 0
  | 4 => m.shadow.getD p 0
  | 5 => m.kvFree.getD p 0
  | 6 => m.evFree.getD p 0
  | _ => match s.run p with | some r => r.staging.length | none => 0

/-- The MIG block (09 R275-R277). -/
def State.readMig (s : State) (o : Nat) : Nat :=
  let m := s.mig
  match o with
  | 0x000 => 0x100F
  | 0x008 => m.bar2Base
  | 0x010 => s.boardFree
  | 0x040 => m.evt
  | 0x048 => m.evtEn
  | 0x050 => m.bar2Drop
  | 0x058 => m.copied
  | 0x060 => m.arbWeight
  | _ => if 0x20 ≤ o ∧ o < 0x40 then s.dieFree ((o - 0x20) / 8)
    else if 0x100 ≤ o ∧ o < 0x200 then s.readMigPart ((o - 0x100) / 64) (o % 64 / 8) else 0

/-- QST_STATUSq and QST_CTRLq (14 R438). -/
def State.readQst (s : State) (qid : Nat) (ctrl : Bool) : Nat :=
  match s.queue qid with
  | none => if ctrl then s.idleMask qid else 0
  | some q =>
    if ctrl then q.freezeMask
    else
      let waits := match s.q.cmds.find? fun c => c.qid == qid && !c.begun with | some c => s.lockWaits c | none => false
      1 + 2 * b2n q.frozen + 4 * b2n q.drained + 8 * b2n waits + 2 ^ 16 * q.sqHead + 2 ^ 32 * q.failIndex + 2 ^ 48 * q.failLog

/-- The MSI-X table, 16 bytes an entry (14 R402). -/
def State.readMsix (s : State) (o : Nat) : Nat :=
  let e := s.msixEntry (o / 16)
  if o % 16 = 0 then e.addr else e.data + 2 ^ 32 * b2n e.mask

/-- The DIAG block: data buffer, check buffer (10). -/
def State.readDiag (s : State) (o : Nat) : Nat :=
  if o < 0x10000 then leNat (Sparse.getList 0 s.ecc.testData o 8)
  else if o < 0x12000 then leNat (Sparse.getList 0 s.ecc.testCheck (o - 0x10000) 8) else 0

/-- The 64-bit register at BAR0 offset `o`, a multiple of 8 (14 R402; DESIGN CHOICE, log 97). -/
def State.bar0 (s : State) (o : Nat) : Nat :=
  if o < 0x1000 then s.readGen o
  else if o < 0x2000 then s.readPwr (o - 0x1000)
  else if o < 0x3000 then s.readEvc (o - 0x2000)
  else if o < 0x4000 then s.readEcc (o - 0x3000)
  else if o < 0x5000 then s.readFlt (o - 0x4000)
  else if o < 0x6000 then s.readWlk (o - 0x5000)
  else if o < 0x7000 then s.readMig (o - 0x6000)
  else if o < 0x8000 then 0
  else if o < 0x9000 then Sparse.get 0 s.q.doorbells ((o - 0x8000) / 8)
  else if o < 0xA000 then s.readQst ((o - 0x9000) / 16) (o % 16 == 8)
  else if o < 0xC000 then s.readMsix (o - 0xA000)
  else if o < 0xC040 then flags 64 fun i => s.msix.pba.contains (8 * (o - 0xC000) + i)
  else if o < 0x10000 then 0
  else if o < 0x18000 then s.cell ((o - 0x10000) / 8)
  else if o < 0x20000 then 0
  else if o < 0x40000 then s.readDiag (o - 0x20000)
  else 0

/-- A read of `n` bytes of BAR0, 1, 2, 4 or 8, aligned: a narrow one gives the addressed bytes of its register (00 R14; 14 R402). -/
def State.bar0Read (s : State) (o n : Nat) : List Byte := ((leBytes 8 (s.bar0 (o / 8 * 8))).drop (o % 8)).take n

/-- The dword at offset `o` of the function's type 0 configuration header: class code 0x120000, header type 0 of one function, BAR0/BAR1
64-bit non-prefetchable, BAR2/BAR3 64-bit prefetchable, neither BAR4/BAR5 nor an expansion ROM, Interrupt Pin 0 (14 R400). -/
def State.configDword (s : State) (o : Nat) : Nat :=
  let rest := Config.pciRest o
  let base := fun i => s.pci.bars.getD i 0
  match o with
  | 0x00 => Config.pciId % 2 ^ 32
  | 0x08 => 0x12000000 + rest % 2 ^ 8
  | 0x0C => rest % 2 ^ 16 + 2 ^ 24 * (rest / 2 ^ 24 % 2 ^ 8)
  | 0x10 => base 0 % 2 ^ 32 + 0x4
  | 0x14 => base 0 / 2 ^ 32
  | 0x18 => base 1 % 2 ^ 32 + 0xC
  | 0x1C => base 1 / 2 ^ 32
  | 0x20 => 0
  | 0x24 => 0
  | 0x30 => 0
  | 0x3C => rest % 2 ^ 8 + 2 ^ 16 * (rest / 2 ^ 16 % 2 ^ 16)
  | _ => rest % 2 ^ 32

/-- PMCSR of the power management capability: the D-state and No_Soft_Reset (19 R557; the places of its bits PRESUMED, log 116). -/
def Pci.pmcsr (p : Pci) : Nat := 3 * b2n p.d3hot + 2 ^ 3 * b2n p.noSoftReset

/-- The sideband registers, little-endian (22 R613, R614); none where the endpoint does not answer. -/
def State.sideband (s : State) (o : Nat) : Option Nat :=
  if s.phys.on = false then none
  else some (match o with
    | 0x00 => 0x72240001 + 2 ^ 8 * Config.stepping.val
    | 0x01 => s.gen.boot + 2 ^ 16 * s.pwr.ps + 2 ^ 18 * s.gen.pl + 2 ^ 20 * b2n s.gen.eclosed + 2 ^ 21 * b2n s.gen.storageReady +
        2 ^ 22 * b2n s.flt.hubHold + 2 ^ 23 * b2n s.flt.resetReq
    | 0x02 => s.pwr.temps
    | 0x03 => s.pwr.input
    | 0x05 => s.phys.sbAlert
    | 0x06 => s.phys.sbAlertEn
    | 0x11 => s.phys.keyId
    | 0x12 => leNat s.phys.keyData
    | 0x13 => b2n s.phys.keyBusy.isSome + 16 * s.phys.keyResult
    | 0x14 =>
      let ids := s.keysInForce.map fun k => k.id
      ids.length + 2 ^ 8 * packFields 8 32 fun i => ids.getD i 0xFFFFFFFF
    | _ => 0)

/-- SMBALERT# (22 R611). -/
def State.smbAlert (s : State) : Bool := s.phys.on && (s.phys.sbAlert &&& s.phys.sbAlertEn) != 0

/-- The FRU store: serial number and part string as IDENTIFY gives them, then the stepping (22 R613); none without 3V3AUX. -/
def State.fru (s : State) : Option (List Byte) :=
  if s.phys.aux then
    some (((List.range 12).flatMap fun i => leBytes 4 (s.identDword (2 + i))) ++ leBytes 1 Config.stepping.val ++ zeros 207)
  else none

end Sys2Proof.Machine
end

