-- ==== Sys2Proof/Machine/Signals.lean ====
section
/-!
DEFINITION. Signals.lean: the signal commands of the host and its writes of signal cells (16 R490-R494; 17 R510, R513).
-/
namespace Sys2Proof.Machine

/-- Cell, and the cell's module where it is another one (16 R490). -/
def Cmd.cell (c : Cmd) : Nat := bits (c.dw 4) 0 12

/-- The command names a cell of another module. -/
def State.sigRemote (s : State) (c : Cmd) : Bool := bit (c.dw 5) 16 && bits (c.dw 5) 0 16 != s.gen.moduleId

/-- A signal command that may not take effect yet: a release waits for the acknowledgements of the host's remote writes (17 R513),
a remote operation for a free tag (17 R503). -/
def State.sigBlocked (s : State) (r : CmdRef) (release : Bool) : Bool :=
  (release && s.bar2Waits) ||
    match s.cmd r with
    | some c => s.sigRemote c && (match s.canLaunch (bits (c.dw 5) 0 16) with | .noTag => true | _ => false)
    | none => false

/-- A remote operation is sent; PEER_UNKNOWN where no route reaches its module (16 R490). -/
def State.sendHostSig (s : State) (c : Cmd) (r : CmdRef) (op : Nat) : State :=
  match s.canLaunch (bits (c.dw 5) 0 16) with
  | .ready tag port => s.sendSig (.hostSig r op) op (bits (c.dw 5) 0 16) c.cell (c.qw 6) tag port
  | .noRoute => s.undeliverable.reply r 0x0801 0
  | .noTag => s

/-- SIG_READ (16 R490, R492). -/
def execSigRead (h : HostCmd) (s : State) : Out :=
  if s.sigBlocked h.ref false then done s
  else withCmd s h.ref 0xA0 fun c s =>
    if s.sigRemote c then s.sendHostSig c h.ref sigRead else (s.watchCell c.cell).ok h.ref (s.cell c.cell)

/-- SIG_SET (16 R490-R492). -/
def execSigSet (h : HostCmd) (s : State) : Out :=
  if s.sigBlocked h.ref true then done s
  else withCmd s h.ref 0xA1 fun c s =>
    if s.sigRemote c then s.sendHostSig c h.ref sigSet
    else
      let old := s.cell c.cell
      ((s.commitCmd h.ref).writeCell c.cell (c.qw 6)).ok h.ref old

/-- SIG_ADD (16 R490-R492). -/
def execSigAdd (h : HostCmd) (s : State) : Out :=
  if s.sigBlocked h.ref true then done s
  else withCmd s h.ref 0xA2 fun c s =>
    if s.sigRemote c then s.sendHostSig c h.ref sigAdd
    else
      let new := (s.cell c.cell + c.qw 6) % 2 ^ 64
      ((s.commitCmd h.ref).writeCell c.cell new).ok h.ref new

/-- SIG_WAIT (16 R490): on a local cell only. -/
def execSigWait (h : HostCmd) (s : State) : Out :=
  withCmd s h.ref 0xA3 fun c s =>
    if bit (c.dw 5) 16 then s.reply h.ref 0x0102 0
    else
      let s := s.watchCell c.cell
      if c.qw 6 ≤ s.cell c.cell then s.ok h.ref (s.cell c.cell)
      else { s with sig := { s.sig with waits := s.sig.waits ++ [⟨h.ref, c.cell, c.qw 6, c.dw 8, s.time⟩] } }

/-- SIG_WAIT_TIMEOUT: TIMEOUT_US of a SIG_WAIT passes (16 R490). -/
def execSigWaitTimeout (qid cid : Nat) (s : State) : Out :=
  match s.sig.waits.find? fun w => w.cmd == ⟨qid, cid⟩ with
  | none => done s
  | some w =>
    if w.timeoutUs = 0 then done s
    else
      let s := { s with
        time := max s.time (w.since + w.timeoutUs * 1000), sig := { s.sig with waits := s.sig.waits.erase w } }
      done (s.reply w.cmd 0x010D (s.cell w.cell))

/-- A host write of a signal cell, or of its upper 32 bits alone, after the acknowledgements of the host's remote writes (16 R494; 17
R513). -/
def State.hostCell (s : State) (n v : Nat) (upper : Bool) : State :=
  let s := s.activity
  if s.bar2Waits then { s with sig := { s.sig with held := s.sig.held ++ [(n, v, upper)] } } else s.storeCell n v upper

/-- SIG_CELL_WRITE (16 R494). -/
def execSigCellWrite (n v : Nat) (s : State) : Out := done (s.hostCell (n % 4096) (v % 2 ^ 64) false)

end Sys2Proof.Machine
end

