-- ==== Sys2Proof/Machine/Registers.lean ====
section
/-!
DEFINITION. Registers.lean: writes of registers: access codes, 32-bit halves, and what each register takes (00 R12-R14; the register
rules that RegRead.lean names). A register whose write is a command of its own with operands of its own (FLT_RESET, ECC_TEST_CMD,
SB_KEY_CMD, a restart of queue 0 by QST_CTRL) ignores the plain write.
-/
namespace Sys2Proof.Machine

/-- The low `w` bits. -/
def low (w v : Nat) : Nat := v % 2 ^ w

/-- A register whose upper 32 bits hold a field that software can write (00 R14). -/
def upperWritable (o : Nat) : Bool :=
  [0x100, 0x108, 0x110, 0x30A8, 0x4028, 0x6008].contains o || decide (0x2200 ≤ o ∧ o < 0x2400) ||
    (decide (0x2400 ≤ o ∧ o < 0x2600) && o % 16 == 8) || decide (0x5400 ≤ o ∧ o < 0x5800) ||
    (decide (0x5800 ≤ o ∧ o < 0x5C00) && o % 32 != 8) || decide (0x10000 ≤ o ∧ o < 0x18000)

/-- The lower half that a write of the upper half alone keeps: the current one, but for RW1C fields (00 R14). -/
def State.lowerHalf (s : State) (o : Nat) : Nat :=
  if (0x2200 ≤ o ∧ o < 0x2400) ∨ o = 0x4028 then 0 else s.bar0 o % 2 ^ 32

/-- A write of the GEN block (14 R404). -/
def State.writeGen (s : State) (o v : Nat) : State :=
  match o with
  | 0x100 => if bit s.gen.aqAttr 32 then s else { s with gen := { s.gen with aqSqBase := v / 4096 * 4096 } }
  | 0x108 => if bit s.gen.aqAttr 32 then s else { s with gen := { s.gen with aqCqBase := v / 4096 * 4096 } }
  | 0x110 => s.writeAqAttr v
  | _ => s

/-- A write of the PWR block (19 R560-R562). -/
def State.writePwr (s : State) (o v : Nat) : State :=
  match o with
  | 0x10 => s.writePwrCtrl v
  | 0x18 => let w := low 12 v; if 300 ≤ w ∧ w ≤ 2400 then { s with pwr := { s.pwr with limit := w } } else s
  | 0x20 => { s with pwr := { s.pwr with evt := clearBits s.pwr.evt v } }
  | 0x28 => { s with pwr := { s.pwr with evtEn := low 10 v } }
  | _ => s

/-- A write of EVC_SRCs (18 R541). -/
def State.writeSrc (s : State) (n v : Nat) : State :=
  let c : SrcCfg := { priority := bits v 0 8, hostEn := bit v 8, mask := bit v 9, autoRearm := bit v 10, vector := bits v 16 9 }
  { s with evc := { s.evc with src := if c = { vector := n } then Sparse.drop s.evc.src n else Sparse.put s.evc.src n c } }

/-- A write of EVC_Pp_FLAGS: flags written 1 are cleared. -/
def PartFlags.clear (f : PartFlags) (v : Nat) : PartFlags :=
  { f with jobEnd := f.jobEnd && !bit v 0, jobFault := f.jobFault && !bit v 1, seqDrop := f.seqDrop && !bit v 2 }

/-- A write of the EVC block but for the EVC_SRC registers (18 R540, R541). -/
def State.writeEvc (s : State) (o v : Nat) : State :=
  let e := s.evc
  if o < 0x100 then
    match o with
    | 0x08 => { s with evc := { e with gdis := bit v 0, prigrp := bits v 8 3 } }
    | 0x10 => s.eoi (low 9 v)
    | 0x18 => { s with evc := { e with
        flashUncorr := clearBits e.flashUncorr (low 6 v), flashLost := clearBits e.flashLost (bits v 8 6) } }
    | 0x20 => { s with evc := { e with flashEn := low 14 v &&& 0x3F3F } }
    | _ => s
  else if o < 0x140 then
    s.partFlags ((o - 0x100) / 16) fun f => if o % 16 = 0 then f.clear v else { f with en := low 3 v }
  else if 0x200 ≤ o ∧ o < 0x400 then
    let first := 8 * (o - 0x200)
    { s with evc := { e with ring := e.ring.filter fun i => !(decide (first ≤ i ∧ i < first + 64) && bit v (i - first)) } }
  else if 0x400 ≤ o ∧ o < 0x600 then
    let w := (o - 0x400) / 16
    if o % 16 = 0 then s.writeWatch w v
    else s.changeWatch w fun x => { x with thresh := v }
  else if o = 0x600 then { s with evc := { e with wakePcie := bit v 0, wakeSideband := bit v 1, wakeHost := bit v 2 } }
  else if 0x700 ≤ o ∧ o < 0x800 then
    { s with evc := { e with antWatch := modifyAt e.antWatch ((o - 0x700) / 8) fun _ => ⟨low 9 v, bit v 15⟩ } }
  else s

/-- A write of ECC_TEST_CTRL: EN takes 1 at PL0 only, and what its clearing does is R296's (10 R296, R299). -/
def State.writeTestCtrl (s : State) (v : Nat) : State :=
  let was := bit s.ecc.testCtrl 0
  let en := bit v 0 && (s.gen.pl == 0 || was)
  let s := { s with ecc := { s.ecc with testCtrl := (v &&& 0x7FF001E) + b2n en } }
  if was && !en then s.testOff else s

/-- A write of the ECC and SCB block (10 R297-R299). -/
def State.writeEcc (s : State) (o v : Nat) : State :=
  match o with
  | 0x008 => { s with ecc := { s.ecc with ceWb := bit v 0 } }
  | 0x010 => { s with ecc := { s.ecc with evt := clearBits s.ecc.evt v } }
  | 0x018 => { s with ecc := { s.ecc with evtEn := low 15 v } }
  | 0x0A0 => s.writeTestCtrl v
  | 0x0A8 => { s with ecc := { s.ecc with testTarget := bits v 0 48 + 2 ^ 56 * bits v 56 7 } }
  | 0x100 => { s with ecc := { s.ecc with scbEn := bit v 0 } }
  | 0x108 => if low 16 v = 0 then s else { s with ecc := { s.ecc with scbRate := low 16 v } }
  | _ => s

/-- A write of the FLT block (20 R586-R588). -/
def State.writeFlt (s : State) (o v : Nat) : State :=
  match o with
  | 0x08 => { s with flt := { s.flt with autoReset := bit v 0, flagFirst := bit v 1 } }
  | 0x18 => { s with flt := { s.flt with evt := clearBits s.flt.evt v } }
  | 0x20 => { s with flt := { s.flt with evtEn := low 9 v } }
  | 0x28 => { s with flt := { s.flt with coreFlags := clearBits s.flt.coreFlags (low 64 v) } }
  | 0x30 => { s with flt := { s.flt with coreFlags := clearBits s.flt.coreFlags (2 ^ 64 * low 32 v) } }
  | _ => s

/-- A write of an aperture's registers (17 R507, R523). -/
def State.writeAperture (s : State) (a i v : Nat) : State :=
  let set := fun (f : Aperture → Aperture) => { s with wlk := { s.wlk with apertures := modifyAt s.wlk.apertures a f } }
  match i with
  | 0 => set fun w => { w with localBase := bits v 21 27 * 2 ^ 21 }
  | 1 => set fun w => { w with remoteBase := bits v 21 27 * 2 ^ 21, module := bits v 48 16 }
  | 2 => s.writeApCtrl a v
  | _ => s

/-- A write of an export's registers (17 R508, R523). -/
def State.writeExport (s : State) (e i v : Nat) : State :=
  let set := fun (f : Export → Export) => { s with wlk := { s.wlk with exports := modifyAt s.wlk.exports e f } }
  match i with
  | 0 => set fun w => { w with base := bits v 21 27 * 2 ^ 21 }
  | 1 => set fun w => { w with src := low 16 v }
  | 2 => set fun w => { w with en := bit v 0, read := bit v 1, write := bit v 2, any := bit v 3, pages := bits v 32 25 }
  | _ => s

/-- A write of the WLK block (17 R522-R524). -/
def State.writeWlk (s : State) (o v : Nat) : State :=
  if o < 0x100 then
    match o with
    | 0x08 => { s with wlk := { s.wlk with fwdEn := bit v 1 } }
    | 0x10 =>
      let t := low 16 v
      if 1000 ≤ t ∧ t ≤ 10000 then { s with wlk := { s.wlk with timeoutUs := t } } else s
    | 0x18 => { s with wlk := { s.wlk with evt := clearBits s.wlk.evt v } }
    | 0x20 => { s with wlk := { s.wlk with evtEn := low 12 v } }
    | 0x28 => { s with wlk := { s.wlk with rtIndex := low 16 v, rtAuto := bit v 16 } }
    | 0x30 => s.writeRoute v
    | _ => s
  else if o < 0x200 then (if o % 64 = 8 then s.writePortCtrl ((o - 0x100) / 64) v else s)
  else if 0x400 ≤ o ∧ o < 0x800 then s.writeAperture ((o - 0x400) / 32) (o % 32 / 8) v
  else if 0x800 ≤ o ∧ o < 0xC00 then s.writeExport ((o - 0x800) / 32) (o % 32 / 8) v
  else s

/-- A write of the MIG block (09 R275, R276). -/
def State.writeMig (s : State) (o v : Nat) : State :=
  match o with
  | 0x08 => { s with mig := { s.mig with bar2Base := bits v 36 12 * 2 ^ 36 } }
  | 0x40 => { s with mig := { s.mig with evt := clearBits s.mig.evt v } }
  | 0x48 => { s with mig := { s.mig with evtEn := low 13 v } }
  | _ =>
    if 0x100 ≤ o ∧ o < 0x200 ∧ o % 64 = 0x10 then
      { s with mig := { s.mig with lead := modifyAt s.mig.lead ((o - 0x100) / 64) fun _ => low 5 v } }
    else s

/-- A write of QST_CTRL: of queue 0 with RESTART it is QUEUE0_RESTART's, which reads the packets (14 R429). -/
def State.writeQstPlain (s : State) (qid v : Nat) : State := if qid = 0 ∧ bit v 16 = true then s else s.writeQstCtrl qid v []

/-- A write of a 64-bit register (14 R402). The masks of R12 and R13 are the block's. -/
def State.writeReg (s : State) (o v : Nat) : State :=
  if o < 0x1000 then s.writeGen o v
  else if o < 0x2000 then s.writePwr (o - 0x1000) v
  else if o < 0x3000 then s.writeEvc (o - 0x2000) v
  else if o < 0x4000 then s.writeEcc (o - 0x3000) v
  else if o < 0x5000 then s.writeFlt (o - 0x4000) v
  else if o < 0x6000 then s.writeWlk (o - 0x5000) v
  else if o < 0x7000 then s.writeMig (o - 0x6000) v
  else if o < 0x8000 then s
  else if o < 0x9000 then
    let q := (o - 0x8000) / 16
    if o % 16 = 0 then s.sqDoorbell q v else s.cqDoorbell q v
  else if o < 0xA000 then (if o % 16 = 8 then s.writeQstPlain ((o - 0x9000) / 16) v else s)
  else if 0x10000 ≤ o ∧ o < 0x18000 then s.hostCell ((o - 0x10000) / 8) v false
  else s

/-- A dword of the MSI-X table (14 R402). -/
def State.writeMsixDword (s : State) (o v : Nat) : State :=
  let n := o / 16
  let e := s.msixEntry n
  let e := match o % 16 / 4 with
    | 0 => { e with addr := e.addr / 2 ^ 32 * 2 ^ 32 + v / 4 * 4 }
    | 1 => { e with addr := e.addr % 2 ^ 32 + 2 ^ 32 * v }
    | 2 => { e with data := v }
    | _ => { e with mask := bit v 0 }
  { s with msix := { s.msix with table := Sparse.set {} s.msix.table n e } }

/-- A dword of what is not a 64-bit register: the EVC_SRC registers, the MSI-X table, the DIAG buffers (10; 14 R402; 18 R540). -/
def State.writeDword (s : State) (o v : Nat) : State :=
  if 0x2800 ≤ o ∧ o < 0x3000 then s.writeSrc ((o - 0x2800) / 4) v
  else if 0xA000 ≤ o ∧ o < 0xC000 then s.writeMsixDword (o - 0xA000) v
  else if 0x20000 ≤ o ∧ o < 0x30000 then
    { s with ecc := { s.ecc with testData := Sparse.setList 0 s.ecc.testData (o - 0x20000) (leBytes 4 v) } }
  else if 0x30000 ≤ o ∧ o < 0x32000 then
    { s with ecc := { s.ecc with testCheck := Sparse.setList 0 s.ecc.testCheck (o - 0x30000) (leBytes 4 v) } }
  else s

/-- The offset is that of a dword, or of plain bytes, and not of a 64-bit register. -/
def dwordArea (o : Nat) : Bool :=
  decide ((0x2800 ≤ o ∧ o < 0x3000) ∨ (0xA000 ≤ o ∧ o < 0xC000) ∨ 0x20000 ≤ o)

/-- A write outside the PWR, EVC and MSI-X blocks is activity (19 R553). -/
def quietWrite (o : Nat) : Bool := decide ((0x1000 ≤ o ∧ o < 0x3000) ∨ (0xA000 ≤ o ∧ o < 0x10000))

/-- A write of an upper half with no lower half held: the register keeps its lower half, a signal cell the one that it holds when the write
takes effect (00 R14; 16 R494). -/
def State.writeUpper (s : State) (r v : Nat) : State :=
  if 0x10000 ≤ r ∧ r < 0x18000 then s.hostCell ((r - 0x10000) / 8) (2 ^ 32 * v) true else s.writeReg r (s.lowerHalf r + 2 ^ 32 * v)

/-- The halves of a 64-bit register (00 R14). -/
def State.writeHalf (s : State) (r v : Nat) (upper : Bool) : State :=
  if upperWritable r then
    if upper then
      match Sparse.find s.gen.held r with
      | some low => { s with gen := { s.gen with held := Sparse.drop s.gen.held r } }.writeReg r (low + 2 ^ 32 * v)
      | none => s.writeUpper r v
    else { s with gen := { s.gen with held := Sparse.put s.gen.held r v } }
  else if upper then s else s.writeReg r v

/-- A write of BAR0: aligned, of 4 or 8 bytes; any other is discarded (00 R14; 14 R402). -/
def State.bar0Write (s : State) (o size v : Nat) : State :=
  let s := if quietWrite o then s else s.activity
  if 0x40000 ≤ o ∨ o % size ≠ 0 then s
  else if size = 8 then
    let v := low 64 v
    if dwordArea o then (s.writeDword o (low 32 v)).writeDword (o + 4) (v / 2 ^ 32) else s.writeReg o v
  else if size = 4 then
    let v := low 32 v
    if dwordArea o then s.writeDword o v else s.writeHalf (o / 8 * 8) v (o % 8 == 4)
  else s

/-- What a read of BAR0 does: an access of WLK_RT_DATA adds 1 to INDEX under AUTOINC, and a read of a signal cell is an operation on the cell
(17 R522; 16 R491; 18 R530). -/
def State.bar0Reads (s : State) (o size : Nat) : State :=
  if 0x40000 ≤ o ∨ o % size ≠ 0 then s
  else if o / 8 * 8 = 0x5030 ∧ s.wlk.rtAuto = true then { s with wlk := { s.wlk with rtIndex := (s.wlk.rtIndex + 1) % 65536 } }
  else if 0x10000 ≤ o ∧ o < 0x18000 then s.watchCell ((o - 0x10000) / 8)
  else s

/-- The PEC of SMBus 3.2 over bytes: the CRC with polynomial x^8 + x^2 + x + 1 (22 R611, R613; the polynomial
PRESUMED, log 116). -/
def smbusPec (bs : List Byte) : Nat :=
  bs.foldl (fun c b => (List.range 8).foldl (fun (c : Nat) _ => if 128 ≤ c then (2 * c % 256).xor 7 else 2 * c) (c.xor b.toNat)) 0

/-- The bytes of a Block Write of `size` bytes to a 7-bit address, as its PEC covers them (22 R613). -/
def blockWrite (addr o size v : Nat) : List Byte :=
  [BitVec.ofNat 8 (2 * addr), BitVec.ofNat 8 o, BitVec.ofNat 8 size] ++ leBytes size v

/-- The register endpoint acknowledges a Block Write: it names its address, 0x58 + SB_ADDR, and its PEC is right (22 R613). -/
def State.sbTakes (s : State) (addr pec o size v : Nat) : Bool :=
  s.phys.on && addr == 0x58 + s.phys.sbAddr && pec == smbusPec (blockWrite addr o size v)

/-- A Block Read of `bs` from a 7-bit address: the byte count, the bytes and the PEC (22 R613). -/
def blockRead (addr o : Nat) (bs : List Byte) : List Byte :=
  let body := BitVec.ofNat 8 bs.length :: bs
  body ++ [BitVec.ofNat 8 (smbusPec ([BitVec.ofNat 8 (2 * addr), BitVec.ofNat 8 o, BitVec.ofNat 8 (2 * addr + 1)] ++ body))]

/-- The bytes of a sideband register (22 R614). -/
def sbBytes (o : Nat) : Nat := match o with | 0x02 => 5 | 0x04 => 1 | 0x05 => 1 | 0x06 => 1 | 0x10 => 1 | 0x12 => 96 | 0x13 => 1 | 0x14 => 33 | _ => 4

/-- What answers on the sideband, by its address: the FRU store at 0x50 + SB_ADDR its 256 bytes, the register endpoint at 0x58 + SB_ADDR a
Block Read of a register; none acknowledges another address (22 R613). -/
def State.smbusRead (s : State) (addr o : Nat) : Option (List Byte) :=
  if addr = 0x50 + s.phys.sbAddr then s.fru
  else if addr = 0x58 + s.phys.sbAddr then (s.sideband o).map fun v => blockRead addr o (leBytes (sbBytes o) v)
  else none

/-- The Alert Response Address: the endpoint answers with its own address while it holds SMBALERT# low (22 R611, R613). -/
def State.alertResponse (s : State) : Option Byte := if s.smbAlert then some (BitVec.ofNat 8 (2 * (0x58 + s.phys.sbAddr))) else none

/-- A write of a sideband register; `size` bytes (22 R613, R614). -/
def State.sbWrite (s : State) (o v : Nat) : State :=
  if s.phys.on = false then s
  else match o with
    | 0x04 => if v = 1 then s.sbWake else s
    | 0x05 => { s with phys := { s.phys with sbAlert := clearBits s.phys.sbAlert v } }
    | 0x06 => { s with phys := { s.phys with sbAlertEn := low 6 v } }
    | 0x11 => { s with phys := { s.phys with keyId := low 32 v } }
    | 0x12 => { s with phys := { s.phys with keyData := leBytes 96 v } }
    | _ => s

/-- A write of a dword of BAR0 or BAR2 in the configuration header: the base address takes the bits above the window's size, 256 KiB and
64 GiB (14 R400). -/
def State.writeBar (s : State) (o v : Nat) : State :=
  let set := fun i size (f : Nat → Nat) => { s with pci := { s.pci with bars := modifyAt s.pci.bars i fun b => f b / size * size } }
  match o with
  | 0x10 => set 0 (2 ^ 18) fun b => b / 2 ^ 32 * 2 ^ 32 + low 32 v
  | 0x14 => set 0 (2 ^ 18) fun b => b % 2 ^ 32 + 2 ^ 32 * low 32 v
  | 0x18 => set 1 (2 ^ 36) fun b => b / 2 ^ 32 * 2 ^ 32 + low 32 v
  | 0x1C => set 1 (2 ^ 36) fun b => b % 2 ^ 32 + 2 ^ 32 * low 32 v
  | _ => s

/-- REGISTER_WRITE: a write of `size` bytes at an offset of BAR0 or of the sideband, or of what RegSpace names of configuration space; and
a read of BAR0, for what a read moves, since the table has no row of its own for it (00 R12-R14; 14 R400-R402; 17 R522; 18 R534; 22 R613;
DESIGN CHOICE, log 95; bit 4 of Device Control, PRESUMED, log 116). -/
def execRegisterWrite (space : RegSpace) (o size v : Nat) (s : State) : Out :=
  match space with
  | .bar0 => done (s.bar0Write o size v)
  | .bar0Read => done (s.bar0Reads o size)
  | .sideband addr pec => done (if s.sbTakes addr pec o size v then s.sbWrite o v else s)
  | .config => done { s with msix := { s.msix with enable := bit v 15, fmask := bit v 14 } }
  | .devControl => done { s with pci := { s.pci with enableRo := bit v 4 } }
  | .header => done (s.writeBar o v)
  | .poisoned => done (s.activity.aerLog .posted)

end Sys2Proof.Machine
end

