-- ==== Sys2Proof/Machine/SeqCmds.lean ====
section
/-!
DEFINITION. SeqCmds.lean: SEQ_JOIN, SEQ_FEED, SEQ_LEAVE, SEQ_STEP, SEQ_QUERY and SEQ_POLICY (08 R215-R223; 16 R478-R483).
-/
namespace Sys2Proof.Machine

/-- The generation job that a sequence command acts on: running, a park or an end pending (08 R219). -/
def State.genJob (s : State) (p : Nat) : Option (Run × KvRecord) :=
  match s.run p with
  | none => none
  | some r =>
    if p < s.numParts ∧ r.state = .running then
      match s.bundle r.bundle with
      | some b => if b.kind = 1 then b.kv.map fun kv => (r, kv) else none
      | none => none
    else none

/-- PARTITION of a sequence command (16 R478). -/
def Cmd.seqPart (c : Cmd) : Nat := bits (c.dw 4) 0 2

/-! ## The join record (16 R479, R480) -/

/-- NSEG of a join record. -/
def recSegs (bs : List Byte) : Nat := bits (dwordAt bs 0) 16 5

/-- The reserved fields of the record are zero. -/
def recReserved (bs : List Byte) : Bool :=
  bits (dwordAt bs 0) 1 3 == 0 && bits (dwordAt bs 0) 11 5 == 0 && bits (dwordAt bs 0) 21 11 == 0 &&
    dwordAt bs 1 / 2 ^ 11 == 0 && dwordAt bs 2 / 2 ^ 16 == 0 && bits (dwordAt bs 13) 5 3 == 0 &&
    dwordAt bs 16 / 2 ^ 8 == 0 && (List.range 13).all fun i => dwordAt bs (19 + i) == 0

/-- The sampling fields are in range, and INV_TEMP is finite and positive (08 R219). -/
def recSampling (bs : List Byte) : Bool :=
  let k := bits (dwordAt bs 1) 0 11
  let t := dwordAt bs 3
  let m := dwordAt bs 6
  decide (1 ≤ k ∧ k ≤ 1024) && decide (0 < t ∧ t < 0x7F800000) && decide (1 ≤ m ∧ m ≤ 4194304)

/-- A segment record: its KIND, and the segment where it is well formed (16 R480). The tokens of a kind-0 segment are read with
its buffer. -/
def segOf (bs : List Byte) : Option Seg :=
  let d0 := dwordAt bs 0
  let count := dwordAt bs 1
  let addr := qwordAt bs 2
  let buf := bits d0 4 4
  let hdr := bits d0 8 12
  let off := bits d0 20 12
  if bits d0 2 2 ≠ 0 ∨ 2 ^ 48 ≤ addr then none
  else match bits d0 0 2 with
    | 0 => if 1 ≤ buf ∧ hdr = 0 ∧ off = 0 ∧ count = 0 ∧ addr = 0 then some ⟨0, [], buf, 0, 0, 0⟩ else none
    | 1 => if buf = 0 ∧ hdr = 0 ∧ off = 0 ∧ 1 ≤ count ∧ count ≤ 4194304 ∧ addr % 4 = 0 then some ⟨1, [], addr, count, 0, 0⟩
           else none
    | 2 => if buf = 0 ∧ hdr % 4 = 0 ∧ hdr ≤ 4092 ∧ off % 4 = 0 ∧ off < hdr ∧ 1 ≤ count ∧ count ≤ 65536 ∧ addr % 4096 = 0 then
             some ⟨2, [], addr, count, hdr, off⟩
           else none
    | _ => none

/-- The segments of a record, well formed, no buffer named twice, each kind-0 buffer supplied (16 R480). -/
def segsOf (c : Cmd) (bs : List Byte) : Option (List Seg) :=
  let n := recSegs bs
  if n < 1 ∨ 16 < n then none
  else match (List.range n).mapM fun i => segOf ((bs.drop (128 + 16 * i)).take 16) with
    | none => none
    | some l =>
      let bufs := (l.filter fun g => g.kind == 0).map (·.addr)
      if noDup bufs && bufs.all fun b => decide (4 ≤ c.len b) && c.len b % 4 == 0 then some l else none

/-- The tokens of the kind-0 segments, read at acceptance; none where a read fails (08 R218). -/
def readToks (h : HostCmd) (c : Cmd) : List Seg → Option (List Seg)
  | [] => some []
  | g :: t =>
    let one := if g.kind = 0 then
        match h.buf g.addr with
        | some bs => if bs.length < c.len g.addr then none
          else some { g with toks := tokensOf (bs.take (c.len g.addr)), addr := 0 }
        | none => none
      else some g
    match one, readToks h c t with
    | some g, some t => some (g :: t)
    | _, _ => none

/-- Kind-0 tokens of the segments. -/
def hostToks (l : List Seg) : List Nat := l.flatMap (·.toks)

/-- The fields that a join sets and a feed with UPDATE replaces (16 R479, R481). -/
def SeqEntry.withFields (e : SeqEntry) (bs : List Byte) : SeqEntry :=
  { e with
    keep := bit (dwordAt bs 0) 0, priority := bits (dwordAt bs 0) 4 4, smode := bit (dwordAt bs 0) 8,
    sampleK := bits (dwordAt bs 1) 0 11, topP := bits (dwordAt bs 2) 0 16, invTemp := dwordAt bs 3,
    seed := qwordAt bs 4, maxNew := dwordAt bs 6, stops := [7, 8, 9, 10].map (dwordAt bs) }

/-- A new entry (08 R215, R219). -/
def newEntry (handle arrival : Nat) (bs : List Byte) (segs : List Seg) : SeqEntry :=
  SeqEntry.withFields
    { handle := handle, state := .waiting, keep := false, priority := 0, gated := bit (dwordAt bs 0) 9, leaving := false,
      arrival := arrival, pending := (hostToks segs).length, smode := false, sampleK := 1, topP := 0, invTemp := 0, seed := 0,
      maxNew := 1, stops := [], ringBase := qwordAt bs 11, ringLog2 := bits (dwordAt bs 13) 0 5,
      notify := bits (dwordAt bs 13) 8 24, consumer := qwordAt bs 14, gateBind := bits (dwordAt bs 16) 0 8,
      gateValue := qwordAt bs 17, segs := segs } bs

/-- The partition's arrival counter advances (08 R219; DEDUCED, log 35). -/
def State.nextArrival (s : State) (p : Nat) : State :=
  { s with seqs := { s.seqs with arrival := modifyAt s.seqs.arrival p fun n => (n + 1) % 2 ^ 32 } }

/-- The ring fields and the gate of a join (08 R219). -/
def joinRing (r : Run) (bs : List Byte) : Bool :=
  let log := bits (dwordAt bs 13) 0 5
  qwordAt bs 11 % 64 == 0 && qwordAt bs 14 % 8 == 0 && decide (6 ≤ log ∧ log ≤ 24) &&
    (!bit (dwordAt bs 0) 9 || (r.binding (bits (dwordAt bs 16) 0 8)).isSome)

/-- The checks of R219 from the prompt on: the segments with their tokens go on to `f`. -/
def withPrompt (h : HostCmd) (c : Cmd) (bs : List Byte) (kv : KvRecord) (position : Nat) (s : State) (f : List Seg → State) :
    State :=
  match if recReserved bs && recSampling bs then segsOf c bs else none with
  | none => s.reply h.ref 0x060A 0
  | some l =>
    match readToks h c l with
    | none => s.reply h.ref 0x0106 0
    | some l =>
      if (hostToks l).any fun t => decide (kv.vocab ≤ t) then s.reply h.ref 0x060A 0
      else if kv.contextLimit ≤ position + (hostToks l).length then s.reply h.ref 0x0605 0
      else f l

/-- SEQ_JOIN with its record read (08 R219). -/
def joinSeq (h : HostCmd) (c : Cmd) (bs : List Byte) (s : State) : State :=
  let p := c.seqPart
  match s.genJob p with
  | none => s.reply h.ref 0x0606 0
  | some (r, kv) =>
    let base := p * s.entriesPer
    match lowestFree s.entriesPer fun i => (s.entry (base + i)).isSome with
    | none => s.reply h.ref 0x0601 0
    | some i =>
      let n := base + i
      if (s.seqOf p c.handle).isSome then s.reply h.ref 0x0602 0
      else if joinRing r bs = false then s.reply h.ref 0x0609 0
      else withPrompt h c bs kv 0 s fun segs =>
        let a := s.seqs.arrival.getD p 0
        let s := (s.putEntry n (newEntry c.handle a bs segs)).nextArrival p
        let s := match s.bundle r.bundle with | some b => s.freshPairs p b n | none => s
        (s.callPass p).ok h.ref (n + 2 ^ 32 * a)

/-- A sequence command with a join record: the record's 128 bytes and its segment records are read at acceptance (16 R479). -/
def withRecord (h : HostCmd) (c : Cmd) (s : State) (f : List Byte → State → State) : State :=
  readBuf h c 0 128 s fun bs s => readBuf h c 0 (128 + 16 * recSegs bs) s f

/-- SEQ_JOIN (08 R218, R219; 16 R478-R480). -/
def execSeqJoin (h : HostCmd) (s : State) : Out :=
  findingOut h.found s fun s => withCmd s h.ref 0x68 fun c s => withRecord h c s (joinSeq h c)

/-- SEQ_FEED with its record read (08 R220, R221; 16 R481). -/
def feedSeq (h : HostCmd) (c : Cmd) (bs : List Byte) (s : State) : State :=
  let p := c.seqPart
  match s.genJob p with
  | none => s.reply h.ref 0x0606 0
  | some (_, kv) =>
    match s.seqOf p c.handle with
    | none => s.reply h.ref 0x0603 0
    | some (n, e) =>
      if e.leaving then s.reply h.ref 0x0603 0
      else match e.state with
        | .dropped => s.reply h.ref 0x0608 0
        | .waiting | .running => s.reply h.ref 0x0604 0
        | _ =>
          if bit (dwordAt bs 0) 9 then s.reply h.ref 0x060A 0
          else withPrompt h c bs kv e.position s fun segs =>
            let a := s.seqs.arrival.getD p 0
            let e := if bit (dwordAt bs 0) 10 then e.withFields bs else e
            let s := (s.putEntry n { e with
              state := .waiting, arrival := a, generated := 0, stop := 0, ended := false, reason := 0, segs := segs, toks := [],
              pending := (hostToks segs).length }).nextArrival p
            (s.callPass p).ok h.ref (n + 2 ^ 32 * a)

/-- SEQ_FEED (08 R220; 16 R478-R481). -/
def execSeqFeed (h : HostCmd) (s : State) : Out :=
  withCmd s h.ref 0x69 fun c s => withRecord h c s (feedSeq h c)

/-- SEQ_LEAVE (08 R221): LEAVING is set; the next pass applies it. -/
def execSeqLeave (h : HostCmd) (s : State) : Out :=
  withCmd s h.ref 0x6A fun c s =>
    let p := c.seqPart
    match s.genJob p with
    | none => s.reply h.ref 0x0606 0
    | some _ => match s.seqOf p c.handle with
      | none => s.reply h.ref 0x0603 0
      | some (n, _) =>
        let s := (s.setEntry n fun e => { e with leaving := true }).callPass p
        { s with seqs := { s.seqs with leaves := s.seqs.leaves ++ [⟨h.ref, p, n⟩] } }

/-- SEQ_STEP (16 R482): pending in a host-stepped partition, at once FREE in a free-running one. -/
def execSeqStep (h : HostCmd) (s : State) : Out :=
  withCmd s h.ref 0x6B fun c s =>
    let p := c.seqPart
    match s.genJob p with
    | none => s.reply h.ref 0x0606 0
    | some _ =>
      if (s.seqs.policy.getD p {}).hostStepped then
        { s with seqs := { s.seqs with steps := s.seqs.steps ++ [(h.ref, p)] } }.callPass p
      else (s.callPass p).ok h.ref (2 ^ 32)

/-- The code of a state (08 R215). -/
def SeqState.code : SeqState → Nat
  | .waiting => 1 | .running => 2 | .idle => 3 | .parked => 4 | .dropped => 5

/-- The 128 bytes of an entry (08 R215). -/
def SeqEntry.bytes (e : SeqEntry) : List Byte :=
  leBytes 4 e.handle ++
  leBytes 4 (e.state.code + 2 ^ 3 * b2n e.keep + 2 ^ 4 * e.priority + 2 ^ 8 * e.reason + 2 ^ 12 * b2n (decide (0 < e.pending)) +
    2 ^ 13 * b2n e.gated + 2 ^ 14 * b2n e.leaving) ++
  leBytes 4 e.age ++ leBytes 4 e.arrival ++ leBytes 4 e.position ++ leBytes 4 e.pending ++
  leBytes 8 (match e.root with | some k => kvAddr k | none => 0) ++
  leBytes 4 e.pages ++ leBytes 4 e.seqStep ++
  leBytes 4 (b2n e.smode + 2 * e.sampleK + 2 ^ 16 * e.topP) ++
  leBytes 4 e.invTemp ++ leBytes 8 e.seed ++ leBytes 4 e.maxNew ++ leBytes 4 e.generated ++
  e.stops.flatMap (leBytes 4) ++ leBytes 8 e.ringBase ++ leBytes 4 (e.ringLog2 + 2 ^ 8 * e.notify) ++ leBytes 4 e.produced ++
  leBytes 8 e.consumer ++ leBytes 4 e.gateBind ++ leBytes 8 e.gateValue ++ List.replicate 12 0

/-- Entry `n` as it stood after the last pass, or as it stands where the sequence joined since (16 R483). -/
def State.snapOf (s : State) (n : Nat) (e : SeqEntry) : SeqEntry :=
  match Sparse.find s.seqs.snap n with
  | some x => if x.handle = e.handle then x else e
  | none => e

/-- SEQ_QUERY (16 R478, R483). -/
def execSeqQuery (h : HostCmd) (s : State) : Out :=
  withCmd s h.ref 0x6C fun c s =>
    writeBuf h c 0 128 s fun s =>
      let p := c.seqPart
      match s.genJob p with
      | none => s.reply h.ref 0x0606 0
      | some _ => match s.seqOf p c.handle with
        | none => s.reply h.ref 0x0603 0
        | some (n, e) =>
          let x := s.snapOf n e
          (s.hostData h.ref 0 x.bytes).ok h.ref (x.state.code + 2 ^ 8 * x.reason + 2 ^ 32 * x.position)

/-- SEQ_POLICY (08 R223; 16 R478): the policy applies from the next pass. -/
def execSeqPolicy (h : HostCmd) (s : State) : Out :=
  withCmd s h.ref 0x6D fun c s =>
    let p := c.seqPart
    let m := bits (c.dw 5) 0 11
    let b := bits (c.dw 6) 0 17
    if s.numParts ≤ p then s.reply h.ref 0x0522 0
    else if m < 1 ∨ 1024 < m ∨ b < 1 ∨ 65536 < b then s.reply h.ref 0x0102 0
    else
      let pol : Policy := ⟨m, b, bit (c.dw 7) 0⟩
      ({ s with seqs := { s.seqs with next := modifyAt s.seqs.next p fun _ => some pol } }.callPass p).ok h.ref 0

end Sys2Proof.Machine
end

