-- ==== Sys2Proof/Machine/WyrdOps.lean ====
section
/-!
DEFINITION. WyrdOps.lean: the operations of peers on this module, the answers to this module's own requests, and their time
limits (17 R503-R519; 10 R282, R285; 19 R556).
-/
namespace Sys2Proof.Machine

/-- The message that is next of its class for this module, where it has a class and an operation that the row performs: each
class is performed in order (17 R511). -/
def nextOf (classes : List Nat) (op : Nat) (l : List (Nat × Msg)) : Option (Nat × Msg) :=
  l.find? fun e => classes.contains e.2.cls && e.2.op == op &&
    match l.find? fun (o : Nat × Msg) => o.2.cls == e.2.cls with | some o => o == e | none => false

/-- That message, taken. -/
def State.takeReq (s : State) (classes : List Nat) (op : Nat) : Option (Msg × State) :=
  match nextOf classes op s.wlk.inbox with
  | some e => some (e.2, { s with wlk := { s.wlk with inbox := s.wlk.inbox.erase e } }.owe e.1 e.2)
  | none => none

/-! ## Reads and writes of peers (17 R508, R512) -/

/-- An export admits a request (17 R508). -/
def Export.admits (x : Export) (m : Msg) (write : Bool) : Bool :=
  x.en && (x.any || x.src == m.src) && (if write then x.write else x.read) &&
    decide (x.base ≤ m.addr ∧ m.addr + m.len ≤ x.base + x.pages * pageBytes)

/-- A request of a peer is performed only within an export, on allocated pages of the general window or, to read, on flash-backed
ones, outside index regions (17 R508). -/
def State.admitted (s : State) (m : Msg) (write : Bool) : Bool :=
  let ends := [m.addr, m.addr + m.len - 1]
  decide (1 ≤ m.len) && (s.wlk.exports.any fun x => x.admits m write) &&
    ends.all fun a => (s.allocated a || (!write && s.mapped a && s.served a)) && !s.inRegion a

/-- A request is refused (17 R508). -/
def State.refuse (s : State) (m : Msg) : State :=
  ({ s with wlk := { s.wlk with refused := sat64 (s.wlk.refused + 1) } }.wlkEvt 10).answerStatus m 1

/-- The pieces of up to 256 bytes that answer a READ (17 R503). -/
def answerRead (m : Msg) (found : List Finding) : Nat → Nat → Nat → State → State
  | 0, _, _, s => s
  | k + 1, a, left, s =>
    if left = 0 then s
    else
      let n := min 256 left
      let ((bs, bad), s) := s.devRead a n found
      answerRead m found k (a + n) (left - n) (s.respond (Msg.answer s m 0 0 bad a n bs))

/-- WL_READ: an incoming READ is performed within an export, or refused (17 R508). -/
def execWlRead (found : List Finding) (s : State) : Out :=
  match s.takeReq [2] 0 with
  | none => done s
  | some (m, s) =>
    if m.addr % 64 = 0 ∧ m.len % 64 = 0 ∧ s.admitted m false = true then done (answerRead m found 16 m.addr m.len s)
    else done (s.refuse m)

/-- Granules written poisoned (10 R282; 17 R508). -/
def State.writePoison (s : State) (a n : Nat) : State :=
  (granulesOf a n).foldl (fun s g => (s.dirty (64 * g / pageBytes)).poison g) s

/-- WL_WRITE: an incoming WRITE is performed within an export and acknowledged, or refused (17 R508, R512). -/
def execWlWrite (found : List Finding) (s : State) : Out :=
  match s.takeReq [2, 4, 5] 1 with
  | none => done s
  | some (m, s) =>
    if m.addr % 4 = 0 ∧ m.addr / 256 = (m.addr + m.len - 1) / 256 ∧ m.payload.length = m.len ∧ s.admitted m true = true then
      let s := if m.poison then s.writePoison m.addr m.len else s.devWrite m.addr m.payload found
      done (s.respond (Msg.answer s m 1 0 false m.addr m.len []))
    else done (s.refuse m)

/-! ## Signal operations of peers (17 R510) -/

/-- The cell and the value that a signal message carries. -/
def sigCell (m : Msg) : Nat := bits m.addr 0 12
def sigOperand (m : Msg) : Nat := leNat (m.payload.take 8)

/-- SIG_DATA with a value. -/
def State.sigAnswer (s : State) (m : Msg) (v : Nat) : State := s.respond (Msg.answer s m 2 0 false m.addr 8 (leBytes 8 v))

/-- WL_SIG_READ. -/
def execWlSigRead (s : State) : Out :=
  match s.takeReq [3] 0 with
  | none => done s
  | some (m, s) => done ((s.watchCell (sigCell m)).sigAnswer m (s.cell (sigCell m)))

/-- WL_SIG_SET: it answers with the value before the set (16 R490). -/
def execWlSigSet (s : State) : Out :=
  match s.takeReq [3] 1 with
  | none => done s
  | some (m, s) =>
    let old := s.cell (sigCell m)
    done ((s.writeCell (sigCell m) (sigOperand m)).sigAnswer m old)

/-- WL_SIG_ADD: it answers with the value after the add (16 R490). -/
def execWlSigAdd (s : State) : Out :=
  match s.takeReq [3] 2 with
  | none => done s
  | some (m, s) =>
    let new := (s.cell (sigCell m) + sigOperand m) % 2 ^ 64
    done ((s.writeCell (sigCell m) new).sigAnswer m new)

/-- The wait that a message asks for is held already: it was sent again (17 R510; DEDUCED, log 80). -/
def State.holdsWait (s : State) (m : Msg) : Bool :=
  s.wlk.waits.any fun w => w.src == m.src && w.tag == m.tag && w.cell == sigCell m && w.threshold == sigOperand m

/-- WL_SIG_WAIT: answered where the threshold is met, held in one of 1,024 watch entries, or PENDING where none is free. -/
def execWlSigWait (s : State) : Out :=
  match s.takeReq [3] 3 with
  | none => done s
  | some (m, s) =>
    let s := s.watchCell (sigCell m)
    if sigOperand m ≤ s.cell (sigCell m) then done (s.sigAnswer m (s.cell (sigCell m)))
    else if s.holdsWait m then done s
    else if s.wlk.waits.length < 1024 then
      done { s with wlk := { s.wlk with waits := s.wlk.waits ++ [⟨m.src, m.tag, sigCell m, sigOperand m, s.time⟩] } }
    else done (s.answerStatus m 3)

/-! ## Answers to the module's own requests (17 R509, R510) -/

/-- The oldest answer of an operation, taken, with the request that it answers. -/
def State.takeAnswer (s : State) (op : Nat) : Option (Msg × Option Request × State) :=
  match s.wlk.inbox.find? fun (e : Nat × Msg) => e.2.cls == 1 && e.2.op == op with
  | some e =>
    let s := { s with wlk := { s.wlk with inbox := s.wlk.inbox.erase e } }.owe e.1 e.2
    some (e.2, s.wlk.requests.find? fun r => r.tag == e.2.tag && r.sent, s)
  | none => none

/-- A request changed. -/
def State.setRequest (s : State) (tag : Nat) (f : Request → Request) : State :=
  { s with wlk := { s.wlk with requests := mapIf (fun r => r.tag == tag) f s.wlk.requests } }

/-- A DMA's request is answered. -/
def State.dmaAnswered (s : State) (n tag : Nat) : State :=
  s.setCore n fun c => { c with dma := c.dma.map fun d => { d with tags := d.tags.filter fun t => t.1 != tag } }

/-- A refused access of a core's DMA: its job faults with reason DEVICE_ADDRESS, at the address in the aperture (06 R172; 17 R509). -/
def State.dmaRefused (s : State) (n tag : Nat) : State :=
  match (s.core n).dma.find? fun d => d.tags.any fun t => t.1 == tag with
  | some d =>
    let addr := ((d.tags.find? fun t => t.1 == tag).map (·.2.2)).getD 0
    (s.dmaAnswered n tag).programFault n reasonDevice 0 addr .device d.instr d.pc
  | none => s

/-- Where a tag's bytes go in the scratchpad of core `n`. -/
def State.tagOffset (s : State) (n tag : Nat) : Option Nat :=
  ((s.core n).dma.findSome? fun d => (d.tags.find? fun t => t.1 == tag).map (·.2.1))

/-- Bytes of a READ arrive for the DMA that holds a tag, poisoned granules among them (10 R282; 17 R509): they wait until it completes. -/
def State.dmaBytes (s : State) (n tag sp : Nat) (bs : List Byte) (poison : Bool) : State :=
  let grans := (List.range (bs.length / 64)).map fun i => (sp + 64 * i, (bs.drop (64 * i)).take 64, poison)
  s.setCore n fun c => { c with
    dma := mapIf (fun d => d.tags.any fun t => t.1 == tag) (fun d => { d with got := d.got ++ grans }) c.dma }

/-- An answer that brings no data and ends no request: PENDING restarts the timeout (17 R510, R519). -/
def State.pendingAnswer (s : State) (r : Request) : State := s.setRequest r.tag fun r => { r with since := s.time, resend := true }

/-- A module's outcome with free tags: what waited for one is sent (17 R503). -/
def doneTags (s : State) : Out := done s.tagsFreed

/-- The granule of a BAR2 write has been read, unpoisoned: the whole dwords that the write covers are sent (17 R503; DESIGN CHOICE, log 128).
The request keeps its tag. -/
def State.mergeWrite (s : State) (r : Request) (access : Nat) (counted : Bool) (cls off : Nat) (bs got : List Byte) : State :=
  let lo := off / 4 * 4
  let hi := ceilDiv (off + bs.length) 4 * 4
  let data := ((got.take off ++ bs ++ got.drop (off + bs.length)).take hi).drop lo
  let s := s.dropRequest r.tag
  match s.exitPort r.msg.dst with
  | some p => s.launch (.bar2Write access counted) (s.mkReq cls 1 r.tag r.msg.dst (r.msg.addr + lo) (hi - lo) false data) p
  | none => s.undeliverable.bar2Lost access counted

/-- READ_DATA: a piece of read data arrives at its requester (17 R503, R509). -/
def execReadData (s : State) : Out :=
  match s.takeAnswer 0 with
  | none => done s
  | some (_, none, s) => done s
  | some (m, some r, s) =>
    match m.rstatus with
    | 0 =>
      let got := r.got ++ m.payload
      let bad := r.poisoned || m.poison
      let s := match r.by_ with
        | .coreDma n => match s.tagOffset n r.tag with
          | some sp => s.dmaBytes n r.tag (sp + r.got.length) m.payload m.poison
          | none => s
        | _ => s
      if got.length < r.msg.len then done (s.setRequest r.tag fun r => { r with got := got, poisoned := bad })
      else match r.by_ with
        | .coreDma n => doneTags ((s.endRequest r.tag).dmaAnswered n r.tag)
        | .bar2Read => doneTags ((s.endRequest r.tag).bar2Part r.tag got bad false)
        | .bar2Merge a c k o bs => if bad then doneTags (s.endRequest r.tag) else doneTags (s.mergeWrite r a c k o bs got)
        | _ => doneTags (s.endRequest r.tag)
    | 1 =>
      let s := s.endRequest r.tag
      match r.by_ with
      | .coreDma n => doneTags (s.dmaRefused n r.tag)
      | .bar2Read => doneTags (s.bar2Part r.tag (List.replicate r.msg.len 0xFF) false true)
      | .bar2Merge a c _ _ _ => doneTags (s.bar2Lost a c)
      | _ => doneTags s
    | 3 => done (s.pendingAnswer r)
    | _ => doneTags (s.failRequest r)

/-- WRITE_ACK: a remote write is performed, refused, or has failed (17 R509, R512). -/
def execWriteAck (s : State) : Out :=
  match s.takeAnswer 1 with
  | none => done s
  | some (_, none, s) => done s
  | some (m, some r, s) =>
    match m.rstatus with
    | 0 =>
      let s := s.endRequest r.tag
      match r.by_ with
      | .coreDma n => doneTags (s.dmaAnswered n r.tag)
      | _ => doneTags s
    | 1 =>
      let s := s.endRequest r.tag
      match r.by_ with
      | .coreDma n => doneTags (s.dmaRefused n r.tag)
      | .bar2Write a c => doneTags (s.bar2Lost a c)
      | _ => doneTags s
    | 3 => done (s.pendingAnswer r)
    | _ => doneTags (s.failRequest r)

/-- A gate read of the step builder of partition `p` is answered (01 R29; 17 R510). -/
def State.gateAnswered (s : State) (p tag v : Nat) : State :=
  s.setRun p fun r => { r with gates := mapIf (fun g => g.tag == some tag) (fun g => { g with tag := none, value := some v }) r.gates }

/-- SIG_DATA: a signal operation of a core or of the host completes (06 R174, R175; 16 R490; 17 R510; DEDUCED, log 80). -/
def execSigData (s : State) : Out :=
  match s.takeAnswer 2 with
  | none => done s
  | some (_, none, s) => done s
  | some (m, some r, s) =>
    match m.rstatus with
    | 0 =>
      let s := s.endRequest r.tag
      match r.by_ with
      | .coreAdd n =>
        doneTags ((s.setCore n fun c => { c with adds := c.adds.filter fun a => a.tag != some r.tag }).signals n)
      | .coreWait n => doneTags ((s.setCore n fun c => { c with wait := none }).wake 1)
      | .gate p => doneTags (s.gateAnswered p r.tag (leNat (m.payload.take 8)))
      | .hostSig c _ => doneTags (s.ok c (leNat (m.payload.take 8)))
      | _ => doneTags s
    | 3 => done (s.pendingAnswer r)
    | _ => doneTags (s.failRequest r)

/-! ## Time limits (17 R510, R519; 19 R556) -/

/-- REQUEST_TIMEOUT: WLK_REQ_TIMEOUT passes without a response to the request with a tag (17 R519). -/
def execRequestTimeout (tag : Nat) (s : State) : Out :=
  match s.request tag with
  | none => done s
  | some r =>
    if r.sent = false then done s
    else doneTags ({ s with time := max s.time (r.since + s.wlk.timeoutUs * 1000) }.failRequest r)

/-- PENDING to the source of a held wait (17 R510). -/
def State.renew (s : State) (w : HeldWait) : State :=
  s.respond { cls := 1, op := 2, poison := false, tag := w.tag, src := s.gen.moduleId, dst := w.src, addr := w.cell, len := 0,
              rstatus := 3, payload := [] }

/-- WATCH_RENEW: every held remote wait, and every request held in PS2, is answered PENDING (17 R510; 19 R556). -/
def execWatchRenew (s : State) : Out :=
  let s := s.wlk.waits.foldl State.renew s
  done (s.wlk.held.foldl (fun s e => s.answerStatus e.2 3) s)

/-- WATCH_RESEND: the wait of a core that was answered PENDING for lack of watch entries is sent again, on the route as it stands (17 R506,
R510). -/
def execWatchResend (tag : Nat) (s : State) : Out :=
  match s.request tag with
  | none => done s
  | some r =>
    match r.by_ with
    | .coreWait _ =>
      if r.sent ∧ r.resend = true then
        let s := s.dropRequest tag
        let s := releaseHeld s.wlk.requests.length s
        match s.exitPort r.msg.dst with
        | some p => done (s.launch r.by_ r.msg p)
        | none => doneTags (s.undeliverable.failEffects r 0x0801)
      else done s
    | _ => done s

end Sys2Proof.Machine
end

