-- ==== Sys2Proof/Machine/Dispatch.lean ====
section
/-!
DEFINITION. Dispatch.lean: one arm per command, each one call of its meaning.
-/
namespace Sys2Proof.Machine

/-- The effect of a command on everything but the queue. -/
def exec (i : Instr) (s : State) : Host.Outcome State Fault Refusal :=
  match i with
  | .nop n w => Sys2Proof.Machine.execNop n w s
  | .loop n w => Sys2Proof.Machine.execLoop n w s
  | .addx n w => Sys2Proof.Machine.execAddx n w s
  | .mulx n w => Sys2Proof.Machine.execMulx n w s
  | .test n w found => Sys2Proof.Machine.execTest n w found s
  | .jump n w => Sys2Proof.Machine.execJump n w s
  | .fence n w => Sys2Proof.Machine.execFence n w s
  | .stepEnd n w => Sys2Proof.Machine.execStepEnd n w s
  | .halt n w => Sys2Proof.Machine.execHalt n w s
  | .trap n w => Sys2Proof.Machine.execTrap n w s
  | .stream n w => Sys2Proof.Machine.execStream n w s
  | .table n w => Sys2Proof.Machine.execTable n w s
  | .pass n w found => Sys2Proof.Machine.execPass n w found s
  | .drain n w found => Sys2Proof.Machine.execDrain n w found s
  | .redOpen n w found => Sys2Proof.Machine.execRedOpen n w found s
  | .redFeed n w found => Sys2Proof.Machine.execRedFeed n w found s
  | .redFinish n w => Sys2Proof.Machine.execRedFinish n w s
  | .redStore n w => Sys2Proof.Machine.execRedStore n w s
  | .topkOpen n w found => Sys2Proof.Machine.execTopkOpen n w found s
  | .topkFeed n w found => Sys2Proof.Machine.execTopkFeed n w found s
  | .topkMerge n w found => Sys2Proof.Machine.execTopkMerge n w found s
  | .topkStore n w => Sys2Proof.Machine.execTopkStore n w s
  | .dmaIn n w found => Sys2Proof.Machine.execDmaIn n w found s
  | .dmaOut n w found => Sys2Proof.Machine.execDmaOut n w found s
  | .dmaGather n w found => Sys2Proof.Machine.execDmaGather n w found s
  | .dmaScatter n w found => Sys2Proof.Machine.execDmaScatter n w found s
  | .dmaZone n w found => Sys2Proof.Machine.execDmaZone n w found s
  | .dmaComplete n found => Sys2Proof.Machine.execDmaComplete n found s
  | .coreSigWait n w => Sys2Proof.Machine.execCoreSigWait n w s
  | .coreSigWaitComplete n => Sys2Proof.Machine.execCoreSigWaitComplete n s
  | .coreSigAdd n w => Sys2Proof.Machine.execCoreSigAdd n w s
  | .pfHintStage n w => Sys2Proof.Machine.execPfHintStage n w s
  | .pfHintDone n w => Sys2Proof.Machine.execPfHintDone n w s
  | .layerMark n w => Sys2Proof.Machine.execLayerMark n w s
  | .pageCopyDone page found => Sys2Proof.Machine.execPageCopyDone page found s
  | .tileComplete n upsets => Sys2Proof.Machine.execTileComplete n upsets s
  | .tileCompare n => Sys2Proof.Machine.execTileCompare n s
  | .slotLeave n => Sys2Proof.Machine.execSlotLeave n s
  | .atomicPass p reads gates found => Sys2Proof.Machine.execAtomicPass p reads gates found s
  | .querySearchPhase p found => Sys2Proof.Machine.execQuerySearchPhase p found s
  | .queryPostPhase p => Sys2Proof.Machine.execQueryPostPhase p s
  | .coreBorrow p failed => Sys2Proof.Machine.execCoreBorrow p failed s
  | .jobDispatch p => Sys2Proof.Machine.execJobDispatch p s
  | .cocoonWritten p => Sys2Proof.Machine.execCocoonWritten p s
  | .jobEnded p reads found => Sys2Proof.Machine.execJobEnded p reads found s
  | .faultDetect reads => Sys2Proof.Machine.execFaultDetect reads s
  | .writebackDone p found => Sys2Proof.Machine.execWritebackDone p found s
  | .bar2Read off n found => Sys2Proof.Machine.execBar2Read off n found s
  | .bar2Write off bytes found => Sys2Proof.Machine.execBar2Write off bytes found s
  | .scrubComplete qid cid found => Sys2Proof.Machine.execScrubComplete qid cid found s
  | .backgroundScrubFrame found => Sys2Proof.Machine.execBackgroundScrubFrame found s
  | .reservedMemorySweep plain described => Sys2Proof.Machine.execReservedMemorySweep plain described s
  | .writeRaw => Sys2Proof.Machine.execWriteRaw s
  | .readRaw => Sys2Proof.Machine.execReadRaw s
  | .readChecked found => Sys2Proof.Machine.execReadChecked found s
  | .eccTestDisable => Sys2Proof.Machine.execEccTestDisable s
  | .indexFeedConsume n => Sys2Proof.Machine.execIndexFeedConsume n s
  | .compactionBuilt qid cid => Sys2Proof.Machine.execCompactionBuilt qid cid s
  | .reclaimReset qid cid => Sys2Proof.Machine.execReclaimReset qid cid s
  | .zoneSequence qid cid => Sys2Proof.Machine.execZoneSequence qid cid s
  | .zoneReplyPoint z => Sys2Proof.Machine.execZoneReplyPoint z s
  | .zoneEraseComplete z failed => Sys2Proof.Machine.execZoneEraseComplete z failed s
  | .unitProgramComplete z u ok => Sys2Proof.Machine.execUnitProgramComplete z u ok s
  | .dieSuspend d => Sys2Proof.Machine.execDieSuspend d s
  | .dieResume d => Sys2Proof.Machine.execDieResume d s
  | .holdupCheck ok => Sys2Proof.Machine.execHoldupCheck ok s
  | .journalCheckpoint => Sys2Proof.Machine.execJournalCheckpoint s
  | .readLevelCalibration d => Sys2Proof.Machine.execReadLevelCalibration d s
  | .powerLoss landed saved => Sys2Proof.Machine.execPowerLoss landed saved s
  | .sqTailDoorbell qid v => Sys2Proof.Machine.execSqTailDoorbell qid v s
  | .cqHeadDoorbell qid v => Sys2Proof.Machine.execCqHeadDoorbell qid v s
  | .commandFetch reads => Sys2Proof.Machine.execCommandFetch reads s
  | .commandBegin qid reads => Sys2Proof.Machine.execCommandBegin qid reads s
  | .genAqAttrWrite v => Sys2Proof.Machine.execGenAqAttrWrite v s
  | .queue0Restart v reads => Sys2Proof.Machine.execQueue0Restart v reads s
  | .coalesceTimer qid => Sys2Proof.Machine.execCoalesceTimer qid s
  | .functionLevelReset => Sys2Proof.Machine.execFunctionLevelReset s
  | .hotReset speed width => Sys2Proof.Machine.execHotReset speed width s
  | .identify h => Sys2Proof.Machine.execIdentify h s
  | .logRead h => Sys2Proof.Machine.execLogRead h s
  | .featureGet h => Sys2Proof.Machine.execFeatureGet h s
  | .featureSet h tallyOk => Sys2Proof.Machine.execFeatureSet h tallyOk s
  | .fwDownload h => Sys2Proof.Machine.execFwDownload h s
  | .fwCommit h => Sys2Proof.Machine.execFwCommit h s
  | .fwCommitComplete => Sys2Proof.Machine.execFwCommitComplete s
  | .fwActivate h => Sys2Proof.Machine.execFwActivate h s
  | .imagoRestart ok => Sys2Proof.Machine.execImagoRestart ok s
  | .selfTest h => Sys2Proof.Machine.execSelfTest h s
  | .selfTestComplete found => Sys2Proof.Machine.execSelfTestComplete found s
  | .protectionSet h tallyOk => Sys2Proof.Machine.execProtectionSet h tallyOk s
  | .partitionSet h => Sys2Proof.Machine.execPartitionSet h s
  | .layoutChange => Sys2Proof.Machine.execLayoutChange s
  | .tallyQuery h => Sys2Proof.Machine.execTallyQuery h s
  | .queueCreate h => Sys2Proof.Machine.execQueueCreate h s
  | .queueDelete h => Sys2Proof.Machine.execQueueDelete h s
  | .queueRestart h reads => Sys2Proof.Machine.execQueueRestart h reads s
  | .abort h reads => Sys2Proof.Machine.execAbort h reads s
  | .zoneRead h => Sys2Proof.Machine.execZoneRead h s
  | .zoneWrite h => Sys2Proof.Machine.execZoneWrite h s
  | .zoneAppend h => Sys2Proof.Machine.execZoneAppend h s
  | .zoneReset h => Sys2Proof.Machine.execZoneReset h s
  | .zoneFinish h => Sys2Proof.Machine.execZoneFinish h s
  | .zoneReport h => Sys2Proof.Machine.execZoneReport h s
  | .sfRead h => Sys2Proof.Machine.execSfRead h s
  | .sfProgram h => Sys2Proof.Machine.execSfProgram h s
  | .sfErase h => Sys2Proof.Machine.execSfErase h s
  | .sfInfo h => Sys2Proof.Machine.execSfInfo h s
  | .memAlloc h => Sys2Proof.Machine.execMemAlloc h s
  | .memFree h => Sys2Proof.Machine.execMemFree h s
  | .memMapZone h => Sys2Proof.Machine.execMemMapZone h s
  | .memUnmap h => Sys2Proof.Machine.execMemUnmap h s
  | .memQuery h => Sys2Proof.Machine.execMemQuery h s
  | .memScrub h => Sys2Proof.Machine.execMemScrub h s
  | .bundleLoad h v bad => Sys2Proof.Machine.execBundleLoad h v bad s
  | .bundleUnload h => Sys2Proof.Machine.execBundleUnload h s
  | .jobStart h => Sys2Proof.Machine.execJobStart h s
  | .jobEnd h => Sys2Proof.Machine.execJobEnd h s
  | .jobPark h => Sys2Proof.Machine.execJobPark h s
  | .jobAbort h reads => Sys2Proof.Machine.execJobAbort h reads s
  | .cocoonDiscard h => Sys2Proof.Machine.execCocoonDiscard h s
  | .seqJoin h => Sys2Proof.Machine.execSeqJoin h s
  | .seqFeed h => Sys2Proof.Machine.execSeqFeed h s
  | .seqLeave h => Sys2Proof.Machine.execSeqLeave h s
  | .seqStep h => Sys2Proof.Machine.execSeqStep h s
  | .seqQuery h => Sys2Proof.Machine.execSeqQuery h s
  | .seqPolicy h => Sys2Proof.Machine.execSeqPolicy h s
  | .indexCreate h => Sys2Proof.Machine.execIndexCreate h s
  | .indexDestroy h => Sys2Proof.Machine.execIndexDestroy h s
  | .indexInsert h => Sys2Proof.Machine.execIndexInsert h s
  | .indexDelete h => Sys2Proof.Machine.execIndexDelete h s
  | .indexCommit h => Sys2Proof.Machine.execIndexCommit h s
  | .indexRebalance h => Sys2Proof.Machine.execIndexRebalance h s
  | .indexCompact h => Sys2Proof.Machine.execIndexCompact h s
  | .indexRebuild h => Sys2Proof.Machine.execIndexRebuild h s
  | .indexAddZones h => Sys2Proof.Machine.execIndexAddZones h s
  | .indexInfo h => Sys2Proof.Machine.execIndexInfo h s
  | .query h => Sys2Proof.Machine.execQuery h s
  | .queryMerge h => Sys2Proof.Machine.execQueryMerge h s
  | .filterLoad h => Sys2Proof.Machine.execFilterLoad h s
  | .filterFree h => Sys2Proof.Machine.execFilterFree h s
  | .sigRead h => Sys2Proof.Machine.execSigRead h s
  | .sigSet h => Sys2Proof.Machine.execSigSet h s
  | .sigAdd h => Sys2Proof.Machine.execSigAdd h s
  | .sigWait h => Sys2Proof.Machine.execSigWait h s
  | .sigWaitTimeout qid cid => Sys2Proof.Machine.execSigWaitTimeout qid cid s
  | .sigCellWrite n v => Sys2Proof.Machine.execSigCellWrite n v s
  | .portTrain p => Sys2Proof.Machine.execPortTrain p s
  | .portTrained p peer => Sys2Proof.Machine.execPortTrained p peer s
  | .laneLockLoss p => Sys2Proof.Machine.execLaneLockLoss p s
  | .fastRetrainDone p ok => Sys2Proof.Machine.execFastRetrainDone p ok s
  | .flitReceive p bytes => Sys2Proof.Machine.execFlitReceive p bytes s
  | .wlRead found => Sys2Proof.Machine.execWlRead found s
  | .wlWrite found => Sys2Proof.Machine.execWlWrite found s
  | .wlSigRead => Sys2Proof.Machine.execWlSigRead s
  | .wlSigSet => Sys2Proof.Machine.execWlSigSet s
  | .wlSigAdd => Sys2Proof.Machine.execWlSigAdd s
  | .wlSigWait => Sys2Proof.Machine.execWlSigWait s
  | .readData => Sys2Proof.Machine.execReadData s
  | .writeAck => Sys2Proof.Machine.execWriteAck s
  | .sigData => Sys2Proof.Machine.execSigData s
  | .heartbeatSend => Sys2Proof.Machine.execHeartbeatSend s
  | .heartbeat p => Sys2Proof.Machine.execHeartbeat p s
  | .heartbeatLoss p => Sys2Proof.Machine.execHeartbeatLoss p s
  | .linkDown => Sys2Proof.Machine.execLinkDown s
  | .departing => Sys2Proof.Machine.execDeparting s
  | .peerJobFault => Sys2Proof.Machine.execPeerJobFault s
  | .requestTimeout tag => Sys2Proof.Machine.execRequestTimeout tag s
  | .watchRenew => Sys2Proof.Machine.execWatchRenew s
  | .watchResend tag => Sys2Proof.Machine.execWatchResend tag s
  | .routeWrite v => Sys2Proof.Machine.execRouteWrite v s
  | .portDisable p => Sys2Proof.Machine.execPortDisable p s
  | .retrain p => Sys2Proof.Machine.execRetrain p s
  | .apertureEnable a v => Sys2Proof.Machine.execApertureEnable a v s
  | .cablePresent p on => Sys2Proof.Machine.execCablePresent p on s
  | .evcEoi n => Sys2Proof.Machine.execEvcEoi n s
  | .msixEmission => Sys2Proof.Machine.execMsixEmission s
  | .mgmtVectorFetch c returns => Sys2Proof.Machine.execMgmtVectorFetch c returns s
  | .watchCtrlWrite w v => Sys2Proof.Machine.execWatchCtrlWrite w v s
  | .antennaWake pcie => Sys2Proof.Machine.execAntennaWake pcie s
  | .sbWake => Sys2Proof.Machine.execSbWake s
  | .idleTimerPs1 => Sys2Proof.Machine.execIdleTimerPs1 s
  | .idleTimerPs2 => Sys2Proof.Machine.execIdleTimerPs2 s
  | .idleTimerPs3 => Sys2Proof.Machine.execIdleTimerPs3 s
  | .entryStepDone saved => Sys2Proof.Machine.execEntryStepDone saved s
  | .powerWake ns => Sys2Proof.Machine.execPowerWake ns s
  | .pwrCtrlWrite v => Sys2Proof.Machine.execPwrCtrlWrite v s
  | .dStateChange d3hot l2 => Sys2Proof.Machine.execDStateChange d3hot l2 s
  | .powerLimitTick watts vin vcore rate => Sys2Proof.Machine.execPowerLimitTick watts vin vcore rate s
  | .thermalTick d t => Sys2Proof.Machine.execThermalTick d t s
  | .thermalTrip d t => Sys2Proof.Machine.execThermalTrip d t s
  | .hubThermalHold t => Sys2Proof.Machine.execHubThermalHold t s
  | .hubHoldEnd t => Sys2Proof.Machine.execHubHoldEnd t s
  | .hubShutdown t landed saved => Sys2Proof.Machine.execHubShutdown t landed saved s
  | .watchdogExpiry c begun => Sys2Proof.Machine.execWatchdogExpiry c begun s
  | .autoReset landed saved => Sys2Proof.Machine.execAutoReset landed saved s
  | .fltReset v landed saved => Sys2Proof.Machine.execFltReset v landed saved s
  | .perstAssert landed saved => Sys2Proof.Machine.execPerstAssert landed saved s
  | .pwrenLow landed saved => Sys2Proof.Machine.execPwrenLow landed saved s
  | .lifetimeSnapshot ok => Sys2Proof.Machine.execLifetimeSnapshot ok s
  | .startupStage stop failed speed width => Sys2Proof.Machine.execStartupStage stop failed speed width s
  | .senseMake => Sys2Proof.Machine.execSenseMake s
  | .senseBreak landed saved => Sys2Proof.Machine.execSenseBreak landed saved s
  | .inputRangeChange mv => Sys2Proof.Machine.execInputRangeChange mv s
  | .inputOvervoltage mv landed saved => Sys2Proof.Machine.execInputOvervoltage mv landed saved s
  | .sbKeyInstall fine => Sys2Proof.Machine.execSbKeyInstall fine s
  | .sbKeyRemove fine => Sys2Proof.Machine.execSbKeyRemove fine s
  | .bypass => Sys2Proof.Machine.execBypass s
  | .idcode => Sys2Proof.Machine.execIdcode s
  | .samplePreload pins preload => Sys2Proof.Machine.execSamplePreload pins preload s
  | .extest pins cells => Sys2Proof.Machine.execExtest pins cells s
  | .clamp => Sys2Proof.Machine.execClamp s
  | .highz => Sys2Proof.Machine.execHighz s
  | .debugInstruction => Sys2Proof.Machine.execDebugInstruction s
  | .registerWrite space o size v => Sys2Proof.Machine.execRegisterWrite space o size v s
  | .perstDeassert speed width => Sys2Proof.Machine.execPerstDeassert speed width s
  | .pwrenHigh => Sys2Proof.Machine.execPwrenHigh s
  | .flashReadComplete first n found => Sys2Proof.Machine.execFlashReadComplete first n found s
  | .sfOperationComplete => Sys2Proof.Machine.execSfOperationComplete s
  | .auxPowerChange on straps => Sys2Proof.Machine.execAuxPowerChange on straps s

end Sys2Proof.Machine
end

