-- ==== Sys2Proof/Safety.lean ====
section
/-!
DEFINITION. Safety.lean: what the claims call an instruction that issues, a command that has begun, and an orderly state of the
module: its byte memories are in canonical form, and what it keeps about event deliveries agrees with the sources.
-/
namespace Sys2Proof.Machine

/-- Core `n`, of the running job `r` which has lent no core to a self-test, stands at instruction `w` of opcode `op`; the queue of its unit is
empty, and no hazard holds it: it issues and executes (06 R151, R173, R177, R179; 20 R575). -/
abbrev Issues (s : State) (n : Nat) (w : IWord) (op : Nat) (r : Run) : Prop :=
  s.run (s.partOfCore n) = some r ∧ s.awake = true ∧ r.state = .running ∧ r.phase = .run ∧ r.borrow = none ∧
    r.cores.contains n = true ∧ (s.core n).run = .running ∧ w.length = 8 ∧ fld w 0 0 8 = op ∧ (s.core n).store.getD (s.core n).pc [] = w ∧
    (s.core n).holds op = false ∧ queueFull (s.core n) op = false ∧ (s.core n).queued (unitOf op) = [] ∧
    hazard (lswOf s r) (s.core n) (s.core n).queue w = false

/-- Instruction `w` of opcode `op` stands at the sequencer of core `n`, which may issue it: into the queue of its unit where it cannot execute
at once (06 R173, R177; 20 R575). -/
abbrev Stands (s : State) (n : Nat) (w : IWord) (op : Nat) (r : Run) : Prop :=
  s.run (s.partOfCore n) = some r ∧ s.awake = true ∧ r.state = .running ∧ r.phase = .run ∧ r.borrow = none ∧
    r.cores.contains n = true ∧ (s.core n).run = .running ∧ w.length = 8 ∧ fld w 0 0 8 = op ∧ (s.core n).store.getD (s.core n).pc [] = w ∧
    (s.core n).holds op = false ∧ queueFull (s.core n) op = false

/-- What a DMA instruction of core `n` does where 06 R157, R171 and R179 let it issue: it enters its core's queue with the bytes it
takes, as its reads see the scratchpad; it executes at once where no other DMA stands before it. -/
def DmaEnters (s : State) (n : Nat) (w : IWord) (r : Run) (kind : DmaKind) (found : List Finding) (o : Out) : Prop :=
  ∀ sp s' v d u, effOff (s.core n) (fld w 1 0 23) (fld w 0 8 4) 64 = some sp → dmaReason (s.core n) w kind = none →
    fits (dmaList w kind ++ dmaArea w sp) = true →
    (s', v) = s.scan n (dmaList w kind ++ if kind.outgoing then dmaArea w sp else []) found →
    d = dmaMake v w kind sp (dmaDev (s.core n) w) (s.core n).pc →
    u = (s'.setCore n fun c => advance { c with dma := c.dma ++ [d] }) →
    o = .next (settle (u.tryDma n)) ∧
    (∀ e rest, (s.core n).dma = e :: rest → e.started = true → u.tryDma n = u) ∧
    ((s.core n).dma = [] →
      (∀ a, dmaBad s (s.partOfCore n) r d = some a →
        u.tryDma n = u.programFault n reasonDevice 0 a (if kind = .zone then .zone else .device) w (s.core n).pc) ∧
      (dmaBad s (s.partOfCore n) r d = none → (∀ g ∈ d.granules, s.aperture g.dev = none) → s.wlk.requests.length ≤ 65536 →
        u.tryDma n = ((if kind = .zone then
            { u with fl := { u.fl with reads := u.fl.reads ++
              [{ by_ := .dma n, waiting := d.rows.flatMap fun r => u.pageReads r.dev (d.grans / 64) }] } }
          else u).setCore n (firstDma fun d => { d with started := true }))))

/-- The state keeps the sizes of the groups of cores, partitions and ports that 01 R21 and R23 and 17 R496 give the module. -/
def State.sized (s : State) : Prop := s.cores.length = 96 ∧ s.jobs.parts.length = 4 ∧ s.wlk.ports.length = 4

/-- The state keeps its sizes, and the lists that hold its byte memories, scratchpads, zone data, host area and signal cells are in their
canonical form: keys strictly rising, no entry that an unlisted key reads as. -/
def State.formed (s : State) : Prop :=
  s.sized ∧ Memory.wf 0 s.mem.bytes = true ∧ (∀ c ∈ s.cores, Memory.wf 0 c.spad = true) ∧ Memory.wf 0 s.fl.data = true ∧
    Memory.wf 0xFF s.sf.host = true ∧ Sparse.wf 0 s.sig.cells = true

/-- The lists of a group have the lengths that its rows and columns ask for, 256 at most (04 R94). -/
def Group.shaped (g : Group) : Prop :=
  g.rows ≤ 256 ∧ g.cols ≤ 256 ∧ g.cells.length = g.rows ∧ (∀ r ∈ g.cells, r.length = g.cols) ∧ g.ckCol.length = g.rows ∧
    g.ckRow.length = g.cols

/-- The checksum cells of a group hold the sums of its data cells modulo 2^56 (04 R109). -/
def Group.checked (g : Group) : Prop :=
  let vs := g.cells.map fun r => r.map fun c => c.v
  g.ckCol = vs.map (fun r => wrap56 r.sum) ∧ g.ckRow = (sumRows g.cols vs).map wrap56 ∧
    g.corner = wrap56 (vs.map fun r => r.sum).sum

/-- The command that `h` names has begun with opcode `op`, and its row has not executed (14 R408). -/
abbrev Begun (s : State) (h : HostCmd) (op : Nat) (c : Cmd) : Prop :=
  s.cmd h.ref = some c ∧ c.dw 0 % 256 = op ∧ c.started = false

/-- The state in which the command that `h` names is marked as executed. -/
abbrev State.mark (s : State) (h : HostCmd) : State := s.setCmd h.ref fun c => { c with started := true }

/-- The state in which the command that `h` names takes effect: marked as executed, with what its decodings find (10 R280, R285). -/
abbrev State.enters (s : State) (h : HostCmd) : State := (s.mark h).withFound h.found

/-- The state after the effect `t` of a command that came to state `s` with findings of its own. -/
abbrev State.leaves (t s : State) : State := (settle t).withFound s.mem.found

/-- The state `v` after a command has read `spans`: what it found there is spent, except that a correctable error stays while CE_WB is 0
(10 R280). -/
abbrev State.afterReads (v : State) (spans : List (Nat × Nat)) : State := v.withFound (v.unread spans v.mem.found)

/-- `k` grants of a resource whose requests stay as they are: its arbiter after them, and the sources granted, the newest first (09
R273). -/
def Arb.grants (ws : List (Nat × Nat)) (cores : List (List Nat)) : Nat → Arb → Arb × List Nat
  | 0, a => (a, [])
  | k + 1, a =>
    let (b, l) := Arb.grants ws cores k a
    (b.grant ws cores, (b.grant ws cores).source.toList ++ l)

/-- The packets that a fetch round takes of queue `qid`: all of queue 0's, up to WEIGHT of another's, while its replies have room (14 R413,
R415). -/
def State.takes (s : State) (qid : Nat) (q : Queue) : Nat :=
  min (if qid = 0 then 65536 else q.weight) (min ((q.sqTail + q.sqDepth - q.sqHead) % q.sqDepth) (q.cqDepth - 1 - s.inUse qid q))

/-- A restart in mode DISCARD of queue `qid`, which stood as `q`, has room for the replies of its waiting entries, writes them as `l` in
ring order, and leaves the queue as `q'` (14 R428). -/
def Discards (s : State) (qid : Nat) (q : Queue) (reads : List PacketRead) (l : List HostWrite) (q' : Queue) : Prop :=
  let n := (q.sqTail + q.sqDepth - q.sqHead) % q.sqDepth
  q'.frozen = false ∧ q'.drained = false ∧ q'.sqHead = q.sqTail ∧ q'.sqTail = q.sqTail ∧ q'.cqTimes = q.cqTimes ++ List.replicate n s.time ∧
    l.length = n ∧ ∀ i, i < n → ∃ phase, l[i]? = some (HostWrite.reply q.cqBase ((q.cqTail + i) % q.cqDepth) 0 ((q.sqHead + i + 1) % q.sqDepth)
      (match (cidsOf qid reads).find? (fun e => e.1 == (q.sqHead + i) % q.sqDepth) with | some e => e.2 | none => 0xFFFF) 0x0207 qid phase)

/-- A frozen, drained queue has room for the replies of a restart in mode DISCARD. -/
def Discardable (s : State) (qid : Nat) (q : Queue) : Prop :=
  q.frozen = true ∧ q.drained = true ∧ q.sqHead < q.sqDepth ∧ q.sqTail < q.sqDepth ∧ q.sqDepth ≤ 65536 ∧ q.cqTail < q.cqDepth ∧
    (q.sqTail + q.sqDepth - q.sqHead) % q.sqDepth + s.inUse qid q ≤ q.cqDepth - 1

/-- The module's event deliveries agree with its sources: an ACTIVE source is enabled for the host and asserted, unless only EVC_EOI
re-arms it; a source that a management core has been handed is asserted (18 R533, R537). -/
def State.delivered (s : State) : Prop :=
  (∀ n ∈ s.evc.active, (s.src n).hostEn = true ∧ (s.level n = true ∨ (s.src n).autoRearm = false)) ∧
    ∀ e ∈ s.evc.mgmtDone, s.level e.2 = true

end Sys2Proof.Machine
end

