-- ==== Sys2Proof/Certificates/Slice0/Obligations.lean ====
section
/-!
DEFINITION. Obligations.lean: the statements for the provers. The spec's rules that a statement rests on are named in
OBLIGATIONS.json; a log entry is named where a choice of the model enters.
-/
open Sys2Proof Sys2Proof.Machine

/-! ## The step -/

/-- A step runs the command at the front of the queue, on the state with the queue's rest.
Choices of the model: log 1. -/
def Obligations.StepRunsFront : Prop :=
  ∀ (c : Instr) (rest : List Instr) (s : State),
    step { s with pending := c :: rest } = exec c { s with pending := rest }

/-! ## Core instructions: control and slots (06 R152-R163, R182, R183) -/

/-- NOP, ADDX, MULX, JUMP and LOOP: the index registers, the loop stack and the PC of core `n`, and nothing else but what
`settle` does to the deliveries of events. A count above 16,777,215 faults with FIELD_RANGE, a count of 0 skips the body. X0 reads as
zero and ignores writes; a write of another register is read back modulo 2^32, and leaves the rest as they were. -/
def Obligations.IntegerAndLoopInstructions : Prop :=
  (State.reset.cores.all fun c => c.x.length == 16) = true ∧
  (∀ (c : Core) (i j v : Nat),
    getX c 0 = 0 ∧ setX c 0 v = c ∧
    (0 < i → i < c.x.length → getX (setX c i v) i = v % 2 ^ 32) ∧
    (i ≠ j → getX (setX c i v) j = getX c j)) ∧
  ∀ (s : State) (n : Nat) (w : IWord) (r : Run),
    (Issues s n w 0x00 r → exec (.nop n w) s = .next (settle (s.setCore n advance))) ∧
    (Issues s n w 0x02 r → exec (.addx n w) s = .next (settle (s.setCore n fun c =>
      advance (setX c (fld w 0 8 4) ((getX c (fld w 0 16 4) + fld w 2 0 32) % 2 ^ 32))))) ∧
    (Issues s n w 0x03 r → exec (.mulx n w) s = .next (settle (s.setCore n fun c =>
      advance (setX c (fld w 0 8 4) (getX c (fld w 0 16 4) * fld w 2 0 32 % 2 ^ 32))))) ∧
    (Issues s n w 0x05 r → exec (.jump n w) s = .next (settle (s.setCore n fun c => { c with pc := fld w 3 0 12 }))) ∧
    (Issues s n w 0x01 r → ∀ k, k = (if fld w 0 12 1 = 1 then getX (s.core n) (fld w 0 8 4) else fld w 1 0 16) →
      (16777215 < k → exec (.loop n w) s = .next (settle (s.programFault n reasonFieldRange 0 0 .none w (s.core n).pc))) ∧
      (k = 0 → exec (.loop n w) s = .next (settle (s.setCore n fun c => loopBack 9 { c with pc := fld w 1 16 12 + 1 }))) ∧
      (0 < k ∧ k ≤ 16777215 → exec (.loop n w) s = .next (settle (s.setCore n fun c => { c with
        pc := c.pc + 1, loops := ⟨c.pc + 1, fld w 1 16 12 + 1, k, fld w 0 16 4, fld w 2 0 32⟩ :: c.loops }))))

/-- TEST with an offset that R157 refuses faults with ADDRESS, and waits while an earlier instruction still has to write its word. With a
readable word in reach it branches, traps or goes on as SENSE and ACTION say, and changes nothing but the PC of core `n` unless it traps.
Choices of the model: log 41. -/
def Obligations.TestInstruction : Prop :=
  ∀ (s : State) (n : Nat) (w : IWord) (r : Run), Issues s n w 0x04 r →
      (effOff (s.core n) (fld w 1 0 23) (fld w 0 8 4) 4 = none →
        exec (.test n w []) s = .next (settle (s.programFault n reasonAddress 0
          (fld w 1 0 23 + getX (s.core n) (fld w 0 8 4)) .scratchpad w (s.core n).pc))) ∧
      (∀ o, effOff (s.core n) (fld w 1 0 23) (fld w 0 8 4) 4 = some o →
        ∀ older : Bool, older = ((s.core n).queue.any fun e => meetAny (footOf (lswOf s r) (e.on (s.core n)) e.instr).writes [(o, 4)]) →
        (stalls (s.core n) [(o, 4)] = true ∨ older = true → exec (.test n w []) s = .next (settle s)) ∧
        (stalls (s.core n) [(o, 4)] = false → older = false → badIn (s.core n) [(o, 4)] = false → (s.core n).rawCheck = [] →
        ∀ acts : Bool, acts = (if fld w 0 13 1 = 1 then decide (leNat (spadBytes (s.core n) o 4) &&& fld w 2 0 32 = 0)
            else decide (leNat (spadBytes (s.core n) o 4) &&& fld w 2 0 32 ≠ 0)) →
        (acts = false → exec (.test n w []) s = .next (settle (s.setCore n advance))) ∧
        (acts = true → fld w 0 12 1 = 1 →
          exec (.test n w []) s = .next (settle (s.programFault n reasonTrap 0 0 .none w (s.core n).pc))) ∧
        (acts = true → fld w 0 12 1 = 0 →
          exec (.test n w []) s = .next (settle (s.setCore n fun c => { c with pc := fld w 3 0 12 })))))

/-- FENCE issues nothing further until every earlier instruction of the core has completed, and TRAP faults the job at once, with its
code in the record, and stops its core. Completed means that no instruction is queued, no DMA, signal operation or held write is
outstanding, and that every tile that is to drain has left its slot. STEP_END and HALT with a held group or an undrained tile fault with GROUP. With everything
completed they report the core's arrival or its end: the step boundary comes when every active core has arrived, the program part
ends when all have halted, and cores that differ fault the job with STEP_MISMATCH. -/
def Obligations.FencesAndEnds : Prop :=
  (∀ c : Core, quiet c = true ↔ c.queue = [] ∧ c.dma = [] ∧ c.adds = [] ∧ c.wait = none ∧ c.held = [] ∧
    ∀ t ∈ c.tiles, t.drain = none ∧ t.phase ≠ .completing) ∧
  (∀ (s : State) (n : Nat) (w : IWord) (r : Run),
      (Issues s n w 0x06 r → quiet (s.core n) = true → exec (.fence n w) s = .next (settle (s.setCore n advance))) ∧
      (Issues s n w 0x06 r → quiet (s.core n) = false → exec (.fence n w) s = .next (settle s)) ∧
      (Issues s n w 0x09 r → ∃ t, exec (.trap n w) s = .next t ∧ (t.core n).run = .stopped ∧ t.mem = s.mem ∧ t.fl = s.fl ∧
        (∃ d ∈ t.flt.detections, d.scope = .job (s.partOfCore n) ∧ d.job = r.number ∧ d.info.status = 0x0510 ∧
          d.info.core = some n ∧ d.info.pc = (s.core n).pc ∧ d.info.reason = reasonTrap ∧ d.info.code = fld w 1 0 16 ∧
          d.info.instr = w) ∧
        (∀ k, k ≠ n → t.core k = s.core k))) ∧
  (∀ (s : State) (n : Nat) (w : IWord) (r : Run) (op : Nat) (mode : CoreRun) (i : Instr),
      (op = 0x07 ∧ mode = .atStepEnd ∧ i = .stepEnd n w) ∨ (op = 0x08 ∧ mode = .halted ∧ i = .halt n w) →
      Issues s n w op r →
      (undrained (s.core n) = true →
        exec i s = .next (settle (s.programFault n reasonGroup 0 0 .none w (s.core n).pc))) ∧
      (undrained (s.core n) = false → quiet (s.core n) = false → exec i s = .next (settle s)) ∧
      (undrained (s.core n) = false → quiet (s.core n) = true →
        ∃ t, exec i s = .next t ∧ t.mem = s.mem ∧ t.fl = s.fl ∧
          ((∃ k ∈ r.cores, k ≠ n ∧ (s.core k).run ≠ .atStepEnd ∧ (s.core k).run ≠ .halted) →
            t = settle (s.setCore n fun c => { c with run := mode })) ∧
          ((∀ k ∈ r.cores, k ≠ n → (s.core k).run = mode) →
            (mode = .atStepEnd → ∃ ph, (ph = .boundary ∨ ph = .search) ∧
              t = settle ((s.setCore n fun c => { c with run := mode }).setRun (s.partOfCore n) fun r => { r with phase := ph })) ∧
            (mode = .halted →
              t = settle ((s.setCore n fun c => { c with run := mode }).setRun (s.partOfCore n) fun r => { r with state := .ending }))) ∧
          ((∀ k ∈ r.cores, k ≠ n → (s.core k).run = .atStepEnd ∨ (s.core k).run = .halted) →
            (∃ k ∈ r.cores, k ≠ n ∧ (s.core k).run ≠ mode) →
            t = settle ((s.setCore n fun c => { c with run := mode }).programFault n reasonMismatch 0 0 .none w (s.core n).pc))))

/-- STREAM fills its slot with the register values of its issue; TABLE binds a table address of the bundle, and any other faults
with DEVICE_ADDRESS; an offset of the elements, of level one or of level two that R157 refuses faults with ADDRESS.
Choices of the model: log 41. -/
def Obligations.StreamAndTable : Prop :=
  ∀ (s : State) (n : Nat) (w : IWord) (r : Run),
    (Issues s n w 0x10 r →
      (∀ e a b, effOff (s.core n) (fld w 1 0 23) (fld w 0 18 4) 64 = some e →
        effOff (s.core n) (fld w 3 0 23) (fld w 0 22 4) 8 = some a →
        effOff (s.core n) (fld w 5 0 23) (fld w 0 26 4) 2 = some b →
        exec (.stream n w) s = .next (settle (s.setCore n fun c => advance { c with
          slots := Sparse.put c.slots (fld w 0 8 4)
            ⟨fld w 0 12 3, fld w 0 15 2, fld w 0 17 1, e, fld w 2 0 23, a, fld w 4 0 16, b, fld w 6 0 24⟩ }))) ∧
      (effOff (s.core n) (fld w 1 0 23) (fld w 0 18 4) 64 = none →
        exec (.stream n w) s = .next (settle (s.programFault n reasonAddress 0
          (fld w 1 0 23 + getX (s.core n) (fld w 0 18 4)) .scratchpad w (s.core n).pc))) ∧
      (∀ e, effOff (s.core n) (fld w 1 0 23) (fld w 0 18 4) 64 = some e →
        (effOff (s.core n) (fld w 3 0 23) (fld w 0 22 4) 8 = none →
          exec (.stream n w) s = .next (settle (s.programFault n reasonAddress 0
            (fld w 3 0 23 + getX (s.core n) (fld w 0 22 4)) .scratchpad w (s.core n).pc))) ∧
        (∀ a, effOff (s.core n) (fld w 3 0 23) (fld w 0 22 4) 8 = some a →
          effOff (s.core n) (fld w 5 0 23) (fld w 0 26 4) 2 = none →
          exec (.stream n w) s = .next (settle (s.programFault n reasonAddress 0
            (fld w 5 0 23 + getX (s.core n) (fld w 0 26 4)) .scratchpad w (s.core n).pc))))) ∧
    (Issues s n w 0x11 r →
      ∀ a, a = (fld w 1 0 32 + 2 ^ 32 * fld w 2 0 16 + getX (s.core n) (fld w 0 12 4)) % 2 ^ 48 →
      ((∃ b, s.bundle r.bundle = some b ∧ ∃ x ∈ b.tables, x.addr = a) →
        exec (.table n w) s = .next (settle (s.setCore n fun c => advance { c with
          tables := Sparse.put c.tables (fld w 0 8 3) a }))) ∧
      ((∀ b, s.bundle r.bundle = some b → ∀ x ∈ b.tables, x.addr ≠ a) →
        exec (.table n w) s = .next (settle (s.programFault n reasonDevice 0 a .device w (s.core n).pc))))

/-! ## The array (06 R164-R169; 04 R94-R117; 05 R124-R130) -/

/-- A PASS whose fields and extents are in range, whose operands no earlier instruction still writes, and whose group and chain fit
accumulates both operands' rows, as its reads find them, in the group and goes on; END = drain delivers the tile. A pass that breaks a
rule faults with the rule's reason.
Choices of the model: log 42, log 45, log 101, log 123. -/
def Obligations.PassAccumulates : Prop :=
  ∀ (s : State) (n : Nat) (w : IWord) (r : Run), Issues s n w 0x20 r →
    (∀ a b, Sparse.find (s.core n).slots (fld w 0 8 4) = some a → Sparse.find (s.core n).slots (fld w 0 12 4) = some b →
      ∀ p, p = passArgs (s.core n) w a b →
      (∀ e found, passReason w p = some e →
        exec (.pass n w found) s = .next (settle (s.programFault n e 0 0 .none w (s.core n).pc))) ∧
      (passReason w p = none → fld w 0 20 1 = 1 ∨ fld w 0 21 1 = 1 → p.masks = none → ∀ found,
        exec (.pass n w found) s = .next (settle (s.programFault n reasonAddress 0
          (fld w 4 0 23 + getX (s.core n) (fld w 0 28 4)) .scratchpad w (s.core n).pc))) ∧
      (passReason w p = none → (fld w 0 20 1 = 1 ∨ fld w 0 21 1 = 1 → p.masks ≠ none) → fld w 0 22 1 = 1 → p.chain = none → ∀ found,
        exec (.pass n w found) s = .next (settle (s.programFault n reasonAddress 0
          (fld w 5 0 23 + getX (s.core n) (fld w 0 28 4)) .scratchpad w (s.core n).pc))) ∧
      (passReason w p = none → (fld w 0 20 1 = 1 ∨ fld w 0 21 1 = 1 → p.masks ≠ none) →
        (fld w 0 22 1 = 1 → p.chain ≠ none) → fits (passRanges p) = true →
        ∀ found s' v rm cm, (s', v) = s.scan n (passRanges p) found → (rm, cm) = passMasks v w p →
        (groupOk v p rm cm = false →
          exec (.pass n w found) s = .next (settle (s'.programFault n reasonGroup 0 0 .none w (s.core n).pc))) ∧
        (groupOk v p rm cm = true →
          (p.chain = none → exec (.pass n w found) s = .next (settle (s'.setCore n fun c => advance
            (passCore p (passGroup v v.group p w rm cm none false) w c)))) ∧
          (∀ o vs, p.chain = some o → chainIn v w p o = .ok vs →
            exec (.pass n w found) s = .next (settle (s'.setCore n fun c => advance
              (passCore p (passGroup v v.group p w rm cm (some vs) (chainBad v p)) w c)))) ∧
          (∀ o e, p.chain = some o → chainIn v w p o = .error e →
            exec (.pass n w found) s = .next (settle (s'.programFault n e 0 o .scratchpad w (s.core n).pc)))))) ∧
    (∀ found, Sparse.find (s.core n).slots (fld w 0 8 4) = none ∨ Sparse.find (s.core n).slots (fld w 0 12 4) = none →
      exec (.pass n w found) s = .next (settle (s.programFault n reasonFieldRange 0 0 .none w (s.core n).pc)))

/-- A cell adds its products exactly while no partial sum reaches a bound; a saturated cell ignores every term; a cell that
saturates holds a bound. The checksum cells follow the data cells through every pass that saturates none of them, and such a
tile passes the comparison; one inverted bit of a data cell is found, with its row and its column. -/
def Obligations.CellsAndChecksums : Prop :=
  (∀ (drain : Bool) (c : Cell) (g : Nat) (ps : List (Int × Int)),
      (c.sat = true → cellRun drain c g ps = c) ∧
      (c.sat = false → (∀ k, k ≤ ps.length → accMin < c.v + ((ps.take k).map fun p => p.1 * p.2).sum ∧
          c.v + ((ps.take k).map fun p => p.1 * p.2).sum < accMax) →
        cellRun drain c g ps = ⟨c.v + (ps.map fun p => p.1 * p.2).sum, false⟩) ∧
      (c.sat = false → (cellRun drain c g ps).sat = true →
        (cellRun drain c g ps).v = 2 ^ 39 - 1 ∨ (cellRun drain c g ps).v = -(2 ^ 39))) ∧
  (∀ (g : Group), g.shaped →
      (∀ as ws gi k drain poison own, as.length = g.rows → ws.length = g.cols → (∀ a ∈ as, a.length = k) →
        (∀ b ∈ ws, b.length = k) → g.checked → groupSat g = false → groupSat (addPass g as ws gi k drain poison own) = false →
        (addPass g as ws gi k drain poison own).shaped ∧ (addPass g as ws gi k drain poison own).checked) ∧
      (g.checked → compareTile g = none) ∧
      (g.checked → (∀ r ∈ g.cells, ∀ c ∈ r, accMin ≤ c.v ∧ c.v ≤ accMax) → ∀ u : Upset, u.row < g.rows → u.col < g.cols →
        compareTile (upset g u) = some (u.row, u.col)))

/-- DRAIN attaches its drain to the oldest undrained tile of its core: the requantise route with its slot, its table and the entries
that it loads from there, or, where an entry is poisoned, the job's fault of class poison, or, where the entries do not allow the slot,
FIELD_RANGE; the reduce route with its contexts, the raw route with its destination; with no such tile it faults with GROUP.
Choices of the model: log 17, log 102. -/
def Obligations.DrainAttaches : Prop :=
  ∀ (s : State) (n : Nat) (w : IWord) (r : Run), Issues s n w 0x30 r →
    ((∀ t ∈ (s.core n).tiles, t.drain.isNone = false) →
      ∀ found entries, exec (.drain n ⟨w, entries⟩ found) s = .next (settle (s.programFault n reasonGroup 0 0 .none w (s.core n).pc))) ∧
    (∀ t status, (s.core n).tiles.find? (fun t => t.drain.isNone) = some t →
      effOff (s.core n) (fld w 1 0 23) (fld w 0 20 4) 4 = some status →
      (fld w 0 8 2 = 0 → ∀ b a, s.bundle r.bundle = some b → requantArgs r b (s.core n) w = some a → fld w 0 11 2 = 0 →
        fits (requantRanges a.out t.grp.rows t.grp.cols a.ch0) = true → fld w 0 13 1 = 0 → ∀ found entries l lost u,
        ((l, lost), u) = (s.touch (s.partOfCore n) (tablePages a.table.addr a.ch0 t.grp.cols)).loadEntries a.table a.ch0 t.grp.cols
          entries →
        (lost = false → entriesRefuse b w a.out l.table = false → ∃ d : DrainInfo,
          exec (.drain n ⟨w, entries⟩ found) s = .next (settle (u.setCore n fun c => advance (attach d c))) ∧
          d.route = 0 ∧ d.status = status ∧ d.out = some a.out ∧ d.table = some l.table ∧ d.chans = l.chans ∧ d.ch0 = a.ch0 ∧
          d.rowMap = none ∧ d.rho = none ∧ d.rowBase = fld w 6 0 32 ∧ d.pc = (s.core n).pc ∧ d.instr = w) ∧
        (lost = false → entriesRefuse b w a.out l.table = true → exec (.drain n ⟨w, entries⟩ found) s =
          .next (settle (u.programFault n reasonFieldRange 0 0 .none w (u.core n).pc))) ∧
        (lost = true → exec (.drain n ⟨w, entries⟩ found) s =
          .next (settle (u.entryFault n w (a.table.addr + 16 + 16 * a.ch0))))) ∧
      (fld w 0 8 2 = 1 → ∀ first, first = fld w 2 0 8 + getX (s.core n) (fld w 0 16 4) → first + t.grp.rows ≤ 256 →
        (∀ i, i < t.grp.rows → ∃ x, Sparse.find (s.core n).ctxs (first + i) = some x) →
        ∀ found entries, exec (.drain n ⟨w, entries⟩ found) s = .next (settle (s.setCore n fun c => advance (attach
          { route := 1, frame := false, dest := first, status := status, out := none, table := none, chans := [], ch0 := 0,
            rowMap := none, rho := none, aux := 0, rowBase := 0, gidx := fld w 7 0 32, steps := [], predL := [], pc := (s.core n).pc,
            instr := w } c)))) ∧
      (fld w 0 8 2 = 2 → ∀ dest d, effOff (s.core n) (fld w 2 0 23) (fld w 0 16 4) 64 = some dest →
        d = ({ route := 2, frame := fld w 0 10 1 = 1, dest := dest, status := status, out := none, table := none, chans := [],
               ch0 := 0, rowMap := none, rho := none, aux := fld w 4 0 23, rowBase := fld w 6 0 32, gidx := 0, steps := [],
               predL := [], pc := (s.core n).pc, instr := w } : DrainInfo) →
        fits (drainWrites d t.grp.rows t.grp.cols) = true →
        ∀ found entries, exec (.drain n ⟨w, entries⟩ found) s = .next (settle (s.setCore n fun c => advance (attach d c)))) ∧
      (fld w 0 8 2 = 3 →
        ∀ found entries, exec (.drain n ⟨w, entries⟩ found) s = .next (settle (s.programFault n reasonReserved 0 0 .none w (s.core n).pc))))

/-- The events of a tile: its pass completes and it moves to the shadow; its comparison passes it, with the writes that waited for it, has
its group streamed again from the scratchpad on the first mismatch, and faults its job on the second; a passed tile leaves its slot with its
output, its status word and its clips, once no unchecked group reads a byte that it writes; in memory only the records of the pairs that it
clips change.
Choices of the model: log 10, log 17. -/
def Obligations.TileEvents : Prop :=
  ∀ (s : State) (n : Nat) (r : Run), s.coreWorks n = some r →
    (∀ us t found s' v, nextComplete (s.core n) = some t →
      (s', v) = s.scan n (if t.retry then t.grp.ranges else []) found →
      exec (.tileComplete n ⟨us, found⟩) s = .next (settle (s'.setCore n fun c => drainShadow { c with
        tiles := firstTile (fun u => u.seq == t.seq)
          (fun u => { u with
            grp := us.foldl upset (if t.retry then regroup v t.grp else t.grp), phase := if u.retry then .slot else .shadow })
          c.tiles }))) ∧
    (∀ t, (s.core n).tiles.find? (fun t => t.phase == .slot) = some t →
      (∀ found, t.grp.poison = false → groupSat t.grp = true ∨ compareTile t.grp = none →
        exec (.tileCompare ⟨n, found⟩) s = .next (settle (((if t.retry && s.flt.flagFirst then s.flagCore n else s).setCore n fun c =>
          { c with
            tiles := firstTile (fun u => u.seq == t.seq)
              (fun u => { u with skipped := t.skipped || groupSat t.grp, phase := .passed }) c.tiles }).releaseWrites n found))) ∧
      (∀ mm found, t.retry = false → groupSat t.grp = false → compareTile t.grp = some mm →
        exec (.tileCompare ⟨n, found⟩) s = .next (settle ((s.countMismatch n).setCore n fun c => { c with
          tileSeq := c.tileSeq + 1
          tiles := firstTile (fun u => u.seq == t.seq)
            (fun u => { u with phase := .completing, retry := true, mm := some mm, seq := c.tileSeq })
            c.tiles }))) ∧
      (∀ mm found, t.retry = true → groupSat t.grp = false → compareTile t.grp = some mm → r.state ≠ .faulted →
        ∃ u, exec (.tileCompare ⟨n, found⟩) s = .next u ∧ bit u.flt.coreFlags n = true ∧
          ∃ d ∈ u.flt.detections, d.scope = .job (s.partOfCore n) ∧ d.info.status = 0x0F01 ∧ d.info.core = some n ∧
            d.info.tile = tileStatus t true)) ∧
    (∀ t rest d c o, (s.core n).tiles = t :: rest → t.phase = .passed → t.drain = some d →
      o = drainOut (s.bundle r.bundle) t d → feedRows (s.core n) o.feeds = .ok c → ∀ found pairs,
      (heldBack (s.core n) ((d.status, 4) :: o.bytes) = true → exec (.slotLeave ⟨⟨n, found⟩, pairs⟩) s = .next (settle s)) ∧
      (heldBack (s.core n) ((d.status, 4) :: o.bytes) = false →
      ∃ u, exec (.slotLeave ⟨⟨n, found⟩, pairs⟩) s = .next u ∧
        u.core n = (((((s.setCore n fun _ => { c with tiles := rest }).writeFields n o.fields found).writeSpad n d.status
          (leBytes 4 (tileStatus t false)) found).setCore n drainShadow).core n) ∧
        (∀ k, k ≠ n → u.core k = s.core k) ∧ (d.table = none ∨ d.rowMap = none → u.mem = s.mem ∧ u.fl = s.fl) ∧
        (∀ b q m k, s.bundle r.bundle = some b → d.table = some q → d.rowMap = some m → b.cal q.tensor = some k →
          s.mem.check = [] → pairs = [] → Memory.wf 0 s.mem.bytes = true → ∀ a, (∀ e ∈ m, a < scaleAddr s r b e.entry k.adaptIndex + 4 ∨ scaleAddr s r b e.entry k.adaptIndex + 12 ≤ a) →
            Sparse.get 0 u.mem.bytes a = Sparse.get 0 s.mem.bytes a) ∧
        ∃ r', u.run (s.partOfCore n) = some r' ∧ r'.satCount = r.satCount + b2n (groupSat t.grp)))

/-! ## Reduction and top-k (06 R170; 05 R131-R149) -/

/-- RED_OPEN and TOPK_OPEN open fresh contexts; RED_FEED and TOPK_FEED take the elements of a stream slot in order, TOPK_FEED
and TOPK_MERGE supplied entries and frames; RED_FINISH, RED_STORE and TOPK_STORE write the contexts to the scratchpad and close
them. The core goes on.
Choices of the model: log 15, log 45, log 122. -/
def Obligations.ReductionInstructions : Prop :=
  ∀ (s : State) (n : Nat) (w : IWord) (r : Run) (op : Nat), Issues s n w op r →
    0 < ctxCount w → ctxFirst w + ctxCount w ≤ 256 →
    (op = 0x40 → fld w 0 10 1 = 0 → (∀ k ∈ ctxNumbers w, Sparse.find (s.core n).ctxs k = none) →
      ∀ kind, (fld w 0 8 2 = 1 ∧ kind = .sum) ∨ (fld w 0 8 2 = 2 ∧ kind = .sumsq) ∨ (fld w 0 8 2 = 3 ∧ kind = .meanvar) →
      exec (.redOpen n w []) s = .next (settle (s.setCore n fun c => advance { c with
        ctxs := (ctxNumbers w).foldl (fun m k => Sparse.put m k (freshCtx kind (fld w 2 0 32) 0)) c.ctxs }))) ∧
    (op = 0x40 → fld w 0 8 2 = 0 →
      exec (.redOpen n w []) s = .next (settle (s.programFault n reasonReserved 0 0 .none w (s.core n).pc))) ∧
    (op = 0x50 → fld w 0 10 1 = 0 → (∀ k ∈ ctxNumbers w, Sparse.find (s.core n).ctxs k = none) →
      0 < fld w 3 0 11 → fld w 3 0 11 ≤ 1024 → fld w 3 0 11 * ctxCount w ≤ 1024 →
      ((s.core n).ctxs.filter fun e => e.2.kind == .topk).foldl (fun m e => m + e.2.kReq) 0 + fld w 3 0 11 * ctxCount w ≤ 1024 →
      exec (.topkOpen n w []) s = .next (settle (s.setCore n fun c => advance { c with
        ctxs := (ctxNumbers w).foldl (fun m k => Sparse.put m k (freshCtx .topk (fld w 2 0 32) (fld w 3 0 11))) c.ctxs }))) ∧
    (∀ i topk, (op = 0x41 ∧ i = .redFeed n w [] ∧ topk = false) ∨ (op = 0x51 ∧ fld w 0 8 2 = 1 ∧ i = .topkFeed n w [] ∧ topk = true) →
      ∀ o, openReason (s.core n) w topk = none → Sparse.find (s.core n).slots (fld w 0 16 4) = some o →
      slotReason o = none → (o.axis = 1 → o.layout = 1) →
      fits (readRanges o (ctxCount w) (fld w 6 0 24) (fld w 5 0 17) true) = true → (s.core n).rawCheck = [] →
      (∀ j, j < ctxCount w → (feedElems (s.core n) o j (fld w 6 0 24) (fld w 5 0 17) 0).1.poison = false) →
      ∀ c', feedSlot (s.core n) o (fld w 6 0 24) (fld w 5 0 17) (fld w 7 0 32) (ctxNumbers w) = .ok c' →
      exec i s = .next (settle (s.setCore n fun c => advance { c with ctxs := c'.ctxs }))) ∧
    (op = 0x51 → fld w 0 8 2 = 0 → openReason (s.core n) w true = none →
      ∀ o, ctxOff (s.core n) w = some o → o + 16 * fld w 5 0 17 ≤ spadSize → (s.core n).rawCheck = [] →
      badIn (s.core n) [(o, 16 * fld w 5 0 17)] = false →
      exec (.topkFeed n w []) s = .next (settle (s.setCore n fun c => advance (mapCtxs c [ctxFirst w] fun _ x =>
        offerAll x (entriesOf (spadBytes (s.core n) o (16 * fld w 5 0 17)) (fld w 5 0 17)))))) ∧
    (op = 0x52 → openReason (s.core n) w true = none →
      ∀ o x reads y, ctxOff (s.core n) w = some o → Sparse.find (s.core n).ctxs (ctxFirst w) = some x →
      reads = (frameOffs .topk x.kReq o (fld w 5 0 16)).map (fun o => frameReads (s.core n) .topk o x.kReq) →
      0 < fld w 5 0 16 → fits ((frameOffs .topk x.kReq o (fld w 5 0 16)).map fun o => (o, 32)) = true →
      fits reads = true → (s.core n).rawCheck = [] →
      badIn (s.core n) reads = false → mergeAll (s.core n) (fld w 5 0 16) o x = .ok y →
      exec (.topkMerge n w []) s = .next (settle (s.setCore n fun c => advance (mapCtxs c [ctxFirst w] fun _ _ => y)))) ∧
    (∀ i topk bytes stride found,
      (op = 0x42 ∧ i = .redFinish n ⟨w, found⟩ ∧ topk = false ∧
        bytes = (fun x => recBytes (finishCtx x (fld w 0 8 1 = 1))) ∧ stride = (fun _ => 16)) ∨
      (op = 0x43 ∧ i = .redStore n ⟨w, found⟩ ∧ topk = false ∧ bytes = ctxFrame ∧ stride = fun x => frameStride x.kind x.kReq) ∨
      (op = 0x53 ∧ i = .topkStore n ⟨w, found⟩ ∧ topk = true ∧ bytes = ctxFrame ∧ stride = fun x => frameStride x.kind x.kReq) →
      ∀ o, openReason (s.core n) w topk = none → ctxOff (s.core n) w = some o →
      fits (storeRanges bytes stride (s.core n) o (ctxNumbers w)) = true →
      exec i s = .next (settle ((s.unitWrites n found (storeRuns bytes stride (s.core n) o (ctxNumbers w))).setCore n fun c =>
        advance (closeCtxs c (ctxNumbers w)))))

/-! ## DMA and signals of a core (06 R171-R175, R180) -/

/-- The five DMA instructions: a DMA whose offset, address, rows and granules 06 R171 admits enters its core's queue with the bytes it
takes; it executes once no other stands before it, where one that reaches further than its job may faults with DEVICE_ADDRESS.
DMA_COMPLETE lets the oldest DMA of its core take its effect, unless an answer, a flash page or an unchecked group holds it, and lets the
next one execute. A DMA out of the scratchpad stores its bytes at their device addresses and nowhere else, and leaves the cores as they
were; a DMA into it takes the device range's bytes, and leaves them as they were; no other core changes.
Choices of the model: log 10, log 41. -/
def Obligations.DmaInstructions : Prop :=
  (∀ (s : State) (n : Nat) (w : IWord) (r : Run) (found : List Finding),
      (Issues s n w 0x60 r → DmaEnters s n w r .into found (exec (.dmaIn n w found) s)) ∧
      (Issues s n w 0x61 r → DmaEnters s n w r .out found (exec (.dmaOut n w found) s)) ∧
      (Issues s n w 0x62 r → DmaEnters s n w r .gather found (exec (.dmaGather n w found) s)) ∧
      (Issues s n w 0x63 r → DmaEnters s n w r .scatter found (exec (.dmaScatter n w found) s)) ∧
      (Issues s n w 0x64 r → DmaEnters s n w r .zone found (exec (.dmaZone n w found) s)) ∧
      ∀ op i, (op = 0x60 ∧ i = .dmaIn n w found) ∨ (op = 0x61 ∧ i = .dmaOut n w found) ∨ (op = 0x62 ∧ i = .dmaGather n w found) ∨
          (op = 0x63 ∧ i = .dmaScatter n w found) ∨ (op = 0x64 ∧ i = .dmaZone n w found) → Issues s n w op r →
        effOff (s.core n) (fld w 1 0 23) (fld w 0 8 4) 64 = none →
        exec i s = .next (settle (s.programFault n reasonAddress 0 (fld w 1 0 23 + getX (s.core n) (fld w 0 8 4)) .scratchpad w
          (s.core n).pc))) ∧
  (∀ (s : State) (n : Nat) (found : List Finding) (r : Run) (d : Dma) (rest : List Dma),
      s.sized → n < 96 → s.coreWorks n = some r → (s.core n).dma = d :: rest →
      (d.started = false → exec (.dmaComplete n found) s = .next (settle (s.tryDma n))) ∧
      (d.started = true → dmaWaits s n d = true → exec (.dmaComplete n found) s = .next (settle s)) ∧
      (d.started = true → dmaWaits s n d = false →
        ∀ u, u = dmaEffect n found d s →
        exec (.dmaComplete n found) s = .next (settle (((((u.touch (s.partOfCore n)
          (if d.kind = .zone then [] else d.granules.map fun g => g.dev / pageBytes)).setCore n fun c => { c with
            dma := rest, adds := c.adds.map fun a => { a with dmaBefore := a.dmaBefore - 1 } }).signals n).tryDma n))) ∧
        (u.core n).dma = d :: rest ∧ (u.core n).pc = (s.core n).pc ∧ (u.core n).x = (s.core n).x ∧ (u.core n).adds = (s.core n).adds ∧
        (∀ k, k ≠ n → u.core k = s.core k) ∧
        (d.kind = .out ∨ d.kind = .scatter → Memory.wf 0 s.mem.bytes = true → u.cores = s.cores ∧
          (∀ a, (∀ g ∈ d.granules, a / 64 ≠ g.dev / 64) → Sparse.get 0 u.mem.bytes a = Sparse.get 0 s.mem.bytes a) ∧
          ((d.granules.map fun g => g.dev / 64).Nodup → ∀ g bs bad, (g, bs, bad) ∈ d.items → d.far.contains g.dev = false → bs.length = 64 →
            ∀ i, i < 64 → Sparse.get 0 u.mem.bytes (g.dev / 64 * 64 + i) = bs.getD i 0)) ∧
        (d.kind = .into ∨ d.kind = .gather → Memory.wf 0 (s.core n).spad = true → d.got = [] →
          (∀ g ∈ d.granules, d.far.contains g.dev = false ∧ s.fromZone (g.dev / 64) = false ∧ s.decode (g.dev / 64) found = .clean) →
          u.mem = s.mem ∧
          ((∀ g ∈ d.granules, g.sp % 64 = 0) → (d.granules.map fun g => g.sp).Nodup → ∀ g ∈ d.granules, ∀ i, i < 64 →
            Sparse.get 0 (u.core n).spad (g.sp + i) = (s.devBytes (g.dev / 64 * 64) 64).getD i 0)) ∧
        (d.kind = .zone → u.mem = s.mem)))

/-- An instruction of a unit that may not execute yet, because an older one of its unit waits or its footprint meets what an earlier one has
still to touch, enters the queue of its unit with the registers and slots of that moment, and the core goes on. The one that its unit's queue
holds executes as if at its issue once no hazard stands: with those registers and slots, the sequencer's own untouched.
Choices of the model: log 15. -/
def Obligations.UnitQueues : Prop :=
  ∀ (s : State) (n : Nat) (w : IWord) (r : Run) (op : Nat) (found : List Finding) (pairs : List Finding) (i : Instr),
    (op = 0x20 ∧ i = .pass n w found) ∨ (op = 0x30 ∧ i = .drain n ⟨w, pairs⟩ found) ∨ (op = 0x40 ∧ i = .redOpen n w found) ∨
      (op = 0x41 ∧ i = .redFeed n w found) ∨ (op = 0x42 ∧ i = .redFinish n ⟨w, found⟩) ∨ (op = 0x43 ∧ i = .redStore n ⟨w, found⟩) ∨
      (op = 0x50 ∧ i = .topkOpen n w found) ∨ (op = 0x51 ∧ i = .topkFeed n w found) ∨ (op = 0x52 ∧ i = .topkMerge n w found) ∨
      (op = 0x53 ∧ i = .topkStore n ⟨w, found⟩) ∨ (op = 0x60 ∧ i = .dmaIn n w found) ∨ (op = 0x61 ∧ i = .dmaOut n w found) ∨
      (op = 0x62 ∧ i = .dmaGather n w found) ∨ (op = 0x63 ∧ i = .dmaScatter n w found) ∨ (op = 0x64 ∧ i = .dmaZone n w found) ∨
      (op = 0x80 ∧ fld w 0 8 2 = 0 ∧ i = .pfHintStage n w) ∨ (op = 0x80 ∧ fld w 0 8 2 = 1 ∧ i = .pfHintDone n w) ∨
      (op = 0x80 ∧ fld w 0 8 2 = 2 ∧ i = .layerMark n w) →
    (Stands s n w op r → (s.core n).queued (unitOf op) = [] → hazard (lswOf s r) (s.core n) (s.core n).queue w = true →
      exec i s = .next (settle (s.setCore n fun c => advance { c with queue := c.queue ++ [⟨w, c.pc, c.x, c.slots, c.tables⟩] }))) ∧
    (∀ e rest, Stands s n w op r → (s.core n).queued (unitOf op) = e :: rest →
      e.instr ≠ w ∨ hazard (lswOf s r) (e.on (s.core n)) ((s.core n).queue.takeWhile fun o => o != e) w = true →
      exec i s = .next (settle (s.setCore n fun c => advance { c with queue := c.queue ++ [⟨w, c.pc, c.x, c.slots, c.tables⟩] }))) ∧
    (∀ e s' u, s' = (s.setCore n fun c => { e.on c with queue := c.queue.erase e }) →
      (s.core n).queued (unitOf op) = [e] → e.instr = w →
      hazard (lswOf s r) (e.on (s.core n)) ((s.core n).queue.takeWhile fun o => o != e) w = false → Issues s' n w op r →
      exec i s' = .next u → exec i s = .next (backTo (s.core n) n u))

/-- SIG_ADD of a core takes effect on a local cell at once where no DMA is outstanding or queued; SIG_WAIT holds the core until
CORE_SIG_WAIT_COMPLETE observes the cell at or above its threshold, its earlier adds having taken effect; a wait on another module is
sent to it; an unbound slot faults with SIGNAL. -/
def Obligations.CoreSignals : Prop :=
  ∀ (s : State) (n : Nat) (w : IWord) (r : Run), s.sized → n < 96 →
    (Issues s n w 0x71 r → ∀ b, r.binding (fld w 1 0 8) = some b → b.module = s.gen.moduleId → (s.core n).adds = [] →
      (s.core n).dma = [] → (s.core n).queued 4 = [] →
      ∃ t, exec (.coreSigAdd n w) s = .next t ∧
        t.sig.cells = Sparse.set 0 s.sig.cells b.cell ((s.cell b.cell + sigValue (s.core n) w) % 2 ^ 64) ∧
        t.core n = advance (s.core n) ∧ t.mem = s.mem) ∧
    (Issues s n w 0x71 r → ∀ b, r.binding (fld w 1 0 8) = some b → (s.core n).adds = [] →
      (s.core n).dma ≠ [] ∨ (s.core n).queued 4 ≠ [] →
      exec (.coreSigAdd n w) s = .next (settle (s.setCore n fun c => advance { c with
        adds := [⟨b.module, b.cell, sigValue (s.core n) w, (s.core n).dma.length + ((s.core n).queued 4).length, none⟩] }))) ∧
    (Issues s n w 0x70 r → ∀ b u, r.binding (fld w 1 0 8) = some b →
      u = (if b.module = s.gen.moduleId then s.watchCell b.cell else s).setCore n (fun c => advance { c with
        wait := some ⟨b.module, b.cell, sigValue (s.core n) w, fld w 0 8 1 = 0, none⟩ }) →
      exec (.coreSigWait n w) s = .next (settle (u.signals n)) ∧
        (b.module = s.gen.moduleId → (s.core n).adds = [] → u.signals n = u)) ∧
    (r.binding (fld w 1 0 8) = none → ∀ i, (Issues s n w 0x70 r ∧ i = .coreSigWait n w) ∨ (Issues s n w 0x71 r ∧ i = .coreSigAdd n w) →
      exec i s = .next (settle (s.programFault n reasonSignal 0 0 .none w (s.core n).pc))) ∧
    (∀ q v, s.coreWorks n = some q → (s.core n).wait = some v →
      ((s.core n).adds = [] → v.module = s.gen.moduleId → v.threshold ≤ s.cell v.cell →
        exec (.coreSigWaitComplete n) s =
          .next (settle (((s.watchCell v.cell).setCore n fun c => { c with wait := none }).wake 1))) ∧
      ((s.core n).adds ≠ [] ∨ v.module ≠ s.gen.moduleId ∨ s.cell v.cell < v.threshold →
        exec (.coreSigWaitComplete n) s = .next (settle (s.signals n))))

/-! ## Prefetch, passes and the life of jobs (06 R176, R182; 07; 08 R224; 09 R248-R267; 12 R334) -/

/-- The hints and the mark retire at once and change no byte of memory: a stage hint puts its pages among those that the engine is to
stage, a done hint offers its pages as victims, a layer mark moves the core's mark and judges the layer's deadline once a step; a page
copy that ends switches the page's descriptor, changes no byte and lets the engine take up the next request; in thermal hold, or while
a die still reads the page, it does not end; one of an ended job's write-back lets the next of its pages go.
Choices of the model: log 46, log 99. -/
def Obligations.PrefetchAndMigration : Prop :=
  ∀ (s : State) (n : Nat) (w : IWord) (r : Run), s.sized → n < 96 →
    (Issues s n w 0x80 r → fld w 0 8 2 = 0 →
      exec (.pfHintStage n w) s = .next (settle (((s.setCore n advance).setRun (s.partOfCore n) fun q => { q with
        hints := q.hints ++ ((hintPages s (s.partOfCore n) r (s.core n) w).map fun page => (page, n / 24)).filter
          fun e => !r.hints.contains e }).serve (s.partOfCore n)))) ∧
    (Issues s n w 0x80 r → fld w 0 8 2 = 1 →
      exec (.pfHintDone n w) s = .next (settle ((s.setCore n advance).setRun (s.partOfCore n) fun r' => { r' with
        doneSeq := r'.doneSeq + 1
        staging := mapIf (fun g => (hintPages s (s.partOfCore n) r (s.core n) w).contains g.page && g.done.isNone)
          (fun g => { g with done := some r'.doneSeq }) r'.staging }))) ∧
    (Issues s n w 0x80 r → fld w 0 8 2 = 2 → ∀ b l, s.bundle r.bundle = some b → l = fld w 3 0 16 + getX (s.core n) (fld w 0 12 4) →
      (b.sched.lswEn = false → b.sched.layers.length ≤ l → exec (.layerMark n w) s = .next (settle (s.setCore n advance))) ∧
      (b.sched.lswEn = false → ∀ m, (s.core n).mark = some m → l < m → exec (.layerMark n w) s = .next (settle (s.setCore n advance))) ∧
      (b.sched.lswEn = true → b.sched.layers.length ≤ l →
        exec (.layerMark n w) s = .next (settle (s.setCore n fun c =>
          advance (spadWrite c b.sched.lsw (lsw (l % 65536) (r.shadowed.contains l)))))) ∧
      (b.sched.lswEn = false → l < b.sched.layers.length → (∀ m, (s.core n).mark = some m → m ≤ l) →
        ∃ t r', exec (.layerMark n w) s = .next t ∧ t.core n = advance { s.core n with mark := some l } ∧
          t.mem.bytes = s.mem.bytes ∧ t.run (s.partOfCore n) = some r' ∧ r'.judged.contains l = true ∧
          (r.judged.contains l = true → t.mig.miss = s.mig.miss ∧ t.mig.evt = s.mig.evt) ∧
          (r.judged.contains l = false →
            ((layerPages s (s.partOfCore n) b.sched l).all fun e => residentIn s (s.partOfCore n) e.1) = false →
            t.mig.miss = bump s.mig.miss (s.partOfCore n) 1 ∧ bit t.mig.evt (s.partOfCore n) = true))) ∧
    (∀ page f found u, s.mem.flights.find? (fun f => f.page == page) = some f → s.flt.hubHold = false → s.stageWaits page = false →
      ((s.jobs.parts.getD f.partition {}).writeback = true →
        exec (.pageCopyDone page found) s = .next (settle (s.activity.landBack f.partition (· == f) found))) ∧
      ((s.jobs.parts.getD f.partition {}).writeback = false →
      u = (s.endStaging page).2.activity.land f (s.endStaging page).1 found →
      exec (.pageCopyDone page found) s = .next (settle ((u.serve f.partition).launchJob f.partition found)) ∧
        (Memory.wf 0 s.mem.bytes = true → s.mem.check = [] → ∀ a, Sparse.get 0 u.mem.bytes a = Sparse.get 0 s.mem.bytes a) ∧
        u.mig.copied = sat64 (s.mig.copied + 1) ∧ u.mem.flights = s.mem.flights.erase f)) ∧
    (∀ page found, s.mem.flights.any (fun f => f.page == page) = true → s.flt.hubHold = true ∨ s.stageWaits page = true →
      exec (.pageCopyDone page found) s = .next (settle s))

/-- A grant of a hub resource goes to the active source whose credit is largest once every active source has had its weight added, the
lowest source number among equals, and costs it the sum of the weights; a die passes it to its next active core. However long the
requests stand, no source gets more than its share of the grants and one more. A step without a command grants each resource, and
arbitration changes nothing else of the module.
Choices of the model: log 33, log 108. -/
def Obligations.ArbiterGrants : Prop :=
  (∀ (a : Arb) (ws : List (Nat × Nat)) (cores : List (List Nat)), ws.Pairwise (fun e f => e.1 < f.1) →
    ((∀ e ∈ ws, e.2 = 0) → (a.grant ws cores).source = none ∧ (a.grant ws cores).credits = []) ∧
    ((∃ e ∈ ws, e.2 ≠ 0) → ∃ b ∈ ws, (a.grant ws cores).source = some b.1 ∧ b.2 ≠ 0 ∧
      (∀ e ∈ ws, e.2 ≠ 0 → a.credit e.1 + e.2 ≤ a.credit b.1 + b.2 ∧ (a.credit e.1 + e.2 = a.credit b.1 + b.2 → b.1 ≤ e.1) ∧
        (a.grant ws cores).credit e.1 = a.credit e.1 + e.2 - (if e.1 = b.1 then (ws.map (·.2)).sum else 0)) ∧
      (b.1 < 4 → b.1 < a.last.length → (a.grant ws cores).core = nextCore (cores.getD b.1 []) (a.last.getD b.1 none) ∧
        (a.grant ws cores).last.getD b.1 none = (a.grant ws cores).core))) ∧
  (∀ (ws : List (Nat × Nat)) (cores : List (List Nat)) (k : Nat), ws.Pairwise (fun e f => e.1 < f.1) → ∀ e ∈ ws, e.2 ≠ 0 →
    let n := (ws.map (·.2)).sum
    let g := (Arb.grants ws cores k {}).2.count e.1
    n * g < k * e.2 + n ∧ (Arb.grants ws cores k {}).1.credit e.1 = (k * e.2 : Int) - n * g) ∧
  (∀ (s : State), s.pending = [] →
    (s.phys.on = false → step s = .next s) ∧
    (s.phys.on = true → ∃ t, step s = .next t ∧ t = { s with time := s.time + 1, mig := t.mig } ∧
      t.mig = { s.mig with arbs := t.mig.arbs, arbWeight := t.mig.arbWeight } ∧
      (∀ i (a : Arb), s.mig.arbs[i]? = some a →
        t.mig.arbs[i]? = some (Arb.grant a (s.weights i) ((List.range 4).map (s.coresAsking i)))) ∧
      ((∃ e ∈ s.weights 0, e.2 ≠ 0) → t.mig.arbWeight = weightWord (s.weights 0))))

/-- The step builder's pass runs only where every active core has arrived: a batch job resumes its cores at STEP_ENTRY with its
step number in X1, a generation job runs the pass of 08 R224, a query-service job replies to its step's queries and packs the
next ones; between the encode and the post phase every packed query is searched. A generation job's pass waits for the gate cells that it
reads on other modules, and any pass for a core that a self-test has borrowed.
Choices of the model: log 22, log 38. -/
def Obligations.PassAndPhases : Prop :=
  ∀ (s : State) (p : Nat) (r : Run) (b : Bundle), s.run p = some r → s.bundle r.bundle = some b →
    (∀ reads gates found, r.phase ≠ .boundary → r.phase ≠ .held →
      exec (.atomicPass p reads gates found) s = .next (settle s)) ∧
    (∀ reads gates found, r.borrow ≠ none → exec (.atomicPass p reads gates found) s = .next (settle s)) ∧
    (∀ reads gates found, r.state = .running → r.phase = .boundary ∨ r.phase = .held → r.borrow = none → passIdle b r gates = false →
      gatesWait s p b r = true → exec (.atomicPass p reads gates found) s =
        .next ((settle ((s.withFound found).askGates p r)).withFound s.mem.found)) ∧
    (∀ reads gates found, r.state = .running → r.phase = .boundary → r.borrow = none → b.kind = 0 → r.first = false → r.pendings = [] →
      r.cores.Nodup → (∀ k ∈ r.cores, k < s.cores.length) →
      ∃ t r', exec (.atomicPass p reads gates found) s = .next t ∧ t.run p = some r' ∧ r'.phase = .run ∧
        r'.step = r.step + 1 ∧ r'.steps = r.steps + 1 ∧ t.mem = s.mem ∧
        (∀ k ∈ r.cores, (t.core k).run = .running ∧ (t.core k).pc = b.view.stepEntry ∧ (t.core k).loops = [] ∧
          ((s.core k).x.length = 16 → getX (t.core k) 1 = r.step % 2 ^ 32 ∧
            ∀ j, 6 ≤ j → getX (t.core k) j = getX (s.core k) j)) ∧
        (∀ k, r.cores.contains k = false → t.core k = s.core k)) ∧
    (∀ reads gates found, r.phase = .held → passIdle b r gates = true → exec (.atomicPass p reads gates found) s = .next (settle s)) ∧
    (∀ reads gates found kv s0 s1, r.state = .running → r.phase = .boundary ∨ r.phase = .held → r.borrow = none →
      passIdle b r gates = false → gatesWait s p b r = false → b.kind = 1 → b.kv = some kv → s0 = s.withFound found →
      s1 = (if closesStep r then
        (s0.setRun p fun r => { r with steps := r.steps + 1 }).histogram (6 + p) (s0.time - r.stepStart) else s0) →
      (∀ t, genPass p b kv r reads found s1 = .ok t → exec (.atomicPass p reads gates found) s =
        .next ((settle ((t.setRun p fun r => { r with gates := [] }).snapshot.lend p)).withFound s.mem.found)) ∧
      (∀ f t, genPass p b kv r reads found s1 = .error (f, t) → exec (.atomicPass p reads gates found) s =
        .next ((settle ((t.latch (.job p) f).snapshot)).withFound s.mem.found))) ∧
    (∀ reads gates found s0 s1, r.state = .running → r.phase = .boundary ∨ r.phase = .held → r.borrow = none → b.kind = 2 →
      s0 = s.withFound found →
      s1 = (if closesStep r then
        (s0.setRun p fun r => { r with steps := r.steps + 1 }).histogram (6 + p) (s0.time - r.stepStart) else s0) →
      exec (.atomicPass p reads gates found) s = .next ((settle ((queryPass p b r s1).lend p)).withFound s.mem.found)) ∧
    (∀ found u, r.state = .running → r.phase = .search → u = applyFindings found (s.withFound found) →
      (∀ t, searchAll r b (s.packed r.number) u = .ok t →
        exec (.querySearchPhase p found) s = .next ((settle (t.setRun p fun r => { r with
          phase := if b.view.postEntry = 0xFFFF then .boundary else .post })).withFound s.mem.found)) ∧
      (∀ a, searchAll r b (s.packed r.number) u = .error a →
        exec (.querySearchPhase p found) s = .next ((settle (u.latch (.job p)
          { status := 0x0F03, addr := a, space := .device })).withFound s.mem.found))) ∧
    (r.state = .running → r.phase = .post → r.cores.Nodup → (∀ k ∈ r.cores, k < s.cores.length) →
      ∃ t r', exec (.queryPostPhase p) s = .next t ∧ t.run p = some r' ∧ r'.phase = .run ∧ r'.posted = true ∧ t.mem = s.mem ∧
        ∀ k ∈ r.cores, (t.core k).run = .running ∧ (t.core k).pc = b.view.postEntry)

/-- JOB_DISPATCH takes the partition's next job: its cores run its program from PC 0 with their rank in X6 and their number in
X7, once the pages that its dispatch stages have all arrived; a job that 07 R201 turns away ends with the status. A module that sleeps
wakes first.
Choices of the model: log 23, log 53. -/
def Obligations.JobDispatches : Prop :=
  ∀ (s : State) (p : Nat) (q : QueuedJob) (b : Bundle), s.sized → s.gen.layout ≤ 2 → mayDispatch s p = true →
    nextJob s p = some q → q.resume = false → s.bundle q.handle = some b → ∀ found,
    (s.awake = false → exec (.jobDispatch ⟨p, found⟩) s = .next (settle (s.wake 1))) ∧
    (s.awake = true → ∀ e, dispatchCheck s q b none (activeCores s p) = some e →
      exec (.jobDispatch ⟨p, found⟩) s = .next (settle (s.dropQueued q e))) ∧
    (s.awake = true → dispatchCheck s q b none (activeCores s p) = none →
      ∃ t r, exec (.jobDispatch ⟨p, found⟩) s = .next t ∧ t.jobs.queue = s.jobs.queue.erase q ∧ t.run p = some r ∧
        r.number = q.number ∧ r.bundle = b.handle ∧ r.cmd = q.cmd ∧ r.seq = q.seq ∧ r.grants = q.grants ∧ r.binds = q.binds ∧
        r.state = (if t.mem.flights.any fun f => f.partition == p then .dispatching else .running) ∧ r.phase = .run ∧
        r.cores = activeCores s p ∧ t.mig.lastJob = modifyAt s.mig.lastJob p (fun _ => q.number) ∧
        (∀ i k, (activeCores s p)[i]? = some k → (t.core k).run = .running ∧ (t.core k).pc = 0 ∧
          getX (t.core k) 6 = i ∧ getX (t.core k) 7 = (activeCores s p).length ∧
          (t.core k).store = b.view.programs.getD (b.view.rankMap.getD i 0) []) ∧
        (∀ k, (activeCores s p).contains k = false → t.core k = s.core k))

/-- A job that has ended by itself, one that all of its cores have halted among them, and one whose cocoon is written leave their
partition: its cores are idle, its flag JOB_END stands, and a parked job's cocoon is kept. WRITEBACK_DONE lets the copies under way of the
write-back of an ended job arrive: the bytes stay as they are, and once nothing of the partition stays in stacked memory the write-back
ends, and MIG_EVT says so.
Choices of the model: log 54. -/
def Obligations.JobsLeave : Prop :=
  (∀ (s : State) (p : Nat) (r : Run) (b : Bundle), s.sized → s.evc.part.length = 4 → s.run p = some r →
      s.bundle r.bundle = some b →
      (r.state = .ending → (∃ k ∈ r.cores, (s.core k).run ≠ .halted) → ∀ reads found,
        ∃ t, exec (.jobEnded p reads found) s = .next t ∧ t.run p = none ∧ (t.evc.part.getD p {}).jobEnd = true ∧
          (t.evc.part.getD p {}).job = r.number ∧ (∀ k ∈ s.coresOf p, k < 96 → (t.core k).run = .idle) ∧
          (∀ k, k ∉ s.coresOf p → t.core k = s.core k) ∧ t.fl.zones = s.fl.zones) ∧
      (r.state = .ending → (∀ k ∈ r.cores, (s.core k).run = .halted) → ∀ reads found,
        (b.kind = 0 → closeHalted p b r reads found (s.withFound found) = .ok (s.withFound found)) ∧
        (∀ u, closeHalted p b r reads found (s.withFound found) = .ok u → u.evc.part.length = 4 → u.cores.length = 96 →
          ∃ t, exec (.jobEnded p reads found) s = .next t ∧ t.run p = none ∧ (t.evc.part.getD p {}).jobEnd = true ∧
            (t.evc.part.getD p {}).job = r.number ∧ (∀ k ∈ u.coresOf p, k < 96 → (t.core k).run = .idle) ∧
            (∀ k, k ∉ u.coresOf p → t.core k = u.core k)) ∧
        (∀ f u, closeHalted p b r reads found (s.withFound found) = .error (f, u) →
          exec (.jobEnded p reads found) s = .next ((settle (u.latch (.job p) f)).withFound s.mem.found))) ∧
      (r.state = .parking → ∀ live found ranks u, (ranks, u) = readRanks b live r.cores (s.copyPrivate r found) →
        ∃ t, exec (.cocoonWritten ⟨⟨p, live⟩, found⟩) s = .next t ∧ t.run p = none ∧
          t.jobs.cocoons = s.jobs.cocoons ++ [cocoonOf u p r ranks] ∧
          (t.evc.part.getD p {}).jobEnd = true ∧ (t.evc.part.getD p {}).job = r.number ∧
          (∀ k ∈ s.coresOf p, k < 96 → (t.core k).run = .idle)) ∧
      (r.state = .running → (∀ live found, exec (.cocoonWritten ⟨⟨p, live⟩, found⟩) s = .next (settle s)) ∧
        ∀ reads found, exec (.jobEnded p reads found) s = .next (settle s))) ∧
  (∀ (s : State) (p : Nat) (found : List Finding), (s.jobs.parts.getD p {}).writeback = true → s.flt.hubHold = false →
      ∃ t, exec (.writebackDone p found) s = .next t ∧
        (Memory.wf 0 s.mem.bytes = true → s.mem.check = [] → ∀ a, Sparse.get 0 t.mem.bytes a = Sparse.get 0 s.mem.bytes a) ∧
        t.mem.allocs = s.mem.allocs ∧ t.cores = s.cores ∧
        ((∀ x ∈ s.mem.resident, x.2.of p = true → (∃ d, x.2 = .stacked d true p) ∧ ∃ f ∈ s.mem.flights, f.partition = p ∧ f.page = x.1) →
          (t.jobs.parts.getD p {}).writeback = false ∧ t.mig.evt = setBit s.mig.evt (8 + p) ∧
          (∀ x ∈ t.mem.resident, x.2.of p = false) ∧ (∀ f ∈ t.mem.flights, f.partition ≠ p)) ∧
        ((∃ x ∈ s.mem.resident, x.2.of p = true ∧ ∀ f ∈ s.mem.flights, f.partition = p → f.page ≠ x.1) →
          (t.jobs.parts.getD p {}).writeback = true))

/-- FAULT_DETECT confines the oldest fault: its record is written with its number, class and time, FLT_EVT and SB_ALERT say so,
and its job is gone with its cores idle and JOB_FAULT set. -/
def Obligations.FaultConfined : Prop :=
  ∀ (s : State) (d : Detection) (rest : List Detection), s.sized → s.evc.part.length = 4 →
    s.flt.detections = d :: rest →
    (∀ p r reads, d.scope = .job p → s.run p = some r →
      ∃ t, exec (.faultDetect reads) s = .next t ∧ t.run p = none ∧ (t.evc.part.getD p {}).jobFault = true ∧
        (t.evc.part.getD p {}).job = r.number ∧ bit t.flt.evt 0 = true ∧ bit t.phys.sbAlert 1 = true ∧
        t.flt.records.getLast? = some (d.record s.time true p) ∧
        (∀ k ∈ s.coresOf p, k < 96 → (t.core k).run = .idle)) ∧
    (∀ c reads, d.scope = .command c →
      exec (.faultDetect reads) s = .next (settle (({ s with flt := { s.flt with detections := rest } }.writeFaultRecord
        (d.record s.time false 0)).replyRec c d.info.status d.number (some d.number)))) ∧
    (∀ reads, d.scope = .nothing →
      ∃ t, exec (.faultDetect reads) s = .next t ∧ t.flt.records.getLast? = some (d.record s.time false 0) ∧
        bit t.flt.evt 0 = true ∧ t.cores = s.cores ∧ t.jobs = s.jobs ∧ t.mem = s.mem)

/-! ## The device range (09 R242-R253; 10 R279-R299) -/

/-- BAR2: a read of an existing address that no aperture covers returns its bytes, or a poisoned completion, as its granules decode; a
write of an allocated page stores its bytes there, and a write of whole granules nowhere else; an aperture sends either to its peer; any
other access is dropped, and a dropped read returns 0xFF. A request that crosses a 4 KiB bound does nothing; while memory is in
self-refresh a request waits for the wake that it brings, and requests wait in order, with the address and the aperture of their arrival,
for tags and behind the read of a granule that an earlier write merges into.
Choices of the model: log 60, log 128. -/
def Obligations.Bar2Accesses : Prop :=
  ∀ (s : State) (off a : Nat), a = (s.mig.bar2Base + off) % 2 ^ 48 → Memory.wf 0 s.mem.bytes = true →
    (∀ n found, bar2Fits off n = false → exec (.bar2Read off n found) s = .next (settle s)) ∧
    (∀ n bytes found i h, bar2Fits off n = true →
      (bytes = none ∧ i = .bar2Read off n found) ∨ (∃ bs, bytes = some bs ∧ bs.length = n ∧ i = .bar2Write off bs found) →
      h = (⟨a, s.aperture a, n, bytes, found⟩ : HeldBar2) → s.mem.bar2Held ≠ [] ∨ s.bar2Stuck h = true →
      ∃ t, exec i s = .next t ∧ t.mem = { s.mem with bar2Held := s.mem.bar2Held ++ [h] } ∧ t.mig = s.mig ∧ t.cores = s.cores ∧
        (s.pwr.entering = none → 2 ≤ s.pwr.ps → t.pwr.exiting = true)) ∧
    (s.mem.bar2Held = [] →
    (∀ n found w, bar2Fits off n = true → s.aperture a = some w → s.bar2Stuck ⟨a, some w, n, none, found⟩ = false →
      exec (.bar2Read off n found) s = .next (settle (bar2Remote a n w s.activity))) ∧
    (∀ bs found w, bar2Fits off bs.length = true → s.aperture a = some w →
      s.bar2Stuck ⟨a, some w, bs.length, some bs, found⟩ = false →
      exec (.bar2Write off bs found) s = .next (settle (bar2RemoteWrite a bs w s.activity))) ∧
    (∀ n found bs bad u, bar2Fits off n = true → s.aperture a = none → s.bar2Stuck ⟨a, none, n, none, found⟩ = false →
      s.served a = true → ((bs, bad), u) = s.activity.devRead a n found →
      exec (.bar2Read off n found) s = .next (settle { (if bad then u.aerLog .poisoned else u) with
        mem := { u.mem with completion := some ⟨bs, bad⟩ } }) ∧
      ((∀ g, a / 64 ≤ g → g ≤ (a + n - 1) / 64 →
          if s.fromZone g then blockLost g found = false ∧ ∀ b, s.blockOf (g * 64) = some b → s.wordBad b = false
          else s.decode g found = .clean) →
        bs = s.devBytes a n ∧ bad = false ∧ u.mem = s.mem ∧ u.mig = s.mig)) ∧
    (∀ n found, bar2Fits off n = true → s.aperture a = none → s.bar2Stuck ⟨a, none, n, none, found⟩ = false → s.served a = false →
      ∃ t, exec (.bar2Read off n found) s = .next t ∧
        t.mem = { s.mem with completion := some ⟨List.replicate n 0xFF, false⟩ } ∧
        t.mig.bar2Drop = sat64 (s.mig.bar2Drop + 1) ∧ bit t.mig.evt 12 = true) ∧
    (∀ bs found u, bar2Fits off bs.length = true → s.aperture a = none → s.bar2Stuck ⟨a, none, bs.length, some bs, found⟩ = false →
      (s.allocated a && !s.inRegion a) = true →
      u = s.activity.devWrite a bs found →
      exec (.bar2Write off bs found) s = .next (settle u) ∧
      u.mem.allocs = s.mem.allocs ∧ u.mig = s.mig ∧ u.cores = s.cores ∧
      (a % 64 = 0 → bs.length % 64 = 0 →
        (∀ i, i < bs.length → Sparse.get 0 u.mem.bytes (a + i) = bs.getD i 0) ∧
        (∀ x, x < a ∨ a + bs.length ≤ x → Sparse.get 0 u.mem.bytes x = Sparse.get 0 s.mem.bytes x))) ∧
    (∀ bs found, bar2Fits off bs.length = true → s.aperture a = none → s.bar2Stuck ⟨a, none, bs.length, some bs, found⟩ = false →
      (s.allocated a && !s.inRegion a) = false →
      ∃ t, exec (.bar2Write off bs found) s = .next t ∧ t.mem = s.mem ∧ t.mig.bar2Drop = sat64 (s.mig.bar2Drop + 1) ∧
        bit t.mig.evt 12 = true))

/-- MEM_ALLOC allocates free pages, which read as zero, and leaves every other byte; MEM_FREE releases pages that nothing uses;
both turn away what 09 R250 forbids, with its status, and then change no memory: a range outside the general window, one that overlaps
an allocation, more pages than are free; pages that something uses, pages that are not all allocated.
Choices of the model: log 59. -/
def Obligations.AllocationCommands : Prop :=
  ∀ (s : State) (h : HostCmd) (c : Cmd), Memory.wf 0 s.mem.bytes = true →
    (Begun s h 0x40 c →
      (generalRange c.addr (c.dw 6) = false → exec (.memAlloc h) s = .next (settle ((s.mark h).reply h.ref 0x0402 0))) ∧
      (generalRange c.addr (c.dw 6) = true → (∃ a ∈ s.mem.allocs, 0 < heldPages (c.addr / pageBytes) (c.dw 6) a) →
        exec (.memAlloc h) s = .next (settle ((s.mark h).reply h.ref 0x0402 0))) ∧
      (generalRange c.addr (c.dw 6) = true → (∀ a ∈ s.mem.allocs, heldPages (c.addr / pageBytes) (c.dw 6) a = 0) →
        (s.boardFree < c.dw 6 → exec (.memAlloc h) s = .next (settle ((s.mark h).reply h.ref 0x0401 0))) ∧
        (c.dw 6 ≤ s.boardFree → ∃ t, exec (.memAlloc h) s = .next t ∧
          t.mem.allocs = s.mem.allocs ++ [⟨c.addr / pageBytes, c.dw 6, .host⟩] ∧
          (∀ a, Sparse.get 0 t.mem.bytes a = if c.addr ≤ a ∧ a < c.addr + c.dw 6 * pageBytes then 0
            else Sparse.get 0 s.mem.bytes a)))) ∧
    (Begun s h 0x41 c → generalRange c.addr (c.dw 6) = false →
      exec (.memFree h) s = .next (settle ((s.mark h).reply h.ref 0x0402 0))) ∧
    (Begun s h 0x41 c → generalRange c.addr (c.dw 6) = true →
      (s.pagesInUse (c.addr / pageBytes) (c.dw 6) = false →
        s.mem.allocs.foldl (fun k a => k + heldPages (c.addr / pageBytes) (c.dw 6) a) 0 < c.dw 6 →
        exec (.memFree h) s = .next (settle ((s.mark h).reply h.ref 0x0403 0))) ∧
      (s.pagesInUse (c.addr / pageBytes) (c.dw 6) = true →
        exec (.memFree h) s = .next (settle ((s.mark h).reply h.ref 0x0404 0))) ∧
      (s.pagesInUse (c.addr / pageBytes) (c.dw 6) = false →
        c.dw 6 ≤ s.mem.allocs.foldl (fun k a => k + heldPages (c.addr / pageBytes) (c.dw 6) a) 0 →
        exec (.memFree h) s = .next (settle (((s.mark h).freePages (c.addr / pageBytes) (c.dw 6)).ok h.ref 0))))

/-- MEM_MAP_ZONE takes the lowest free mapping for full blocks, MEM_UNMAP frees an unused one, MEM_QUERY writes the states of its
pages to its buffer and changes no memory.
Choices of the model: log 59. -/
def Obligations.MappingCommands : Prop :=
  ∀ (s : State) (h : HostCmd) (c : Cmd),
    (Begun s h 0x42 c → flashRange c.addr (c.dw 6) = true → c.qw 7 % 512 = 0 → c.qw 7 + 512 * c.dw 6 ≤ numZones * zoneBlocks →
      (∀ m ∈ s.mem.maps, overlap (c.addr / pageBytes) (c.addr / pageBytes + c.dw 6) m.2.page (m.2.page + m.2.pages) = false) →
      ∀ i, lowestFree 4096 (fun i => (Sparse.find s.mem.maps i).isSome) = some i →
      (mapBlocks s (c.qw 7) (512 * c.dw 6) = false →
        exec (.memMapZone h) s = .next (settle ((s.mark h).reply h.ref 0x0405 0))) ∧
      (mapBlocks s (c.qw 7) (512 * c.dw 6) = true →
        exec (.memMapZone h) s = .next (settle (({ (s.mark h) with mem := { s.mem with
          maps := Sparse.put s.mem.maps i ⟨c.addr / pageBytes, c.dw 6, c.qw 7, none⟩ } } : State).ok h.ref i)))) ∧
    (Begun s h 0x43 c →
      (Sparse.find s.mem.maps (bits c.handle 0 12) = none →
        exec (.memUnmap h) s = .next (settle ((s.mark h).reply h.ref 0x0403 0))) ∧
      (∀ m, Sparse.find s.mem.maps (bits c.handle 0 12) = some m →
        (mapInUse s (bits c.handle 0 12) m = true →
          exec (.memUnmap h) s = .next (settle ((s.mark h).reply h.ref 0x0404 0))) ∧
        (mapInUse s (bits c.handle 0 12) m = false →
          exec (.memUnmap h) s = .next (settle (((s.mark h).unmap (bits c.handle 0 12) m).ok h.ref 0))))) ∧
    (Begun s h 0x44 c → ∀ n, n = bits (c.dw 6) 0 17 → n ≤ 65536 → 4 * n ≤ c.len 0 →
      generalRange c.addr n = true ∨ flashRange c.addr n = true →
      exec (.memQuery h) s = .next (settle (((s.mark h).hostData h.ref 0 ((List.range n).flatMap fun i =>
        leBytes 4 (pageState s (c.addr / pageBytes + i)))).ok h.ref n)))

/-- MEM_SCRUB starts a range scrub, or it waits for one of four; SCRUB_COMPLETE replies with its counts; the background scrubber
reads its next frame in REPAIR mode, keeps its position there, and pauses while a range scrub runs; the sweep of reserved memory counts
its corrected errors and faults the jobs a lost granule describes.
Choices of the model: log 29, log 63. -/
def Obligations.Scrubs : Prop :=
  ∀ (s : State),
    (∀ h c unit, Begun s h 0x45 c → 1 ≤ c.dw 6 → c.addr % unit = 0 →
      (unit = pageBytes ∧ (c.addr + c.dw 6 * pageBytes ≤ kvBase ∨ flashBase ≤ c.addr ∧ c.addr + c.dw 6 * pageBytes ≤ 2 ^ 48)) ∨
        (unit = 65536 ∧ kvBase ≤ c.addr ∧ c.addr + c.dw 6 * 65536 ≤ kvEnd) →
      (c.has 0 = true → 32 ≤ c.len 0) →
      exec (.memScrub h) s = .next (settle ((({ (s.mark h) with ecc := { s.ecc with scrubs := s.ecc.scrubs ++
        [{ cmd := h.ref, addr := c.addr, pages := c.dw 6, unit := unit, repair := bit (c.dw 7) 0, running := false,
           record := c.has 0 }] } } : State).startScrubs).wake 1))) ∧
    (((runScrubs s.ecc.scrubs (s.ecc.scrubs.filter (·.running)).length).filter (·.running)).length ≤
      max 4 (s.ecc.scrubs.filter (·.running)).length) ∧
    (∀ qid cid sc found k u, s.ecc.scrubs.find? (fun c => c.cmd == ⟨qid, cid⟩ && c.running) = some sc →
      scrubRange s sc (scrubSize s sc + 1) found = (k, u) →
      exec (.scrubComplete qid cid found) s = .next (settle ((if sc.record then
          (u.endScrub sc.cmd).hostData sc.cmd 0 (scrubRecord k) else u.endScrub sc.cmd).ok sc.cmd
        (sat32 k.corrected + 2 ^ 32 * sat32 (k.bad + k.poisoned))))) ∧
    (∀ found, s.ecc.scbEn = false ∨ (s.ecc.scrubs.any (·.running)) = true ∨ 2 ≤ s.pwr.ps ∨ scbNext s = none →
      exec (.backgroundScrubFrame found) s = .next (settle s)) ∧
    (∀ found tier a n pl again one last, s.ecc.scbEn = true → (s.ecc.scrubs.any (·.running)) = false → s.pwr.ps < 2 →
      scbNext s = some ((tier, a, n, pl), again) → last = !((scbWalk s).any (scbPast (some (tier, a)))) →
      one = (if again && !s.ecc.scbWalked then sat64 (s.ecc.scbPasses + 1) else s.ecc.scbPasses) →
      ∃ t, exec (.backgroundScrubFrame found) s = .next t ∧ t.ecc.scbAt = some (tier, a) ∧ t.ecc.scbWalked = last ∧
        t.ecc.scbPasses = (if last then sat64 (one + 1) else one) ∧ t.cores = s.cores ∧ t.jobs = s.jobs ∧
        t.mem.allocs = s.mem.allocs) ∧
    (∀ k ps, 0 < k → k ≤ reservedStrength → exec (.reservedMemorySweep [] [(k, ps)]) s =
      .next (settle (State.countCe { s with mem := { s.mem with reservedBad := [] } } 4))) ∧
    (∀ p r k, s.sized → s.run p = some r → r.state ≠ .faulted → reservedStrength < k →
      ∃ t r', exec (.reservedMemorySweep [] [(k, [p])]) s = .next t ∧ t.mem.reservedBad = [p] ∧ t.mem.bytes = s.mem.bytes ∧
        t.run p = some r' ∧ r'.state = .faulted ∧
        ∃ d ∈ t.flt.detections, d.scope = .job p ∧ d.job = r.number ∧ d.info.status = 0x0F02)

/-- The checker test commands act at PL0 with EN set and a target that is idle and in range: WRITE_RAW plants the buffers
verbatim, READ_RAW and READ_CHECKED fill them; a command that may not act reports its error and changes nothing else. Disabling
test mode clears EN and leaves board pages as they are.
Choices of the model: log 30, log 64. -/
def Obligations.CheckerTestMode : Prop :=
  ∀ (s : State) (gs : List (Nat × Nat)), gs = (List.range s.ecc.count).map (fun i => (i, s.ecc.target / 64 + i)) →
    (s.gen.pl ≠ 0 → testError s = 1) ∧
    (testError s ≠ 0 → exec .writeRaw s = .next (settle (s.activity.testFlags (4 * testError s))) ∧
      exec .readRaw s = .next (settle (s.activity.testFlags (4 * testError s))) ∧
      ∀ found, exec (.readChecked found) s = .next (settle (s.activity.testFlags (4 * testError s)))) ∧
    (∀ v, v < 2 ^ 16 → bits (s.testFlags v).ecc.testResult 0 16 = v ∧
      bits (s.testFlags v).ecc.testResult 16 32 = bits s.ecc.testResult 16 32) ∧
    (testError s = 0 → ∀ u, u = gs.foldl (fun (t : State) (g : Nat × Nat) => writeRaw t g.2
        (Sparse.getList 0 t.ecc.testData (64 * g.1) 64) (Sparse.getList 0 t.ecc.testCheck (8 * g.1) 8)) s.activity →
      exec .writeRaw s = .next (settle ((u.testFlags 2).eccEvt 14)) ∧ u.jobs = s.jobs ∧ u.fl = s.fl ∧
      (s.ecc.tier = 4 → Memory.wf 0 s.mem.bytes = true → u.cores = s.cores ∧
        (∀ a, a < s.ecc.target ∨ s.ecc.target + 64 * s.ecc.count ≤ a → Sparse.get 0 u.mem.bytes a = Sparse.get 0 s.mem.bytes a) ∧
        (∀ i, i < 64 * s.ecc.count → Sparse.get 0 u.mem.bytes (s.ecc.target + i) = Sparse.get 0 s.ecc.testData i))) ∧
    (testError s = 0 → ∀ u, u = gs.foldl (fun (t : State) (g : Nat × Nat) => readRaw t g.1 g.2) s.activity →
      exec .readRaw s = .next (settle ((u.testFlags 2).eccEvt 14)) ∧ u.jobs = s.jobs ∧ u.fl = s.fl ∧ u.cores = s.cores ∧ u.mem = s.mem ∧
      (Memory.wf 0 s.ecc.testData = true → ∀ i j, i < s.ecc.count → j < 64 →
        Sparse.get 0 u.ecc.testData (64 * i + j) = (rawData s (s.ecc.target / 64 + i)).getD j 0)) ∧
    (testError s = 0 → ∀ found u, u = gs.foldl (fun (t : State) (g : Nat × Nat) => readChecked found t g.1 g.2)
        { s.activity with ecc := { s.ecc with testResult := 0 } } →
      exec (.readChecked found) s = .next (settle ((u.testFlags 2).eccEvt 14)) ∧ u.jobs = s.jobs ∧ u.fl = s.fl ∧ u.cores = s.cores ∧
      u.mem = s.mem) ∧
    (exec .eccTestDisable s = .next (settle s.activity.testOff) ∧ bit s.testOff.ecc.testCtrl 0 = false ∧ s.testOff.mem.bytes = s.mem.bytes ∧
      s.testOff.mem.check = s.mem.check ∧ s.testOff.mem.stackRaw = [] ∧ s.testOff.mem.stackCheck = [])

/-! ## Queues (14 R403-R438; 16 R467) -/

/-- A submission tail within the ring is taken; a completion head that frees no more than was written takes its replies away; a
value outside freezes the queue with DOORBELL in the error log. A reply is written into the next completion entry of its queue with the
phase of the ring, its command's CID and range lock are free, and a freezing status freezes the queue, returns what had not begun, and
enters the error log.
Choices of the model: log 31, log 43, log 82. -/
def Obligations.DoorbellsAndReplies : Prop :=
  (∀ (s : State) (qid v : Nat) (q : Queue), s.queue qid = some q → s.q.restarts = [] →
      (v % 65536 < q.sqDepth → ∃ t, exec (.sqTailDoorbell qid v) s = .next t ∧
        t.queue qid = some { q with sqTail := v % 65536 } ∧ (∀ k, k ≠ qid → t.queue k = s.queue k) ∧ t.q.cmds = s.q.cmds ∧
        t.q.errLog = s.q.errLog ∧ t.cores = s.cores ∧ t.mem = s.mem) ∧
      (v % 65536 < q.cqDepth → (v % 65536 + q.cqDepth - q.cqHead) % q.cqDepth ≤ q.cqTimes.length →
        ∃ t, exec (.cqHeadDoorbell qid v) s = .next t ∧
          t.queue qid = some { q with cqHead := v % 65536, cqTimes := q.cqTimes.drop ((v % 65536 + q.cqDepth - q.cqHead) % q.cqDepth) } ∧
          (∀ k, k ≠ qid → t.queue k = s.queue k) ∧ t.q.cmds = s.q.cmds ∧ t.q.errLog = s.q.errLog) ∧
      (q.frozen = false → ∀ i op, (i = .sqTailDoorbell qid v ∧ op = 0xFF ∧ q.sqDepth ≤ v % 65536) ∨
          (i = .cqHeadDoorbell qid v ∧ op = 0xFE ∧ q.cqDepth ≤ v % 65536) →
        ∃ t q' e, exec i s = .next t ∧ t.queue qid = some q' ∧ q'.frozen = true ∧ q'.failIndex = v % 65536 ∧
          q'.cqTail = q.cqTail ∧ t.hostOut = s.hostOut ∧ t.q.errLog.getLast? = some e ∧ e.status = 0x0208 ∧ e.opcode = op ∧
          e.qid = qid ∧ e.cid = 0xFFFF ∧ t.q.errSeq = s.q.errSeq + 1)) ∧
  (∀ (s : State) (c : Cmd) (q : Queue) (st res : Nat) (rec_ : Option Nat), s.queue c.qid = some q →
      (∃ t, t = s.replyTo c st res rec_ ∧
        t.hostOut = s.hostOut ++ [.reply q.cqBase q.cqTail (res % 2 ^ 64)
          (if freezing q.freezeMask st = true ∧ q.frozen = false then
            (match (s.q.cmds.erase c).filter (fun d => d.qid == c.qid && !d.begun) with | d :: _ => d.index | [] => q.sqHead)
          else q.sqHead) c.cid st c.qid q.phase] ∧
        ∃ q', t.queue c.qid = some q' ∧ q'.cqTail = (q.cqTail + 1) % q.cqDepth ∧ q'.cqTimes = q.cqTimes ++ [s.time] ∧
          q'.phase = (if q.cqTail + 1 = q.cqDepth then !q.phase else q.phase) ∧
          q'.frozen = (q.frozen || freezing q.freezeMask st) ∧
          (freezing q.freezeMask st = true → q.frozen = false → q'.failIndex = c.index)) ∧
      (freezing q.freezeMask st = false ∨ q.frozen = true → (s.replyTo c st res rec_).q.cmds = s.q.cmds.erase c) ∧
      (freezing q.freezeMask st = true → q.frozen = false →
        (s.replyTo c st res rec_).q.cmds = (s.q.cmds.erase c).filter fun d => !(d.qid == c.qid && !d.begun)) ∧
      (freezing q.freezeMask st = false → (s.replyTo c st res rec_).q.errLog = s.q.errLog) ∧
      (freezing q.freezeMask st = true → ∃ e, (s.replyTo c st res rec_).q.errLog.getLast? = some e ∧ e.status = st ∧ e.cid = c.cid ∧
        e.qid = c.qid ∧ e.sqIndex = c.index ∧ e.seq = s.q.errSeq ∧ e.record = rec_ ∧ e.froze = !q.frozen))

/-- A fetch round takes packets queue by queue, in ascending number: all that the admin queue has and has room for, up to WEIGHT of another's,
in the order of their ring. A command that need not wait begins where its checks pass, in the order of 16 R467, and replies the first that fails.
Choices of the model: log 40. -/
def Obligations.FetchAndBegin : Prop :=
  ∀ (s : State) (qid : Nat) (q : Queue),
    (∀ ws reads, s.q.queues = [(qid, q)] → qid ≠ 0 → q.weight = 1 → q.frozen = false → q.sqHead ≠ q.sqTail →
      s.fetchPaused = false → s.inUse qid q < q.cqDepth - 1 →
      reads.find? (fun r => r.qid == qid && r.index == q.sqHead) = some ⟨qid, q.sqHead, some ws⟩ →
      ∃ t c, exec (.commandFetch reads) s = .next t ∧ t.q.cmds = s.q.cmds ++ [c] ∧ c.qid = qid ∧ c.cid = (ws.getD 0 0).toNat / 65536 ∧
        c.index = q.sqHead ∧ c.dwords = ws ∧ c.begun = false ∧ c.fetchTime = s.time ∧
        t.queue qid = some { q with sqHead := (q.sqHead + 1) % q.sqDepth } ∧ t.hostOut = s.hostOut) ∧
    (∀ (ws : Nat → Nat → List Word) reads, s.fetchPaused = false → (s.q.queues.Pairwise fun a b => a.1 < b.1) →
      (∀ e ∈ s.q.queues, e.2.frozen = false ∧ e.2.sqHead < e.2.sqDepth ∧ e.2.sqTail < e.2.sqDepth ∧ e.2.sqDepth ≤ 65536 ∧
        ∀ i, i < e.2.sqDepth → reads.find? (fun r => r.qid == e.1 && r.index == i) = some ⟨e.1, i, some (ws e.1 i)⟩) →
      s.q.cmds.length + (s.q.queues.map fun e => s.takes e.1 e.2).sum ≤ 16384 →
      s.locks + (s.q.queues.map fun e => s.takes e.1 e.2).sum ≤ 1024 →
      ∃ t cs, exec (.commandFetch reads) s = .next t ∧ t.q.cmds = s.q.cmds ++ cs ∧ t.hostOut = s.hostOut ∧
        (cs.map fun c => (c.qid, c.index)) = s.q.queues.flatMap (fun e =>
          (List.range (s.takes e.1 e.2)).map fun i => (e.1, (e.2.sqHead + i) % e.2.sqDepth)) ∧
        (∀ c ∈ cs, c.dwords = ws c.qid c.index ∧ c.begun = false ∧ c.fetchTime = s.time) ∧
        (∀ e ∈ s.q.queues, t.queue e.1 = some { e.2 with sqHead := (e.2.sqHead + s.takes e.1 e.2) % e.2.sqDepth })) ∧
    (∀ reads, s.q.queues = [(qid, q)] → q.frozen = true ∨ q.sqHead = q.sqTail → s.q.cmds.any s.wantsLock = false →
      exec (.commandFetch reads) s = .next (settle s)) ∧
    (∀ c reads, s.q.cmds.any s.wantsLock = false → s.q.cmds.find? (fun c => c.qid == qid && !c.begun) = some c →
      (s.beginWaits c = true → exec (.commandBegin qid reads) s = .next (settle s)) ∧
      (∀ descs, s.beginWaits c = false → s.beginCheck c reads = .ok descs →
        ∃ t, exec (.commandBegin qid reads) s = .next t ∧ (∀ d ∈ s.q.cmds, d.seq ≠ c.seq → d ∈ t.q.cmds) ∧
          (∃ d ∈ t.q.cmds, d.qid = qid ∧ d.cid = c.cid ∧ d.begun = true ∧ d.descs = descs ∧ d.dwords = c.dwords ∧ d.lock = c.lock ∧
            (c.dw 0 % 256 = 0x48 → d.keys = s.keysInForce ∧ d.level = s.gen.pl) ∧
            d.job = if 0x61 ≤ c.dw 0 % 256 ∧ c.dw 0 % 256 ≤ 0x63 then s.jobSeq (bits c.handle 0 8) else none)) ∧
      (∀ e, s.beginWaits c = false → s.beginCheck c reads = .error e →
        exec (.commandBegin qid reads) s = .next (settle (s.replyTo c e 0 none).restarts)) ∧
      (fieldMasks (c.dw 0 % 256) = none → s.beginCheck c reads = .error 0x0101) ∧
      ((c.qid == 0) = (decide (c.dw 0 % 256 < 0x20)) → ∀ ms, fieldMasks (c.dw 0 % 256) = some ms →
        (∀ d ∈ s.q.cmds, d ≠ c → d.qid = c.qid → d.cid ≠ c.cid) →
        (s.ready c = false → s.beginCheck c reads = .error 0x0107) ∧
        (s.ready c = true → fieldsOk c ms = false → s.beginCheck c reads = .error 0x0102) ∧
        (s.ready c = true → fieldsOk c ms = true → c.qw 2 = 0 → s.beginCheck c reads = .ok [])))

/-- The admin queue is created and deleted by GEN_AQ_ATTR; the host's queues by QUEUE_CREATE and QUEUE_DELETE; restarts, of queue 0 by a
write of its QST_CTRL, clear the freeze of a drained queue, and in mode DISCARD reply QUEUE_DISCARDED to its waiting entries first; one of a
queue that is not drained waits; COALESCE_TIMER is the instant at which the oldest reply's wait ends.
Choices of the model: log 32, log 82. -/
def Obligations.QueueManagement : Prop :=
  ∀ (s : State) (h : HostCmd) (c : Cmd),
    (∀ v, bit s.gen.aqAttr 32 = false → bit v 32 = true → bits v 0 16 ≠ 0 → bits v 16 16 ≠ 0 →
      ∃ t q, exec (.genAqAttrWrite v) s = .next t ∧ t.queue 0 = some q ∧ q.sqDepth = bits v 0 16 + 1 ∧
        q.cqDepth = bits v 16 16 + 1 ∧ q.sqBase = s.gen.aqSqBase ∧ q.cqBase = s.gen.aqCqBase ∧ q.sqTail = 0 ∧ q.sqHead = 0 ∧
        q.cqTail = 0 ∧ q.cqHead = 0 ∧ q.phase = true ∧ q.frozen = false ∧ q.freezeMask = s.idleMask 0 ∧ bit t.gen.aqAttr 32 = true) ∧
    (∀ v, bit s.gen.aqAttr 32 = true → bit v 32 = false → (∀ d ∈ s.q.cmds, d.qid ≠ 0) →
      (s.q.queues.Pairwise fun a b => a.1 < b.1) →
      ∃ t, exec (.genAqAttrWrite v) s = .next t ∧ t.queue 0 = none ∧ bit t.gen.aqAttr 32 = false) ∧
    (Begun s h 0x10 c → ∀ qid, qid = bits c.handle 0 8 → qid ≠ 0 →
      (s.queue qid ≠ none → exec (.queueCreate h) s = .next (settle ((s.mark h).reply h.ref 0x0202 0))) ∧
      (s.queue qid = none → c.qw 4 % 4096 = 0 → c.qw 6 % 4096 = 0 → bits (c.dw 8) 0 16 ≠ 0 → bits (c.dw 8) 16 16 ≠ 0 →
        bits (c.dw 9) 0 16 &&& 0x7C01 = 0 → bits (c.dw 9) 16 8 ≠ 0 →
        exec (.queueCreate h) s = .next (settle (((s.mark h).addQueue qid
          { sqBase := c.qw 4, cqBase := c.qw 6, sqDepth := bits (c.dw 8) 0 16 + 1, cqDepth := bits (c.dw 8) 16 16 + 1,
            weight := bits (c.dw 9) 16 8, coalCount := bits (c.dw 10) 0 16, coalUs := bits (c.dw 10) 16 16,
            freezeMask := freezeMask (bits (c.dw 9) 0 16) }).ok h.ref 0)))) ∧
    (Begun s h 0x11 c → ∀ qid, qid = bits c.handle 0 8 → qid ≠ 0 → s.queue qid ≠ none →
      ((∃ d ∈ (s.mark h).q.cmds, d.qid = qid) → exec (.queueDelete h) s = .next (settle ((s.mark h).reply h.ref 0x0204 0))) ∧
      ((∀ d ∈ (s.mark h).q.cmds, d.qid ≠ qid) →
        exec (.queueDelete h) s = .next (settle (((s.mark h).dropQueue qid).ok h.ref 0)))) ∧
    (Begun s h 0x12 c → ∀ qid q reads, qid = bits c.handle 0 8 → qid ≠ 0 → s.queue qid = some q →
      (q.frozen = false → exec (.queueRestart h reads) s = .next (settle ((s.mark h).reply h.ref 0x0205 0))) ∧
      (q.frozen = true → q.drained = true → bit (c.dw 4) 0 = false → s.q.restarts = [] → h.ref.qid = 0 →
        ∃ t q', exec (.queueRestart h reads) s = .next t ∧ t.queue qid = some q' ∧ q'.frozen = false ∧ q'.drained = false ∧
          q'.sqHead = q.sqHead ∧ q'.sqTail = q.sqTail ∧ q'.freezeMask = q.freezeMask) ∧
      (Discardable s qid q → bit (c.dw 4) 0 = true → s.q.restarts = [] → h.ref.qid = 0 →
        ∃ t l k q', exec (.queueRestart h reads) s = .next t ∧ t.queue qid = some q' ∧ t.hostOut = s.hostOut ++ l ++ k ∧
          Discards s qid q reads l q' ∧ q'.freezeMask = q.freezeMask)) ∧
    (∀ v reads q m, s.queue 0 = some q → bit v 16 = true → s.q.restarts = [] → m = { q with freezeMask := freezeMask v } →
      (q.frozen = false → ∃ t, exec (.queue0Restart v reads) s = .next t ∧ t.queue 0 = some m ∧ t.hostOut = s.hostOut) ∧
      (q.frozen = true → q.drained = false → ∃ t, exec (.queue0Restart v reads) s = .next t ∧ t.queue 0 = some m ∧
        t.hostOut = s.hostOut ∧ t.q.restarts = [⟨0, bit v 17, none, cidsOf 0 reads, none⟩]) ∧
      (q.frozen = true → q.drained = true → bit v 17 = false → ∃ t, exec (.queue0Restart v reads) s = .next t ∧
        t.queue 0 = some { m with frozen := false, drained := false } ∧ t.hostOut = s.hostOut ∧ t.q.restarts = [] ∧ t.q.cmds = s.q.cmds) ∧
      (Discardable s 0 q → bit v 17 = true → ∃ t l q', exec (.queue0Restart v reads) s = .next t ∧ t.queue 0 = some q' ∧
        t.hostOut = s.hostOut ++ l ∧ Discards s 0 q reads l q' ∧ q'.freezeMask = freezeMask v ∧ t.q.restarts = [] ∧
        t.q.cmds = s.q.cmds)) ∧
    (∀ v reads q, s.queue 0 = some q → bit v 16 = false →
      ∃ t q', exec (.queue0Restart v reads) s = .next t ∧ t.queue 0 = some q' ∧ q' = { q with freezeMask := freezeMask v } ∧
        bit q'.freezeMask 1 = true ∧ bit q'.freezeMask 2 = true ∧ bit q'.freezeMask 0 = false ∧
        (∀ b, 3 ≤ b → b ≤ 9 ∨ b = 15 → bit q'.freezeMask b = bit v b) ∧ (∀ b, 10 ≤ b → b ≤ 14 → bit q'.freezeMask b = false)) ∧
    (∀ qid q t0 ts, s.queue qid = some q → q.cqTimes = t0 :: ts →
      (q.coalUs = 0 → exec (.coalesceTimer qid) s = .next (settle s)) ∧
      (q.coalUs ≠ 0 → exec (.coalesceTimer qid) s = .next (settle { s with time := max s.time (t0 + q.coalUs * 1000) })))

/-- ABORT: a command that has not begun replies ABORTED at once, a JOB_START JOB_ABORTED; a JOB_START that has begun is aborted as
JOB_ABORT aborts its job; one past its point of no return carries the ABORT until its
reply; one before it is withdrawn and replies ABORTED; a CID that is not live answers ALREADY_DONE.
Choices of the model: log 81, log 82. -/
def Obligations.AbortCommand : Prop :=
  ∀ (s : State) (h : HostCmd) (c : Cmd) (reads : List HostRead) (qid cid : Nat), Begun s h 0x13 c →
    qid = bits c.handle 0 8 → cid = bits (c.dw 4) 0 16 →
    (s.queue qid = none → exec (.abort h reads) s = .next (settle ((s.mark h).reply h.ref 0x0201 0))) ∧
    (s.queue qid ≠ none → (s.mark h).q.cmds.find? (fun d => d.qid == qid && d.cid == cid) = none →
      exec (.abort h reads) s = .next (settle ((s.mark h).reply h.ref 0x0104 0))) ∧
    (s.queue qid ≠ none → ∀ t, (s.mark h).q.cmds.find? (fun d => d.qid == qid && d.cid == cid) = some t →
      (qid = 0 → t.dw 0 % 256 ≠ 0x13) →
      (t.begun = false →
        exec (.abort h reads) s = .next (settle ((((s.mark h).replyTo t (if t.dw 0 % 256 = 0x60 then 0x0527 else 0x0103) 0
          none).restarts).ok h.ref 0))) ∧
      (t.begun = true → t.dw 0 % 256 = 0x60 → exec (.abort h reads) s = .next (settle ((s.mark h).abortStart t h.ref reads))) ∧
      (t.begun = true → t.dw 0 % 256 ≠ 0x60 → t.pnr = true ∨ abortable (t.dw 0 % 256) = false →
        exec (.abort h reads) s = .next (settle ((s.mark h).setCmd ⟨qid, cid⟩ fun c => { c with abortBy := some h.ref }))) ∧
      (t.begun = true → t.dw 0 % 256 ≠ 0x60 → t.pnr = false → abortable (t.dw 0 % 256) = true → s.sentSig ⟨qid, cid⟩ = false →
        exec (.abort h reads) s = .next (settle
          ((((((s.mark h).abortRecords ⟨qid, cid⟩ h.found).withdraw ⟨qid, cid⟩).reply ⟨qid, cid⟩ 0x0103 0).ok h.ref 0).keyRun))))

/-! ## Administrative commands (15) -/

/-- IDENTIFY, LOG_READ, FEATURE_GET and TALLY_QUERY write what they report to their buffer and change nothing else, but for a
telemetry log that CLEAR clears; a feature that FEATURE_SET sets reads back as it was set, once both copies hold it where it is to be
saved, and a change that loosens consumes a count of its tally.
Choices of the model: log 8, log 75. -/
def Obligations.IdentifyLogsFeatures : Prop :=
  ∀ (s : State) (h : HostCmd) (c : Cmd),
    (Begun s h 0x00 c → s.identBytes.length = 4096 ∧
      (bits (c.dw 4) 0 8 = 0 → 4096 ≤ c.len 0 →
        exec (.identify h) s = .next (settle (((s.mark h).hostData h.ref 0 s.identBytes).ok h.ref 0))) ∧
      (bits (c.dw 4) 0 8 = 1 → s.releaseBytes.length ≤ c.len 0 →
        exec (.identify h) s = .next (settle (((s.mark h).hostData h.ref 0 s.releaseBytes).ok h.ref 0))) ∧
      (2 ≤ bits (c.dw 4) 0 8 → exec (.identify h) s = .next (settle ((s.mark h).reply h.ref 0x0102 0)))) ∧
    (Begun s h 0x01 c → ∀ id log, id = bits (c.dw 4) 0 8 → s.logBytes id = some log → c.qw 6 % 64 = 0 →
      (bit (c.dw 4) 8 = false → (log.drop (c.qw 6)).take (c.len 0) ≠ [] →
        exec (.logRead h) s = .next (settle (((s.mark h).hostData h.ref 0 ((log.drop (c.qw 6)).take (c.len 0))).ok h.ref
          (((log.drop (c.qw 6)).take (c.len 0)).length + 2 ^ 32 * log.length)))) ∧
      (bit (c.dw 4) 8 = true → id = 3 → ∃ t, exec (.logRead h) s = .next t ∧ t.gen.telClear = s.time) ∧
      (bit (c.dw 4) 8 = true → id ≠ 3 → exec (.logRead h) s = .next (settle ((s.mark h).reply h.ref 0x0102 0)))) ∧
    (Begun s h 0x02 c → ∀ fid v, fid = bits (c.dw 4) 0 8 → featureKnown fid = true → 16 ≤ c.len 0 →
      (bits (c.dw 4) 8 2 = 0 ∧ v = s.gen.features.get fid) ∨ (bits (c.dw 4) 8 2 = 1 ∧ v = s.savedFeature fid) ∨
        (bits (c.dw 4) 8 2 = 2 ∧ v = ({} : Features).get fid) →
      exec (.featureGet h) s = .next (settle (((s.mark h).hostData h.ref 0 (leBytes 16 v)).ok h.ref (v % 2 ^ 64)))) ∧
    (Begun s h 0x03 c → ∀ ok fid v, fid = bits (c.dw 4) 0 8 → v = c.qw 6 + 2 ^ 64 * c.qw 8 → featureKnown fid = true →
      (featureOk fid v = false → exec (.featureSet h ok) s = .next (settle ((s.mark h).reply h.ref 0x010A 0))) ∧
      (featureOk fid v = true → fid ≠ 5 ∨ s.anyJob = false → consumes s.gen.features fid v = none → bit (c.dw 5) 0 = false →
        ∃ t, exec (.featureSet h ok) s = .next t ∧ t.gen.features.get fid = v ∧ t.gen.features = s.gen.features.set fid v ∧
          t.sf = s.sf ∧ t.cores = s.cores ∧ t.mem = s.mem) ∧
      (featureOk fid v = true → fid ≠ 5 ∨ s.anyJob = false →
        (consumes s.gen.features fid v = none → bit (c.dw 5) 0 = true →
          exec (.featureSet h ok) s = .next (settle ((s.mark h).writeConfig
            (fun c => { c with saved := (fid, v) :: c.saved.filter fun e => e.1 != fid }) (.feature (some h.ref) fid v 0)))) ∧
        (∀ k, consumes s.gen.features fid v = some k →
          (s.remaining k = 0 ∨ ok = false ∨ s.tallyRoom = false → exec (.featureSet h ok) s = .next (settle ((s.mark h).reply h.ref 0x090D 0))) ∧
          (s.remaining k ≠ 0 → ok = true → s.tallyRoom = true →
            exec (.featureSet h ok) s = .next (settle ((s.mark h).changeFeature h.ref fid v (bit (c.dw 5) 0))))))) ∧
    (Begun s h 0x0A c → exec (.tallyQuery h) s = .next (settle ((s.mark h).ok h.ref
      (s.remaining 1 + 2 ^ 8 * s.remaining 2 + 2 ^ 16 * s.remaining 3))))

/-- Firmware: a download lands in the staging buffer; a commit that passes its checks queues its slot's erase and program, and
replies once the slot is verified; an activation writes the boot selector.
Choices of the model: log 6, log 77. -/
def Obligations.FirmwareCommands : Prop :=
  ∀ (s : State) (h : HostCmd) (c : Cmd),
    (Begun s h 0x04 c → s.fwBusy c [0x05] = false → c.dw 4 % 4096 = 0 → c.dw 5 % 4 = 0 → 4 ≤ c.dw 5 → c.dw 5 ≤ 1048576 →
      c.dw 4 + c.dw 5 ≤ 2 ^ 25 → c.dw 5 ≤ c.len 0 →
      (∀ bs, h.buf 0 = some bs → c.dw 5 ≤ bs.length →
        exec (.fwDownload h) s = .next (settle (({ (s.mark h) with gen := { s.gen with
          fwStage := Sparse.setList 0 s.gen.fwStage (c.dw 4) (bs.take (c.dw 5)), staged := true } } : State).ok h.ref 0))) ∧
      (h.buf 0 = none → exec (.fwDownload h) s = .next (settle ((s.mark h).reply h.ref 0x0106 0)))) ∧
    (Begun s h 0x05 c → ∀ slot bs, slot = bits (c.dw 4) 0 1 → c.dw 5 ≤ 2 ^ 25 → bs = Sparse.getList 0 s.gen.fwStage 0 (c.dw 5) →
      s.fwBusy c [0x04, 0x05, 0x06] = false → slot ≠ s.gen.slot →
      (imageOk bs (c.dw 5) = false → exec (.fwCommit h) s = .next (settle ((s.mark h).reply h.ref 0x0903 0))) ∧
      (imageOk bs (c.dw 5) = true → imageSigned bs (c.dw 5) = false →
        exec (.fwCommit h) s = .next (settle ((s.mark h).reply h.ref 0x0901 0))) ∧
      (imageOk bs (c.dw 5) = true → imageSigned bs (c.dw 5) = true → (imageSlot bs).svn < s.gen.minSvn →
        exec (.fwCommit h) s = .next (settle ((s.mark h).reply h.ref 0x0906 0))) ∧
      (imageOk bs (c.dw 5) = true → imageSigned bs (c.dw 5) = true → s.gen.minSvn ≤ (imageSlot bs).svn →
        exec (.fwCommit h) s = .next (settle ((State.pushSf { (s.mark h) with gen := { s.gen with
            fwOp := some (.commit (some h.ref) slot (imageSlot bs) false) } }
          (.slotErase slot (ceilDiv (c.dw 5) 65536) (some h.ref))).pushSf (.slotProgram slot))))) ∧
    (∀ r slot x, s.gen.fwOp = some (.commit (some r) slot x true) →
      exec .fwCommitComplete s = .next (settle (({ s with gen := { s.gen with fwOp := none }, sf := { s.sf with
        slots := modifyAt s.sf.slots slot fun _ => x } } : State).ok r x.version))) ∧
    (Begun s h 0x06 c → ∀ slot x, slot = bits (c.dw 4) 0 1 → x = s.sf.slots.getD slot {} → s.fwBusy c [0x04, 0x05, 0x06] = false →
      (x.valid = false → exec (.fwActivate h) s = .next (settle ((s.mark h).reply h.ref 0x0904 0))) ∧
      (x.valid = true → x.svn < s.gen.minSvn → exec (.fwActivate h) s = .next (settle ((s.mark h).reply h.ref 0x0906 0))) ∧
      (x.valid = true → s.gen.minSvn ≤ x.svn → bit (c.dw 4) 1 = false → s.sf.selector.length = 2 →
        ∃ t, exec (.fwActivate h) s = .next t ∧ t.selectedSlot = slot ∧ t.gen.slot = s.gen.slot ∧ t.gen.restarting = s.gen.restarting))

/-- SELF_TEST goes on in the background; its tests complete one after another, and it ends with the last once every core of a running job
has been tested or a job has kept it from its test; its record is kept, and each core that failed is flagged. Where the cores of a running
job are held, CORE_BORROW borrows an active core, the lowest not yet tested, and no second core of the partition within 10 ms; it then ends
the test of the core that is lent, and returns it; a core that fails is flagged.
Choices of the model: log 76. -/
def Obligations.SelfTests : Prop :=
  (∀ (s : State) (h : HostCmd) (c : Cmd),
      (Begun s h 0x07 c → (c.has 0 = true → 64 ≤ c.len 0) → bits (c.dw 4) 0 2 < 2 →
        (s.gen.selfTest ≠ none → exec (.selfTest h) s = .next (settle ((s.mark h).reply h.ref 0x010C 0))) ∧
        (s.gen.selfTest = none → ∃ t, exec (.selfTest h) s = .next t ∧ t.gen.selfTest = some
          { cmd := h.ref, extended := bits (c.dw 4) 0 2 == 1, start := s.time, idle := maskOf s.idleDies } ∧ t.hostOut = s.hostOut ∧ t.cores = s.cores)) ∧
      (∀ found t, s.gen.selfTest = some t →
        (found.last = true → (∃ n ∈ s.jobCores, bit t.masks.coresTested n = false ∧ t.untested.contains n = false) →
          exec (.selfTestComplete found) s = .next (settle s)) ∧
        (found.last = false → ∃ u, exec (.selfTestComplete found) s = .next u ∧
          u.gen.selfTest = some { t with masks := s.testsDone t found.masks false } ∧ u.cores = s.cores ∧ u.mem = s.mem ∧
          (∀ n, n < 96 → bit found.masks.coresFailed n = true → bit found.masks.coresTested n = true → s.jobCores.contains n = false →
            bit t.masks.coresTested n = false → bit t.masks.coresFailed n = false → bit u.flt.coreFlags n = true)) ∧
        (found.last = true → (∀ n ∈ s.jobCores, bit t.masks.coresTested n = true ∨ t.untested.contains n = true) →
          ∃ u bs, exec (.selfTestComplete found) s = .next u ∧
          u.gen.selfTest = none ∧ u.gen.lastSelfTest = some bs ∧ bs.length = 64 ∧ u.cores = s.cores ∧ u.mem.bytes = s.mem.bytes ∧
          (t.extended = false → u.mem = s.mem) ∧
          (∀ n, n < 96 → bit found.masks.coresFailed n = true → t.untested.contains n = false → bit t.masks.coresTested n = false →
            bit t.masks.coresFailed n = false → bit u.flt.coreFlags n = true)))) ∧
  (∀ (s : State) (p : Nat) (failed : Bool) (t : SelfTest) (r : Run), s.gen.selfTest = some t → s.run p = some r →
      r.state = .running →
      (∀ n, r.borrow = some n → n < 96 →
        ∃ u v, exec (.coreBorrow p failed) s = .next u ∧ u.gen.selfTest = some v ∧ u.run p = some { r with borrow := none } ∧
          bit v.masks.coresTested n = true ∧ (∀ k, k ≠ n → bit v.masks.coresTested k = bit t.masks.coresTested k) ∧
          v.masks.coresFailed = (if failed then setBit t.masks.coresFailed n else t.masks.coresFailed) ∧
          u.cores = s.cores ∧ u.mem = s.mem ∧ (failed = true → bit u.flt.coreFlags n = true)) ∧
      (r.borrow = none → r.phase ≠ .held → exec (.coreBorrow p failed) s = .next (settle s)) ∧
      (r.borrow = none → r.phase = .held → r.pendings = [] →
        (∀ x, Sparse.find t.lastBorrow p = some x → s.time < x + 10000000 →
          exec (.coreBorrow p failed) s = .next (settle s)) ∧
        ((∀ k ∈ r.cores, bit t.masks.coresTested k = true ∨ t.untested.contains k = true) →
          exec (.coreBorrow p failed) s = .next (settle s)) ∧
        (∀ n, (∀ x, Sparse.find t.lastBorrow p = some x → x + 10000000 ≤ s.time) →
          n ∈ r.cores → bit t.masks.coresTested n = false → t.untested.contains n = false →
          (∀ k ∈ r.cores, bit t.masks.coresTested k = false → t.untested.contains k = false → n ≤ k) →
          ∃ u v, exec (.coreBorrow p failed) s = .next u ∧ u.gen.selfTest = some v ∧ u.run p = some { r with borrow := some n } ∧
            v.masks = t.masks ∧ Sparse.find v.lastBorrow p = some s.time ∧ u.cores = s.cores ∧ u.mem = s.mem ∧ u.flt = s.flt)))

/-- PROTECTION_SET moves the level as 15 R460 and R461 allow: raising it is free from PL0 and PL1, PL2 is final, and a lowering needs its
word, a count of its tally, and nothing that still reads the zones; a refused one leaves the level as it is. A lowering goes on as
operations of the xSPI port: the new key's record, the commit that puts its generation in force and leaves each zone EMPTY or OFFLINE, or
that does nothing where the conditions hold no longer, then the rest, with the configuration gone and the level at PL0.
Choices of the model: log 77, log 114. -/
def Obligations.ProtectionLevels : Prop :=
  ∀ (s : State) (h : HostCmd) (c : Cmd) (ok : Bool) (level : Nat), Begun s h 0x08 c → s.gen.pl ≤ 2 →
    level = bits (c.dw 4) 0 2 →
    (∃ t, exec (.protectionSet h ok) s = .next t ∧
      (t.gen.pl = s.gen.pl ∨ t.gen.pl = level) ∧
      (level = 3 → t.gen.pl = s.gen.pl) ∧ (s.gen.pl = 2 → t.gen.pl = 2) ∧
      (level < s.gen.pl → c.dw 5 ≠ 0x4C4F5745 ∨ s.remaining 1 = 0 ∨ (s.mark h).canLower = false ∨ ok = false ∨ s.tallyRoom = false →
        t.gen.pl = s.gen.pl) ∧
      (s.gen.pl < level → level < 2 → s.gen.pl ≠ 2 → t.gen.pl = level) ∧
      (s.gen.pl < level → level = 2 → s.config.keys ≠ [] → t.gen.pl = 2 ∧ t.sf.pl2Fuse = true) ∧
      (level < s.gen.pl → t.gen.pl = s.gen.pl)) ∧
    (s.gen.pl = 1 → level = 0 → c.dw 5 = 0x4C4F5745 → s.remaining 1 ≠ 0 → (s.mark h).canLower = true → ok = true → s.tallyRoom = true →
      exec (.protectionSet h ok) s = .next (settle ((s.mark h).lower h.ref))) ∧
    (s.phys.keyBusy = none → Sparse.wf ({} : Zone) s.fl.zones = true → ∀ g cmd rest,
      (s.sf.ops = .lowerKey g cmd :: rest → s.sf.keyRecs.length = 2 → ∃ t, exec .sfOperationComplete s = .next t ∧ t.sf.ops = rest ∧
        t.sf.keyRecs[s.spareKey]? = some (some { generation := g }) ∧ t.gen.pl = s.gen.pl ∧ t.fl.keyGen = s.fl.keyGen ∧ t.fl.zones = s.fl.zones) ∧
      (s.sf.ops = .lowerCommit g cmd :: rest → s.canLower = true → ∃ t, exec .sfOperationComplete s = .next t ∧ t.sf.ops = rest ∧
        t.fl.keyGen = g ∧ t.gen.pl = s.gen.pl ∧ (∀ z, (t.zone z).state = .empty ∨ (t.zone z).state = .offline)) ∧
      (s.sf.ops = .lowerCommit g cmd :: rest → s.canLower = false → ∃ t, exec .sfOperationComplete s = .next t ∧
        (∀ c, SfOp.lowerRest c ∉ t.sf.ops) ∧ t.fl.keyGen = s.fl.keyGen ∧ t.gen.pl = s.gen.pl ∧ t.fl.zones = s.fl.zones) ∧
      (s.sf.ops = .lowerRest cmd :: rest → ∃ t, exec .sfOperationComplete s = .next t ∧ t.sf.ops = rest ∧ t.gen.pl = 0 ∧
        t.fl.keyGen = s.fl.keyGen ∧ (∀ x ∈ t.sf.configs, x.valid = false)))

/-- A layout change is accepted while no job runs, takes effect once write-backs and die tests have finished, and drops queued
jobs of partitions that are gone; every sequence policy returns to its defaults. -/
def Obligations.LayoutChanges : Prop :=
  ∀ (s : State) (h : HostCmd) (c : Cmd),
    (Begun s h 0x09 c → ∀ l, l = bits (c.dw 4) 0 2 →
      (l = 3 → exec (.partitionSet h) s = .next (settle ((s.mark h).reply h.ref 0x0531 0))) ∧
      (l = s.gen.layout → l ≠ 3 → exec (.partitionSet h) s = .next (settle ((s.mark h).ok h.ref 0))) ∧
      (l ≠ 3 → l ≠ s.gen.layout → (∃ p ∈ s.jobs.parts, p.job ≠ none) →
        exec (.partitionSet h) s = .next (settle ((s.mark h).reply h.ref 0x0530 0))) ∧
      (l ≠ 3 → l ≠ s.gen.layout → (∀ p ∈ s.jobs.parts, p.job = none) →
        exec (.partitionSet h) s = .next (settle (State.commitCmd { (s.mark h) with gen := { s.gen with
          layoutReq := some ⟨h.ref, l, bit (c.dw 4) 8⟩ } } h.ref)))) ∧
    (∀ q, s.gen.layoutReq = some q →
      ((∃ p ∈ s.jobs.parts, p.writeback = true) ∨ s.dieTest = true → exec .layoutChange s = .next (settle s)) ∧
      ((∀ p ∈ s.jobs.parts, p.writeback = false) → s.dieTest = false →
        ∃ t, exec .layoutChange s = .next t ∧ t.gen.layout = q.layout ∧ t.gen.layoutReq = none ∧
          (∀ j ∈ t.jobs.queue, j.partition < 2 ^ q.layout) ∧ t.cores = s.cores ∧ t.seqs.policy = List.replicate 4 {}))

/-! ## Flash and system flash (13; 16 R468-R470) -/

/-- SF_READ reads the host area, SF_PROGRAM programs blank bytes only, SF_ERASE erases a sector; each device operation takes
effect when it completes, on its own bytes alone; SF_INFO reports the erase counts.
Choices of the model: log 68. -/
def Obligations.SystemFlashCommands : Prop :=
  ∀ (s : State) (h : HostCmd) (c : Cmd),
    (Begun s h 0x30 c → ∀ off n, off = bits (c.dw 4) 0 26 → n = bits (c.dw 6) 0 17 → n ≤ c.len 0 →
      (hostRange off n false = 0 → exec (.sfRead h) s = .next (settle
        (((s.mark h).hostData h.ref 0 (Sparse.getList 0xFF s.sf.host off n)).ok h.ref n))) ∧
      (n = 0 ∨ 65536 < n ∨ 2 ^ 26 < off + n → exec (.sfRead h) s = .next (settle ((s.mark h).reply h.ref 0x0321 0)))) ∧
    (Begun s h 0x31 c → ∀ off n bs, off = bits (c.dw 4) 0 26 → n = bits (c.dw 6) 0 17 → n ≤ c.len 0 → h.buf 0 = some bs →
      n ≤ bs.length → hostRange off n true = 0 →
      ((∀ i, i < n → Sparse.get 0xFF s.sf.host (off + i) = 0xFF) →
        exec (.sfProgram h) s = .next (settle ((s.mark h).pushSf (.program off (bs.take n) (some h.ref))))) ∧
      (∀ i, i < n → Sparse.get 0xFF s.sf.host (off + i) ≠ 0xFF → (∀ j, j < i → Sparse.get 0xFF s.sf.host (off + j) = 0xFF) →
        exec (.sfProgram h) s = .next (settle ((s.mark h).reply h.ref 0x0320 (off + i))))) ∧
    (Begun s h 0x32 c → exec (.sfErase h) s = .next (settle ((s.mark h).pushSf (.erase (bits c.handle 0 10) (some h.ref))))) ∧
    (Begun s h 0x33 c → 16504 ≤ c.len 0 → exec (.sfInfo h) s = .next (settle (((s.mark h).hostData h.ref 0
      ((List.range 4126).flatMap fun k => leBytes 4 (sat32 (Sparse.get 0 s.sf.erases k)))).ok h.ref 4126))) ∧
    (Memory.wf 0xFF s.sf.host = true → s.phys.keyBusy = none →
      (∀ k cmd rest, s.sf.ops = .erase k cmd :: rest → ∃ t, exec .sfOperationComplete s = .next t ∧ t.sf.ops = rest ∧
        (∀ a, Sparse.get 0xFF t.sf.host a = if 65536 * k ≤ a ∧ a < 65536 * (k + 1) then 0xFF else Sparse.get 0xFF s.sf.host a)) ∧
      (∀ off bs cmd rest, s.sf.ops = .program off bs cmd :: rest → ∃ t, exec .sfOperationComplete s = .next t ∧ t.sf.ops = rest ∧
        (∀ a, Sparse.get 0xFF t.sf.host a = if off ≤ a ∧ a < off + bs.length then bs.getD (a - off) 0 else
          Sparse.get 0xFF s.sf.host a)))

/-- ZONE_WRITE and ZONE_APPEND take their blocks to their zone's sequencer; ZONE_READ delivers blocks below the write pointer,
at once where the write buffer holds them all; each is turned away as 16 R468 orders its checks. -/
def Obligations.ZoneDataCommands : Prop :=
  ∀ (s : State) (h : HostCmd) (c : Cmd),
    (Begun s h 0x21 c → c.dw 6 * 4096 ≤ c.len 0 →
      (numZones ≤ zoneOf (c.qw 4) → exec (.zoneWrite h) s = .next (settle ((s.mark h).reply h.ref 0x030A 0))) ∧
      (zoneOf (c.qw 4) < numZones → c.dw 6 = 0 ∨ 2048 < c.dw 6 ∨ zoneBlocks < zoneOff (c.qw 4) + c.dw 6 →
        exec (.zoneWrite h) s = .next (settle ((s.mark h).reply h.ref 0x0303 0))) ∧
      (zoneOf (c.qw 4) < numZones → c.dw 6 ≠ 0 → c.dw 6 ≤ 2048 → zoneOff (c.qw 4) + c.dw 6 ≤ zoneBlocks →
        ∀ bs, h.buf 0 = some bs → c.dw 6 * 4096 ≤ bs.length →
        exec (.zoneWrite h) s = .next (settle ((s.mark h).arrive
          ⟨some h.ref, zoneOf (c.qw 4), .write false, zoneOff (c.qw 4), c.dw 6, bs.take (c.dw 6 * 4096)⟩)))) ∧
    (Begun s h 0x22 c → c.dw 6 * 4096 ≤ c.len 0 →
      (numZones ≤ c.handle → exec (.zoneAppend h) s = .next (settle ((s.mark h).reply h.ref 0x030A 0))) ∧
      (c.handle < numZones → c.dw 6 ≠ 0 → c.dw 6 ≤ 2048 → ∀ bs, h.buf 0 = some bs → c.dw 6 * 4096 ≤ bs.length →
        exec (.zoneAppend h) s = .next (settle ((s.mark h).arrive
          ⟨some h.ref, c.handle, .write true, 0, c.dw 6, bs.take (c.dw 6 * 4096)⟩)))) ∧
    (Begun s h 0x20 c → c.dw 6 * 4096 ≤ c.len 0 → zoneOf (c.qw 4) < numZones → c.dw 6 ≠ 0 → c.dw 6 ≤ 16384 →
      zoneOff (c.qw 4) + c.dw 6 ≤ zoneBlocks →
      ((s.zone (zoneOf (c.qw 4))).state = .offline → exec (.zoneRead h) s = .next (settle ((s.mark h).reply h.ref 0x0309 0))) ∧
      ((s.zone (zoneOf (c.qw 4))).state ≠ .offline → (s.zone (zoneOf (c.qw 4))).wp < zoneOff (c.qw 4) + c.dw 6 →
        exec (.zoneRead h) s = .next (settle ((s.mark h).reply h.ref 0x0304 0))) ∧
      ((s.zone (zoneOf (c.qw 4))).state ≠ .offline → zoneOff (c.qw 4) + c.dw 6 ≤ (s.zone (zoneOf (c.qw 4))).wp →
        (s.pageReads (c.qw 4) (c.dw 6) = [] → exec (.zoneRead h) s = .next (settle ((s.mark h).endZoneRead h.ref []))) ∧
        (s.pageReads (c.qw 4) (c.dw 6) ≠ [] → exec (.zoneRead h) s = .next (settle { (s.mark h) with fl := { s.fl with
          reads := s.fl.reads ++ [{ by_ := .zoneRead h.ref, waiting := s.pageReads (c.qw 4) (c.dw 6) }] } }))))

/-- ZONE_RESET and ZONE_FINISH stand before their zone's sequencer; ZONE_REPORT writes the descriptors of its zones, up to the
last one, and changes no zone. -/
def Obligations.ZoneManagementCommands : Prop :=
  ∀ (s : State) (h : HostCmd) (c : Cmd),
    (∀ i op st, (op = 0x23 ∧ i = .zoneReset h ∧ st = SeqOp.reset) ∨ (op = 0x24 ∧ i = .zoneFinish h ∧ st = SeqOp.finish) →
      Begun s h op c →
      (numZones ≤ c.handle → exec i s = .next (settle ((s.mark h).reply h.ref 0x030A 0))) ∧
      (c.handle < numZones → exec i s = .next (settle ((s.mark h).arrive ⟨some h.ref, c.handle, st, 0, 0, []⟩)))) ∧
    (Begun s h 0x25 c → 64 * c.dw 6 ≤ c.len 0 →
      (numZones ≤ c.handle → exec (.zoneReport h) s = .next (settle ((s.mark h).reply h.ref 0x030A 0))) ∧
      (c.handle < numZones → c.dw 6 ≠ 0 → c.dw 6 ≤ 4096 →
        (∀ z, (s.zoneDesc z).length = 64) ∧
        exec (.zoneReport h) s = .next (settle (((s.mark h).hostData h.ref 0
          ((List.range (min (c.dw 6) (numZones - c.handle))).flatMap fun i => s.zoneDesc (c.handle + i))).ok h.ref
          (min (c.dw 6) (numZones - c.handle))))))

/-- ZONE_SEQUENCE places a write at the sequencing pointer, its bytes in the write buffer at its blocks and no other byte changed, and
turns away one that 13 R367 refuses; ZONE_REPLY_POINT makes a durable write part of its zone: the write pointer passes its blocks. A
die's program that is verified leaves the write buffer, its blocks encrypted on flash with their metadata; a zone's erase that ends
counts one erase of each of its sixteen blocks, leaves none of them programmed, and the zone ready for writes.
Choices of the model: log 36, log 66. -/
def Obligations.ZoneWritesLand : Prop :=
  (∀ (s : State) (qid cid : Nat) (c : Cmd) (o : Sequenced), Sparse.wf ({} : Zone) s.fl.zones = true →
      (∀ y ∈ s.fl.eraseQ, (s.zone y).intent = true) → s.cmd ⟨qid, cid⟩ = some c → s.fl.arrived.find? (fun o => o.cmd == some ⟨qid, cid⟩) = some o → s.waitsTurn c = false →
      (∀ x ∈ s.fl.seqd, x.zone = o.zone → x.op ≠ .reset ∧ x.op ≠ .finish) → ∀ app, o.op = .write app →
      (s.writeCheck o app ≠ 0 → exec (.zoneSequence qid cid) s = .next (settle
        (({ s with fl := { s.fl with arrived := s.fl.arrived.erase o } } : State).reply ⟨qid, cid⟩ (s.writeCheck o app) 0))) ∧
      (s.writeCheck o app = 0 → ∃ t, exec (.zoneSequence qid cid) s = .next t ∧
        t.fl.seqd = s.fl.seqd ++ [{ o with first := (s.zone o.zone).seqPtr }] ∧ t.fl.arrived = s.fl.arrived.erase o ∧
        t.zone o.zone = { s.zone o.zone with state := .opened, seqPtr := (s.zone o.zone).seqPtr + o.blocks } ∧
        (∀ z, z ≠ o.zone → t.zone z = s.zone z) ∧ t.fl.words = s.fl.words ∧ t.hostOut = s.hostOut ∧
        (Memory.wf 0 s.fl.data = true → o.data.length = 4096 * o.blocks → ∀ lba, lba = o.zone * zoneBlocks + (s.zone o.zone).seqPtr →
          (∀ a, Sparse.get 0 t.fl.data a = if lba * 4096 ≤ a ∧ a < (lba + o.blocks) * 4096 then o.data.getD (a - lba * 4096) 0
            else Sparse.get 0 s.fl.data a) ∧
          (∀ i, i < o.blocks → Sparse.find s.fl.words (lba + i) = none →
            t.blockBytes (lba + i) = (o.data.drop (4096 * i)).take 4096))) ∧
      (∀ z w app', s.fl.seqd.find? (fun o => o.zone == z) = some w → w.op = .write app' → s.durable w = true →
        (∀ x ∈ s.fl.seqd, x.zone = z → x.op ≠ .reset ∧ x.op ≠ .finish) →
        ∃ t, exec (.zoneReplyPoint z) s = .next t ∧ t.fl.seqd = s.fl.seqd.erase w ∧ (t.zone z).wp = w.first + w.blocks ∧
          (t.zone z).state = (if w.first + w.blocks = zoneBlocks then .full else (s.zone z).state) ∧
          (∀ y, y ≠ z → t.zone y = s.zone y) ∧ t.fl.data = s.fl.data ∧ t.fl.words = s.fl.words)) ∧
  (∀ (s : State) (z : Nat), Sparse.wf ({} : Zone) s.fl.zones = true → Sparse.wf ({} : Die) s.fl.dies = true →
      (∀ y ∈ s.fl.eraseQ, (s.zone y).intent = true) →
      (∀ u, (s.die (s.dieAt z u)).op = some (.program z u) → (s.die (s.dieAt z u)).suspended = false →
        ∃ t, exec (.unitProgramComplete z u true) s = .next t ∧ t.fl.buffered = s.fl.buffered.erase (z, u) ∧
          t.fl.zones = s.fl.zones ∧ t.fl.journal = s.fl.journal ∧
          (∀ b ∈ unitLbas z u, Sparse.find t.fl.words b =
            some (s.encrypt b ((s.zone z).isPad (zoneOff b)) (Sparse.getList 0 s.fl.data (b * 4096) 4096))) ∧
          (∀ b, b ∉ unitLbas z u → Sparse.find t.fl.words b = Sparse.find s.fl.words b ∧
            ∀ i, i < 4096 → Sparse.get 0 t.fl.data (b * 4096 + i) = Sparse.get 0 s.fl.data (b * 4096 + i))) ∧
      (∀ u ok, (s.die (s.dieAt z u)).op ≠ some (.program z u) → exec (.unitProgramComplete z u ok) s = .next (settle s)) ∧
      ((s.zone z).erasing = true → (∀ p, p < 16 → (s.die (s.dieAt z p)).op = some (.erase z p) ∧
          (s.die (s.dieAt z p)).suspended = false) →
        ∃ t, exec (.zoneEraseComplete z []) s = .next t ∧ (t.zone z).erasing = false ∧ (t.zone z).state = (s.zone z).state ∧
          (t.zone z).wp = (s.zone z).wp ∧ t.fl.eraseQ = s.fl.eraseQ.filter (fun y => y != z) ∧
          (Sparse.wf 0 s.fl.blockErases = true → ((List.range 16).map (s.blockAt z)).Nodup →
            ∀ p, p < 16 → t.erasesOf (s.blockAt z p) = min 65535 (s.erasesOf (s.blockAt z p) + 1)) ∧
          (∀ b, Sparse.find t.fl.words b = if zoneOf b = z then none else Sparse.find s.fl.words b) ∧
          (∀ y, y ≠ z → t.zone y = s.zone y)))

/-- Page reads end where their die serves them, an uncorrectable block of a DMA faults its job with CHANNEL; a die suspends and
resumes within the bounds of 13 R382; calibration, the hold-up check and a checkpoint have their effect.
Choices of the model: log 67. -/
def Obligations.FlashEvents : Prop :=
  ∀ (s : State) (d : Nat),
    (∀ r b c, s.fl.reads = [{ by_ := .zoneRead r, waiting := [b] }] →
      (s.die (s.dieAt (zoneOf b) (zoneOff b / 16))).op = none → s.wordBad b = false → s.cmd r = some c → c.qw 4 = b → c.dw 6 = 1 →
      ∃ t, exec (.flashReadComplete b 1 { lost := [] }) s = .next t ∧ t.fl.reads = [] ∧ t.fl.zones = s.fl.zones ∧ t.fl.data = s.fl.data ∧
        t.fl.words = s.fl.words ∧ ∀ w ∈ s.dataWrites r 0 0 (s.blocksBytes b 1), w ∈ t.hostOut) ∧
    (∀ n b r, s.fl.reads = [{ by_ := .dma n, waiting := [b] }] →
      (s.die (s.dieAt (zoneOf b) (zoneOff b / 16))).op = none → s.run (s.partOfCore n) = some r → r.state ≠ .faulted →
      ∃ t, exec (.flashReadComplete b 1 { lost := [b] }) s = .next t ∧ t.fl.data = s.fl.data ∧
        ∃ e ∈ t.flt.detections, e.scope = .job (s.partOfCore n) ∧ e.info.status = 0x0F04 ∧ e.info.addr = b ∧
          e.info.space = .zone ∧ e.info.core = some n) ∧
    (∀ o, (s.die d).op = some o → (s.die d).suspended = false → (s.die d).suspends < o.limit →
      (s.die d).since + o.runs ≤ s.time → 0 < s.readsOn d →
      exec (.dieSuspend d) s = .next (settle (s.setDie d fun x => { x with
        suspended := true, suspends := x.suspends + 1, served := 0 }))) ∧
    (∀ o, (s.die d).op = some o → o.limit ≤ (s.die d).suspends ∨ s.time < (s.die d).since + o.runs → exec (.dieSuspend d) s = .next (settle s)) ∧
    ((s.die d).suspended = true → s.readsOn d = 0 ∨ 16 ≤ (s.die d).served →
      exec (.dieResume d) s = .next (settle (s.setDie d fun x => { x with suspended := false, since := s.time }))) ∧
    (d < 1536 → (s.die d).serves = true → s.readsOn d = 0 →
      exec (.readLevelCalibration d) s = .next (settle (s.setDie d fun x => { x with
        erasesSince := 0, calAt := s.powered, hourAt := s.powered, hourReads := 0, hourShifted := 0, shiftDue := false }))) ∧
    (∃ t, exec (.holdupCheck true) s = .next t ∧ t.fl.holdupOk = true ∧ t.flt.holdupFail = false ∧ t.flt.evt = s.flt.evt) ∧
    (∃ t, exec (.holdupCheck false) s = .next t ∧ t.fl.holdupOk = false ∧ t.flt.holdupFail = true ∧ bit t.flt.evt 2 = true) ∧
    (32 * 2 ^ 20 < s.unreplayed → ∃ t, exec .journalCheckpoint s = .next t ∧ t.fl.checkpoint.number = s.fl.checkpoint.number + 1 ∧
      t.fl.checkpoint.seq = s.fl.journalSeq ∧ t.fl.checkpoint.spares = s.fl.spares ∧ t.fl.checkpoint.retired = s.fl.retired ∧
      (∀ j ∈ t.fl.journal, ∃ bs ∈ j.records, s.fl.journalSeq ≤ recordSeq bs) ∧ t.fl.zones = s.fl.zones ∧ t.fl.data = s.fl.data ∧
      t.sf.mirror = s.fl.retired) ∧
    (s.unreplayed ≤ 32 * 2 ^ 20 → exec .journalCheckpoint s = .next (settle s))

/-! ## Resets, power loss and recovery (13 R373, R386; 20 R566-R588; 21 R589-R592) -/

/-- A function-level reset and a hot reset leave no queue, no command to reply to, and the event controller at its reset values;
fault records and the error log stay; a hot reset then trains the link, no wider than the width lock in force. A device reset, by
FLT_RESET, PERST# or RESET_REQ, starts the module anew with its cause: cores, jobs, memories and queues
as at reset; zones padded to whole program units; fault records kept; the timebase goes on. A loss of power takes the module
off: the timebase restarts at 0 and everything volatile is gone; the hub shuts the module down at 120 °C or after 60 s of
hold.
Choices of the model: log 88, log 89, log 90. -/
def Obligations.ResetsAndPowerLosses : Prop :=
  (∀ (s : State), s.sized → s.wlk.requests = [] →
      (∀ i, i = .functionLevelReset ∨ (∃ speed width, i = .hotReset speed width) →
        ∃ t, exec i s = .next t ∧ t.q.queues = [] ∧ (∀ c ∈ t.q.cmds, 256 ≤ c.qid) ∧ t.q.errLog = s.q.errLog ∧ t.msix = {} ∧
          t.evc.src = [] ∧ t.evc.watches = List.replicate 32 {} ∧ t.flt.records = s.flt.records ∧ t.jobs.queue = [] ∧
          t.sig.waits = [] ∧ t.sig.cells = s.sig.cells ∧ t.time = s.time ∧
          (∀ p r, s.run p = some r → r.state ≠ .faulted → t.run p = none)) ∧
      (∀ speed width, ∃ t, exec (.hotReset speed width) s = .next t ∧ t.pci.up = true ∧ t.pci.speed = speed ∧
        t.pci.width = (if s.flr.widthLock = 0 then width else min width s.flr.widthLock) ∧
        (s.gen.eclosed = true → s.flr.widthLock = s.gen.features.linkWidthLock))) ∧
  (∀ (s : State) (landed : List Nat) (saved : Bool) (i : Instr) (cause : Nat), s.phys.on = true →
      (i = .fltReset 0x44455652 landed saved ∧ cause = 1) ∨ (i = .perstAssert landed saved ∧ cause = 2) ∨
        (i = .autoReset landed saved ∧ cause = 3 ∧ s.flt.resetReq = true ∧ s.flt.autoReset = true) →
      (∃ t, exec i s = .next t ∧ t.flt.resetCause = cause ∧ t.gen.boot = 0 ∧ t.cores = State.reset.cores ∧ t.jobs = {} ∧
        t.seqs = {} ∧ t.mem = {} ∧ t.q = {} ∧ t.wlk = {} ∧ t.idx = {} ∧ t.flt.records = s.flt.records ∧ (cause ≠ 3 → t.time = s.time) ∧
        (cause = 3 → t.time = max s.time (s.flt.resetReqAt + 100000000)) ∧
        t.gen.pl = t.sf.level ∧ t.phys.on = true ∧ t.phys.sbAlert = 0 ∧ t.phys.sbAlertEn = 0 ∧ t.phys.keyId = 0 ∧
        t.phys.keyData = [] ∧ t.phys.keyResult = 0 ∧ t.fl.seqd = [] ∧ t.fl.buffered = [] ∧
        (Sparse.wf ({} : Zone) s.fl.zones = true → ∀ z, (t.zone z).state = .opened → (t.zone z).wp % 16 = 0)) ∧
      (∀ v, v % 2 ^ 32 ≠ 0x44455652 → exec (.fltReset v landed saved) s = .next (settle s)) ∧
      (s.flt.autoReset = false → exec (.autoReset landed saved) s = .next (settle s))) ∧
  (∀ (s : State) (landed : List Nat) (saved : Bool), s.phys.on = true →
      (∃ t, exec (.powerLoss landed saved) s = .next t ∧ t.phys.on = false ∧ t.phys.inputIn = false ∧ t.time = 0 ∧
        t.cores = State.reset.cores ∧ t.jobs = {} ∧ t.mem = {} ∧ t.q = {} ∧ t.flt.records = s.flt.records ∧ t.phys.sbAlert = 0) ∧
      (∃ t, exec (.pwrenLow landed saved) s = .next t ∧ t.phys.on = false ∧ t.phys.pwren = false ∧ t.time = 0 ∧
        t.cores = State.reset.cores ∧ t.jobs = {} ∧ t.mem = {}) ∧
      (∀ temp, s.flt.hubHold = true → 120 ≤ temp ∨ s.flt.hubHoldSince + 60000000000 ≤ s.time →
        ∃ t, exec (.hubShutdown temp landed saved) s = .next t ∧ t.phys.on = false ∧ t.phys.shutdown = true ∧ t.time = 0 ∧
          t.cores = State.reset.cores ∧ t.jobs = {} ∧ t.mem = {}) ∧
      (∃ t, exec (.senseBreak landed saved) s = .next t ∧ t.phys.on = false ∧ t.phys.sense = false ∧ t.time = 0 ∧
        t.cores = State.reset.cores ∧ t.jobs = {} ∧ t.mem = {}) ∧
      (∀ mv, (63000 < mv → ∃ t, exec (.inputOvervoltage mv landed saved) s = .next t ∧ t.phys.on = false ∧
          t.phys.inputIn = false ∧ t.time = 0 ∧ t.cores = State.reset.cores ∧ t.jobs = {} ∧ t.mem = {}) ∧
        (mv ≤ 63000 → exec (.inputOvervoltage mv landed saved) s = .next (settle s))) ∧
      (∀ temp, temp < 120 → s.time < s.flt.hubHoldSince + 60000000000 →
        exec (.hubShutdown temp landed saved) s = .next (settle s)))

/-- A watchdog's expiry resets its core and says so; a second one within 10 s, or the last core's, requests a device reset. A lifetime
snapshot that is written is the newest one. An imago restart runs the image of its slot, or requests a reset.
Choices of the model: log 87, log 91. -/
def Obligations.WatchdogAndRestart : Prop :=
  ∀ (s : State),
    (∀ c, s.flt.mgmtDown = [] → bit s.flt.mgmtUp c = true →
      ∃ t, exec (.watchdogExpiry c []) s = .next t ∧ bit t.flt.mgmtUp c = false ∧ bit t.flt.evt 1 = true ∧
        t.flt.lastWatchdog = some s.time ∧
        ((∃ u, s.flt.lastWatchdog = some u ∧ s.time ≤ u + 10000000000) ∨ s.flt.mgmtUp = 2 ^ c →
          t.flt.resetReq = true ∧ bit t.flt.evt 4 = true) ∧
        ((∀ u, s.flt.lastWatchdog = some u → u + 10000000000 < s.time) → clearBits s.flt.mgmtUp (2 ^ c) ≠ 0 →
          t.flt.resetReq = s.flt.resetReq) ∧ t.cores = s.cores ∧ t.jobs = s.jobs ∧ t.mem = s.mem) ∧
    (∃ t, exec (.lifetimeSnapshot true) s = .next t ∧ t.lifeLog.counters = s.life.counters ∧
      t.lifeLog.poweredNs = s.life.poweredNs + s.time ∧ t.life.counters = s.life.counters ∧ t.life.lastSave = s.time) ∧
    (∃ t, exec (.lifetimeSnapshot false) s = .next t ∧ t.lifeLog = s.lifeLog ∧ t.life = s.life ∧ bit t.flt.evt 5 = true) ∧
    (∀ r slot, s.gen.fwOp = some (.restart r slot) → s.gen.restarting = true → s.mgmtBusy r = false →
      (∃ t, exec (.imagoRestart true) s = .next t ∧ t.gen.slot = slot ∧ t.gen.version = (s.sf.slots.getD slot {}).version ∧
        t.gen.restarting = false ∧ t.gen.fwOp = none ∧ t.flt.mgmtUp = 0xF ∧ t.cores = s.cores ∧ t.jobs = s.jobs) ∧
      (∃ t, exec (.imagoRestart false) s = .next t ∧ t.flt.mgmtUp = 0 ∧ t.flt.resetReq = true ∧ bit t.flt.evt 4 = true))

/-! ## Bundles, jobs and sequences (07; 08; 16 R473-R483) -/

/-- BUNDLE_LOAD turns away a damaged, forged or unsigned image with the first status of 07 R191 that applies; an accepted image
becomes the bundle of the lowest free handle. BUNDLE_UNLOAD drops a bundle that nothing names, with its mappings.
Choices of the model: log 6, log 39. -/
def Obligations.BundleCommands : Prop :=
  ∀ (s : State) (h : HostCmd) (c : Cmd),
    (Begun s h 0x48 c → ∀ v bad,
      (c.has 0 = false → exec (.bundleLoad h v bad) s = .next (settle ((s.mark h).reply h.ref 0x0105 0))) ∧
      (∀ bs n, c.has 0 = true → h.buf 0 = some bs → bs.length = c.len 0 → bs ≠ [] →
        lowestFree 64 (fun i => (s.bundle i).isSome) = some n →
        (formatOk bs = false ∨ requiredOk v bs = false → exec (.bundleLoad h v bad) s = .next (settle ((s.mark h).reply h.ref 0x0501 0))) ∧
        (formatOk bs = true → requiredOk v bs = true → crc32c (bs.take (bs.length - 112)) ≠ dwordAt (bs.drop (bs.length - 112)) 0 →
          exec (.bundleLoad h v bad) s = .next (settle ((s.mark h).reply h.ref 0x0502 0))) ∧
        (∃ t, exec (.bundleLoad h v bad) s = .next t ∧ t.jobs.parts = s.jobs.parts ∧ t.jobs.queue = s.jobs.queue ∧
          t.cores = s.cores ∧ t.fl.data = s.fl.data ∧
          (t.jobs.bundles = s.jobs.bundles ∨ ∃ b, t.jobs.bundles = s.jobs.bundles ++ [b] ∧ b.handle = n ∧ s.bundle n = none ∧
            formatOk bs = true ∧ requiredOk v bs = true ∧ crc32c (bs.take (bs.length - 112)) = dwordAt (bs.drop (bs.length - 112)) 0 ∧
            signatureOf c.keys bs ≠ .invalid ∧ (c.level = 2 → signatureOf c.keys bs = .valid) ∧
            programsBad (if b.kind = 2 then 3072 else 4096)
              (if b.kind = 2 ∧ v.postEntry ≠ 0xFFFF then [v.stepEntry, v.postEntry] else [v.stepEntry]) v.programs.zipIdx = none ∧
            (refsOf bs).all (refOk s bad) = true)) ∧
        (∀ sched u maps, formatOk bs = true → requiredOk v bs = true →
          crc32c (bs.take (bs.length - 112)) = dwordAt (bs.drop (bs.length - 112)) 0 →
          signatureOf c.keys bs = .valid ∨ (signatureOf c.keys bs = .absent ∧ c.level ≠ 2) →
          knowsMajor (Config.releases s.gen.version) (dwordAt bs 2) = true →
          (v.codes.any fun k => !fmtLayoutOk k.1 k.2) = false → tablesOk bs (bit (dwordAt bs 3) 2) = true →
          programsBad (if bits (dwordAt bs 3) 0 2 = 2 then 3072 else 4096)
            (if bits (dwordAt bs 3) 0 2 = 2 ∧ v.postEntry ≠ 0xFFFF then [v.stepEntry, v.postEntry] else [v.stepEntry])
            v.programs.zipIdx = none →
          badOperator (bits (dwordAt bs 3) 0 2) (bit (dwordAt bs 3) 2) v = none →
          v.acyclic = true → noDup v.tensors = true → (bits (dwordAt bs 3) 0 2 = 1 → (kvRecordOf v.kv).any kvOk = true) →
          scheduleOf (sectionBytes bs 0x08) = some sched →
          resourcesOk bs (bits (dwordAt bs 3) 0 2) (bits (dwordAt bs 3) 3 3) = true →
          addressesOk bs v (refsOf bs) (largestShare (bits (dwordAt bs 3) 3 3)) = true →
          scheduleOk v (refsOf bs) (resourcesOf bs) sched = true → (refsOf bs).all (refOk s bad) = true →
          placeBundle (s.mark h) n bs v (refsOf bs) = .ok (u, maps) →
          ∀ listed, listed = (Config.releases s.gen.version).any (fun e => decide (e.1 ≤ dwordAt bs 2 ∧ dwordAt bs 2 ≤ e.2)) →
          exec (.bundleLoad h v bad) s = .next (settle (({ u with jobs := { u.jobs with
            bundles := u.jobs.bundles ++ [bundleOf n listed bs v sched maps] } } : State).ok h.ref (n + 2 ^ 32 * b2n listed)))))) ∧
    (Begun s h 0x49 c →
      (s.bundle c.handle = none → exec (.bundleUnload h) s = .next (settle ((s.mark h).reply h.ref 0x050B 0))) ∧
      (s.bundle c.handle ≠ none → bundleInUse s c.handle = true →
        exec (.bundleUnload h) s = .next (settle ((s.mark h).reply h.ref 0x050A 0))) ∧
      (s.bundle c.handle ≠ none → bundleInUse s c.handle = false →
        ∃ t, exec (.bundleUnload h) s = .next t ∧ t.bundle c.handle = none ∧ (∀ n, n ≠ c.handle → t.bundle n = s.bundle n) ∧
          (∀ m, m ∈ t.mem.maps ↔ m ∈ s.mem.maps ∧ m.2.bundle ≠ some c.handle) ∧
          (∀ a ∈ t.mem.allocs, a.owner ≠ .bundle c.handle) ∧
          (∀ a ∈ s.mem.allocs, a.owner ≠ .bundle c.handle → a ∈ t.mem.allocs) ∧ t.jobs.parts = s.jobs.parts ∧
          t.jobs.cocoons = s.jobs.cocoons ∧ t.cores = s.cores ∧ t.fl.zones = s.fl.zones ∧ t.fl.data = s.fl.data))

/-- JOB_START queues a job and replies when it ends; JOB_END and JOB_PARK wait for a boundary of the job's run; JOB_ABORT acts at
once; COCOON_DISCARD frees a cocoon that no queued job and no dispatch resumes.
Choices of the model: log 53, log 126. -/
def Obligations.JobCommands : Prop :=
  ∀ (s : State) (h : HostCmd) (c : Cmd),
    (Begun s h 0x60 c → ∀ p n ng nb b0 bs, p = bits (c.dw 4) 0 2 → n = bits (c.dw 4) 8 8 → ng = bits (c.dw 5) 0 7 →
      nb = bits (c.dw 5) 16 9 → 16 * ng + 8 * nb ≤ c.len 0 → (ng + nb ≠ 0 → h.buf 0 = some b0) → 16 * ng + 8 * nb ≤ b0.length →
      bs = b0.take (16 * ng + 8 * nb) →
      (∀ e, startBundle s c = .error e → exec (.jobStart h) s = .next (settle ((s.mark h).reply h.ref e 0))) ∧
      (∀ b, startBundle s c = .ok b →
        (s.jobLive n = true → exec (.jobStart h) s = .next (settle ((s.mark h).reply h.ref 0x0521 0))) ∧
        (s.jobLive n = false → s.numParts ≤ p ∨ sizeAllowed s b = false →
          exec (.jobStart h) s = .next (settle ((s.mark h).reply h.ref 0x0522 0))) ∧
        (∀ gs bd, s.jobLive n = false → p < s.numParts → sizeAllowed s b = true → ng ≤ b.res.grants → nb ≤ b.res.bindings →
          records grantOf 16 ng bs = some gs → records bindingOf 8 nb (bs.drop (16 * ng)) = some bd →
          gs.all (grantAllowed s b) = true → grantsCover b gs = true → noDup (bd.map (·.slot)) = true → (bit (c.dw 4) 25 = true → b.hasShadow = true) →
          ∃ t, exec (.jobStart h) s = .next t ∧ t.jobs.queue = s.jobs.queue ++ [
              { number := n, cmd := h.ref, seq := c.seq, handle := c.handle, resume := bit (c.dw 4) 24, partition := p,
                priority := bits (c.dw 4) 16 4, shadow := bit (c.dw 4) 25, grants := gs, binds := bd }] ∧
            t.jobs.parts = s.jobs.parts ∧ t.hostOut = s.hostOut ∧ t.cores = s.cores ∧ t.mem = s.mem))) ∧
    (∀ i, (i = .jobEnd h ∧ Begun s h 0x61 c) ∨ (i = .jobPark h ∧ Begun s h 0x62 c) →
      (c.job = none → exec i s = .next (settle ((s.mark h).reply h.ref 0x0528 0))) ∧
      (c.job ≠ none → s.jobSeq (bits c.handle 0 8) ≠ c.job → exec i s = .next (settle ((s.mark h).reply h.ref 0x052A 0))) ∧
      (c.job ≠ none → s.jobSeq (bits c.handle 0 8) = c.job →
        (s.partOfJob (bits c.handle 0 8) = none → exec i s = .next (settle ((s.mark h).reply h.ref 0x0529 0))) ∧
        (∀ p r, s.partOfJob (bits c.handle 0 8) = some p → s.run p = some r →
          i = .jobEnd h ∨ r.state = .faulted ∨ (r.parkCmd = none ∧ ∀ x ∈ r.pendings, x.park = false) →
          ∃ t, exec i s = .next t ∧
            t.run p = some { r with pendings := r.pendings ++ [⟨decide (i = .jobPark h), h.ref⟩] } ∧
            (∀ k, k ≠ p → t.run k = s.run k) ∧ t.hostOut = s.hostOut ∧ t.cores = s.cores ∧ t.mem = s.mem))) ∧
    (Begun s h 0x62 c → ∀ p r, c.job ≠ none → s.jobSeq (bits c.handle 0 8) = c.job → s.partOfJob (bits c.handle 0 8) = some p →
      s.run p = some r → r.state ≠ .faulted → r.parkCmd ≠ none ∨ (∃ x ∈ r.pendings, x.park = true) →
      exec (.jobPark h) s = .next (settle ((s.mark h).reply h.ref 0x052D 0))) ∧
    (Begun s h 0x63 c → ∀ reads,
      (c.job = none → exec (.jobAbort h reads) s = .next (settle ((s.mark h).reply h.ref 0x0528 0))) ∧
      (c.job ≠ none → s.jobSeq (bits c.handle 0 8) ≠ c.job →
        exec (.jobAbort h reads) s = .next (settle ((s.mark h).reply h.ref 0x052A 0))) ∧
      (∀ q, c.job = some q.seq → s.jobs.queue.find? (fun q => q.number == bits c.handle 0 8) = some q →
        ∃ t, exec (.jobAbort h reads) s = .next t ∧ t.jobs.queue = s.jobs.queue.erase q ∧ t.jobs.parts = s.jobs.parts ∧
          t = settle (((s.mark h).dropQueued q 0x0527).ok h.ref 0)) ∧
      ((∀ q ∈ s.jobs.queue, q.number ≠ bits c.handle 0 8) →
        (∀ p r, s.sized → s.partOfJob (bits c.handle 0 8) = some p → s.run p = some r → c.job = some r.seq →
          (r.state = .faulted → ∃ t, exec (.jobAbort h reads) s = .next t ∧ t.hostOut = s.hostOut ∧
            t.run p = some { r with pendings := r.pendings ++ [⟨false, h.ref⟩] }) ∧
          (r.state ≠ .faulted → ∃ t, exec (.jobAbort h reads) s = .next t ∧ t.run p = none ∧
            (∀ k ∈ s.coresOf p, k < 96 → (t.core k).run = .idle) ∧
            (∀ k, k ∉ s.coresOf p → t.core k = s.core k))))) ∧
    (Begun s h 0x64 c →
      ((∀ k ∈ s.jobs.cocoons, k.handle ≠ bits c.handle 0 6) →
        exec (.cocoonDiscard h) s = .next (settle ((s.mark h).reply h.ref 0x052C 0))) ∧
      ((∃ k ∈ s.jobs.cocoons, k.handle = bits c.handle 0 6) →
        (∃ q ∈ s.jobs.queue, q.resume = true ∧ q.handle = bits c.handle 0 6) ∨ s.resuming (bits c.handle 0 6) = true →
        exec (.cocoonDiscard h) s = .next (settle ((s.mark h).reply h.ref 0x0529 0))) ∧
      ((∃ k ∈ s.jobs.cocoons, k.handle = bits c.handle 0 6) →
        (∀ q ∈ s.jobs.queue, q.resume = true → q.handle ≠ bits c.handle 0 6) → s.resuming (bits c.handle 0 6) = false →
        ∃ t, exec (.cocoonDiscard h) s = .next t ∧
          t.jobs.cocoons = s.jobs.cocoons.filter (fun k => k.handle != bits c.handle 0 6) ∧
          (∀ a ∈ t.mem.allocs, a.owner ≠ .cocoon (bits c.handle 0 6)) ∧ t.jobs.parts = s.jobs.parts ∧ t.cores = s.cores ∧
          t.fl = s.fl))

/-- A sequence that joins takes the lowest free entry of its partition and the partition's next arrival number; one fed again
waits with its new prompt; a leave waits for the pass; SEQ_STEP waits in a host-stepped partition; SEQ_QUERY writes the entry as
the last pass left it; SEQ_POLICY holds from the next pass.
Choices of the model: log 35, log 58. -/
def Obligations.SequenceCommands : Prop :=
  ∀ (s : State) (h : HostCmd) (c : Cmd) (p : Nat), p = c.seqPart →
    (∀ i, (i = .seqJoin h ∧ Begun s h 0x68 c) ∨ (i = .seqFeed h ∧ Begun s h 0x69 c) →
      ∀ b bs, h.buf 0 = some b → 128 ≤ b.length → bs = b.take (128 + 16 * recSegs b) → 128 + 16 * recSegs b ≤ b.length →
      128 + 16 * recSegs b ≤ c.len 0 →
      (s.genJob p = none → exec i s = .next (settle ((s.mark h).reply h.ref 0x0606 0))) ∧
      (∀ r kv k l l' a, s.genJob p = some (r, kv) → a = s.seqs.arrival.getD p 0 → i = .seqJoin h →
        lowestFree s.entriesPer (fun j => (s.entry (p * s.entriesPer + j)).isSome) = some k →
        ((s.seqOf p c.handle).isSome = true → exec i s = .next (settle ((s.mark h).reply h.ref 0x0602 0))) ∧
        (s.seqOf p c.handle = none → joinRing r bs = false → exec i s = .next (settle ((s.mark h).reply h.ref 0x0609 0))) ∧
        (s.seqOf p c.handle = none → joinRing r bs = true → (recReserved bs && recSampling bs) = true → segsOf c bs = some l →
          readToks h c l = some l' → (∀ x ∈ hostToks l', x < kv.vocab) → (hostToks l').length < kv.contextLimit →
          ∃ t, exec i s = .next t ∧ t.entry (p * s.entriesPer + k) = some (newEntry c.handle a bs l') ∧
            (∀ m, m ≠ p * s.entriesPer + k → t.entry m = s.entry m) ∧
            t.seqs.arrival = modifyAt s.seqs.arrival p (fun n => (n + 1) % 2 ^ 32) ∧ t.cores = s.cores ∧ t.fl.data = s.fl.data)) ∧
      (∀ r kv n e, s.genJob p = some (r, kv) → i = .seqFeed h →
        (s.seqOf p c.handle = none → exec i s = .next (settle ((s.mark h).reply h.ref 0x0603 0))) ∧
        (s.seqOf p c.handle = some (n, e) → e.leaving = true → exec i s = .next (settle ((s.mark h).reply h.ref 0x0603 0))) ∧
        (s.seqOf p c.handle = some (n, e) → e.leaving = false →
          (e.state = .dropped → exec i s = .next (settle ((s.mark h).reply h.ref 0x0608 0))) ∧
          (e.state = .waiting ∨ e.state = .running → exec i s = .next (settle ((s.mark h).reply h.ref 0x0604 0))) ∧
          (∀ l l', e.state = .idle ∨ e.state = .parked → bit (dwordAt bs 0) 9 = false →
            (recReserved bs && recSampling bs) = true → segsOf c bs = some l → readToks h c l = some l' →
            (∀ x ∈ hostToks l', x < kv.vocab) → e.position + (hostToks l').length < kv.contextLimit →
            ∃ t e', exec i s = .next t ∧ t.entry n = some e' ∧ e'.state = .waiting ∧ e'.handle = e.handle ∧
              e'.position = e.position ∧ e'.kv = e.kv ∧ e'.segs = l' ∧ e'.generated = 0 ∧
              e'.arrival = s.seqs.arrival.getD p 0 ∧
              (bit (dwordAt bs 0) 10 = false → e'.sampleK = e.sampleK ∧ e'.seed = e.seed ∧ e'.maxNew = e.maxNew) ∧
              (bit (dwordAt bs 0) 10 = true → e'.sampleK = bits (dwordAt bs 1) 0 11 ∧ e'.maxNew = dwordAt bs 6) ∧
              (∀ m, m ≠ n → t.entry m = s.entry m) ∧ t.cores = s.cores ∧ t.mem = s.mem)))) ∧
    (Begun s h 0x6A c → ∀ g n e, s.genJob p = some g →
      (s.seqOf p c.handle = none → exec (.seqLeave h) s = .next (settle ((s.mark h).reply h.ref 0x0603 0))) ∧
      (s.seqOf p c.handle = some (n, e) → ∃ t, exec (.seqLeave h) s = .next t ∧
        t.entry n = (s.entry n).map (fun x => { x with leaving := true }) ∧ (∀ m, m ≠ n → t.entry m = s.entry m) ∧
        t.seqs.leaves = s.seqs.leaves ++ [⟨h.ref, p, n⟩] ∧ t.hostOut = s.hostOut ∧ t.mem = s.mem)) ∧
    (Begun s h 0x6B c → ∀ g, s.genJob p = some g →
      ((s.seqs.policy.getD p {}).hostStepped = true → ∃ t, exec (.seqStep h) s = .next t ∧
        t.seqs.steps = s.seqs.steps ++ [(h.ref, p)] ∧ t.hostOut = s.hostOut) ∧
      ((s.seqs.policy.getD p {}).hostStepped = false →
        exec (.seqStep h) s = .next (settle (((s.mark h).callPass p).ok h.ref (2 ^ 32))))) ∧
    (Begun s h 0x6C c → 128 ≤ c.len 0 → ∀ g n e x, s.genJob p = some g → s.seqOf p c.handle = some (n, e) → x = s.snapOf n e →
      exec (.seqQuery h) s = .next (settle (((s.mark h).hostData h.ref 0 x.bytes).ok h.ref
        (x.state.code + 2 ^ 8 * x.reason + 2 ^ 32 * x.position)))) ∧
    (Begun s h 0x6D c → ∀ m b, m = bits (c.dw 5) 0 11 → b = bits (c.dw 6) 0 17 →
      (s.numParts ≤ p → exec (.seqPolicy h) s = .next (settle ((s.mark h).reply h.ref 0x0522 0))) ∧
      (p < s.numParts → m < 1 ∨ 1024 < m ∨ b < 1 ∨ 65536 < b →
        exec (.seqPolicy h) s = .next (settle ((s.mark h).reply h.ref 0x0102 0))) ∧
      (p < s.numParts → 1 ≤ m → m ≤ 1024 → 1 ≤ b → b ≤ 65536 → s.seqs.next.length = 4 → s.gen.layout ≤ 2 →
        ∃ t, exec (.seqPolicy h) s = .next t ∧ t.seqs.next.getD p none = some ⟨m, b, bit (c.dw 7) 0⟩ ∧
          t.seqs.policy = s.seqs.policy ∧ (∀ k, k ≠ p → t.seqs.next.getD k none = s.seqs.next.getD k none) ∧
          t.cores = s.cores))

/-! ## Vector indexes, queries, signal cells (11; 12; 16 R484-R494; 17 R510, R513) -/

/-- INDEX_CREATE makes an index at epoch 1; INDEX_INSERT and INDEX_DELETE apply their records in order, a refused record changing
nothing; INDEX_COMMIT makes the pending epoch current and adopts a rebuilt graph; the others apply what 11 R313-R325 give them. A
command on an index that does not exist replies INDEX_UNKNOWN, one behind an unapplied command of its index waits, and one that meets
an uncorrectable error in what it reads of the index faults. A buffer shorter than the packet asks is refused first.
Choices of the model: log 69, log 70, log 71, log 111, log 112. -/
def Obligations.IndexCommands : Prop :=
  ∀ (s : State) (h : HostCmd) (c : Cmd) (n : Nat), n = bits c.handle 0 6 →
    (s.indexWaits h.ref = true → ∀ i ∈ [Instr.indexCreate h, .indexDestroy h, .indexInsert h, .indexDelete h, .indexCommit h,
        .indexRebalance h, .indexCompact h, .indexRebuild h, .indexAddZones h, .indexInfo h], exec i s = .next (settle s)) ∧
    (s.indexWaits h.ref = false →
    (∀ i op short, (i, op, short) ∈ [(Instr.indexDestroy h, 0x81, false),
        (.indexInsert h, 0x82, c.has 1 && shortFor c 1 (bits (c.dw 4) 0 17) 65536 1),
        (.indexDelete h, 0x83, shortFor c 0 (bits (c.dw 4) 0 17) 65536 32 || (c.has 1 && shortFor c 1 (bits (c.dw 4) 0 17) 65536 1)),
        (.indexCommit h, 0x84, false), (.indexRebalance h, 0x85, false), (.indexCompact h, 0x86, false),
        (.indexRebuild h, 0x87, false), (.indexAddZones h, 0x88, shortFor c 0 (bits (c.dw 4) 0 11) 1024 4),
        (.indexInfo h, 0x89, decide (c.len 0 < 64))] →
      Begun s h op c →
        (short = true → exec i s = .next (settle ((s.mark h).reply h.ref 0x0105 0))) ∧
        (short = false → s.index n = none → exec i s = .next (settle ((s.mark h).reply h.ref 0x0702 0)))) ∧
    (Begun s h 0x80 c → ∀ b d, h.buf 0 = some b → 64 ≤ b.length → 64 ≤ c.len 0 → d = defOf (b.take 64) →
      (d.ok = false ∨ defReserved (b.take 64) d = false →
        exec (.indexCreate h) s = .next (settle ((s.mark h).reply h.ref 0x0703 0))) ∧
      (d.ok = true → defReserved (b.take 64) d = true → createBytes d ≤ c.len 0 → createBytes d ≤ b.length →
        s.idx.indexes.length < 64 →
        (s.index d.index ≠ none → exec (.indexCreate h) s = .next (settle ((s.mark h).reply h.ref 0x0701 0))) ∧
        (s.index d.index = none → d.pagesAll ≤ d.regionPages →
          d.regionPages ≤ s.mem.allocs.foldl (fun k a => k + heldPages (d.region / pageBytes) d.regionPages a) 0 →
          s.pagesInUse (d.region / pageBytes) d.regionPages = false → createStatus d (b.take (createBytes d)) = 0 →
          ∃ t, exec (.indexCreate h) s = .next t ∧
            t = State.leaves (((s.enters h).createIndex d (b.take (createBytes d))).ok h.ref d.index) s ∧
            t.index d.index = some { defn := d } ∧ (∀ k, k ≠ d.index → t.index k = s.index k) ∧ t.fl.data = s.fl.data ∧
            t.cores = s.cores))) ∧
    (∀ x, s.index n = some x →
      (Begun s h 0x81 c →
        ((∃ q ∈ s.idx.queries, q.rec_.index = n) ∨ s.indexGranted n x.defn = true →
          exec (.indexDestroy h) s = .next (settle ((s.mark h).reply h.ref 0x0705 0))) ∧
        ((∀ q ∈ s.idx.queries, q.rec_.index ≠ n) → s.indexGranted n x.defn = false → x.compactions = [] →
          (s.idx.indexes.Pairwise fun a b => a.1 < b.1) →
          ∃ t, exec (.indexDestroy h) s = .next t ∧ t = State.leaves (((s.enters h).destroyIndex n x).ok h.ref 0) s ∧
            t.index n = none ∧ (∀ k, k ≠ n → t.index k = s.index k) ∧ t.cores = s.cores)) ∧
      (∀ i del b stride count spans v, (i = .indexInsert h ∧ del = false ∧ stride = x.defn.fr ∧ Begun s h 0x82 c) ∨
          (i = .indexDelete h ∧ del = true ∧ stride = 32 ∧ Begun s h 0x83 c) →
        count = bits (c.dw 4) 0 17 → 1 ≤ count → count ≤ 65536 → (c.has 1 = true → count ≤ c.len 1) →
        count * stride ≤ c.len 0 → h.buf 0 = some b → count * stride ≤ b.length →
        spans = (List.range count).flatMap (fun i => recordSpans (s.enters h) x.defn del ((b.drop (i * stride)).take stride)) →
        (∀ a, readSpans h.found spans (s.enters h) = (some a, v) → exec i s = .next (State.leaves (v.latch (.command h.ref)
          { status := 0x0F02, addr := a / 64 * 64, space := .device }) s)) ∧
        (∀ rs u k, readSpans h.found spans (s.enters h) = (none, v) →
          applyRecords n del stride count (b.take (count * stride)) (v.afterReads spans) = (rs, u) →
          k = (rs.filter fun r => r != 0).length →
          rs.length = count ∧ exec i s = .next (State.leaves ((if c.has 1 then u.hostData h.ref 1 (rs.map (BitVec.ofNat 8)) else u).reply
            h.ref (if k = 0 then 0 else 0x0707) (k * 2 ^ 32 + (count - k))) s) ∧
          (∀ bs v, (applyRecord n (some del) bs v).1 ≠ 0 → (applyRecord n (some del) bs v).2 = v))) ∧
      (Begun s h 0x84 c →
        (x.cur = 0xFFFFFFFE → exec (.indexCommit h) s = .next (settle ((s.mark h).reply h.ref 0x0709 0))) ∧
        (∀ v, x.cur ≠ 0xFFFFFFFE →
          ((s.idx.queries.filter fun q => q.rec_.index == n).foldl
            (fun (l : List Nat) q => if l.contains q.epoch then l else q.epoch :: l) [x.cur + 1]).length ≤ 8 →
          readSpans h.found (x.finished.map fun k => (x.defn.dirAddr k, 64)) (s.enters h) = (none, v) →
          ∃ t y, exec (.indexCommit h) s = .next t ∧ t.index n = some y ∧ y.cur = x.cur + 1 ∧ y.defn = x.defn ∧
            y.rebuild = false ∧ y.rebalance = false ∧ y.finished = [] ∧
            (x.rebuild = true → y.vCur = 1 - x.vCur ∧ y.vFrom = x.cur + 1) ∧
            (x.rebuild = false → y.vCur = x.vCur ∧ y.vFrom = x.vFrom) ∧ t.cores = s.cores ∧
            (∀ k, k ≠ n → t.index k = s.index k))) ∧
      (Begun s h 0x85 c → ∀ nr nn na b, nr = bits (c.dw 4) 0 11 → nn = bits (c.dw 5) 0 11 → na = c.dw 6 →
        (nr = 0 ∨ nn = 0 → exec (.indexRebalance h) s = .next (settle ((s.mark h).reply h.ref 0x0102 0))) ∧
        (∀ size r v w spans, 1 ≤ nr → nr ≤ 1024 → 1 ≤ nn → nn ≤ 1024 → na ≤ 4000000000 →
          size = (rebalanceParts x.defn nr nn na).2.2.2 → size ≤ c.len 0 → h.buf 0 = some b → size ≤ b.length →
          r = rebalanceOf x.defn nr nn na (b.take size) →
          spans = (r.retired.filter fun k => decide (k < x.defn.centCap)).flatMap (listSpans (s.enters h) x.defn) →
          readSpans h.found spans (s.enters h) = (none, v) → w = v.afterReads spans →
          (rebalanceStatus w x r ≠ 0 →
            exec (.indexRebalance h) s = .next (State.leaves (w.reply h.ref (rebalanceStatus w x r) 0) s)) ∧
          (rebalanceStatus w x r = 0 → ∃ t, exec (.indexRebalance h) s = .next t ∧
            t = State.leaves ((w.rebalance n x r).ok h.ref (moves w x.defn r).length) s ∧
            t.index n = some { x with rebalance := true } ∧ t.fl.data = s.fl.data ∧ t.cores = s.cores))) ∧
      (Begun s h 0x86 c → ∀ first span z lists, first = bits (c.dw 4) 0 22 → span = bits (c.dw 5) 0 23 →
        z = (if bit (c.dw 6) 0 then some (bits (c.dw 7) 0 19) else none) → 1 ≤ span → span ≤ 4194304 →
        lists = (((s.mark h).listedCents x.defn).filter fun k =>
          decide (first ≤ k ∧ k < first + span) && ((s.mark h).dirEnt x.defn k).state != 0) →
        ((∃ y, z = some y ∧ reclaimable s x y = false) →
          exec (.indexCompact h) s = .next (settle ((s.mark h).reply h.ref 0x0706 0))) ∧
        (∀ v, (∀ y, z = some y → reclaimable s x y = true) →
          readSpans h.found (lists.map fun k => (x.defn.dirAddr k, 64)) (s.enters h) = (none, v) →
          ∃ t k, exec (.indexCompact h) s = .next t ∧
          t.index n = some { x with compactions := x.compactions ++ [k] } ∧ k.cmd = h.ref ∧ k.built = false ∧ k.reclaim = z ∧
          k.lists = lists.filter (fun l => compactable v x.defn (x.cur + 1) l) ∧ k.skipped = lists.length - k.lists.length ∧
          t.hostOut = s.hostOut ∧ t.cores = s.cores)) ∧
      (Begun s h 0x87 c → ∀ b size spans v w, size = 64 + x.defn.centCap * x.defn.degree * 4 →
        spans = ((s.enters h).listedCents x.defn).map (fun k => (x.defn.dirAddr k, 64)) →
        (x.defn.graph = false ∧ w = s.enters h) ∨ (x.defn.graph = true ∧ size ≤ c.len 0 ∧ h.buf 0 = some b ∧ size ≤ b.length ∧
          readSpans h.found spans (s.enters h) = (none, v) ∧ w = v.afterReads spans ∧
          rebuildOk w x.defn (x.cur + 1) (b.take size) = true) →
        (x.rebalance = true → exec (.indexRebuild h) s = .next (State.leaves (w.reply h.ref 0x070E 0) s)) ∧
        (x.rebalance = false → x.rebuild = true ∨ x.freeAt ≠ none →
          exec (.indexRebuild h) s = .next (State.leaves (w.reply h.ref 0x070D 0) s)) ∧
        (x.rebalance = false → x.rebuild = false → x.freeAt = none → ∃ t, exec (.indexRebuild h) s = .next t ∧
          t.index n = some { x with rebuild := true } ∧ t.fl.data = s.fl.data ∧ t.cores = s.cores ∧
          (x.defn.graph = false → t.mem = s.mem))) ∧
      (Begun s h 0x88 c → ∀ count b zs, count = bits (c.dw 4) 0 11 → 1 ≤ count → count ≤ 1024 → 4 * count ≤ c.len 0 →
        h.buf 0 = some b → 4 * count ≤ b.length → zs = numbersAt (b.take (4 * count)) 0 count →
        (noDup zs = false ∨ zs.all s.zoneFree = false →
          exec (.indexAddZones h) s = .next (settle ((s.mark h).reply h.ref 0x0706 0))) ∧
        (noDup zs = true → zs.all s.zoneFree = true → s.mem.maps.length + count ≤ 4096 →
          ∃ t y, exec (.indexAddZones h) s = .next t ∧ t.index n = some y ∧ y.owned.length = x.owned.length + count ∧
            (∀ z ∈ zs, (t.zone z).owner = some n ∧ (t.zone z).state = .empty) ∧ y.cur = x.cur ∧
            t.mem.bytes = s.mem.bytes ∧ t.cores = s.cores)) ∧
      (Begun s h 0x89 c → 64 ≤ c.len 0 → (infoRecord s n x).length = 64 ∧
        exec (.indexInfo h) s = .next (settle (((s.mark h).hostData h.ref 0 (infoRecord s n x)).ok h.ref x.cur)))))

/-- What the index engine does beside the commands: COMPACTION_BUILT builds the marked chains and replies where nothing is to be
reclaimed, or faults where a chain cannot be read; RECLAIM_RESET waits for the queries before the last rewrite; INDEX_FEED_CONSUME
consumes all that producers announced and announces it in DONE_CELL.
Choices of the model: log 44, log 71, log 112. -/
def Obligations.IndexEngine : Prop :=
  ∀ (s : State) (found : List Finding),
    (∀ qid cid n x k, s.compaction ⟨qid, cid⟩ = some (n, x, k) →
      (k.built = true → exec (.compactionBuilt qid ⟨cid, found⟩) s = .next (settle s)) ∧
      (∀ a v, k.built = false → readSpans found (s.buildSpans x k) s = (some a, v) →
        exec (.compactionBuilt qid ⟨cid, found⟩) s = .next (settle (v.failCompaction n x k a))) ∧
      (∀ l u v, k.built = false → k.reclaim = none → readSpans found (s.buildSpans x k) s = (none, v) →
        buildLists x.defn k.lists (v.activity.withFound (v.unread (s.buildSpans x k) found)) = (l, u) →
        exec (.compactionBuilt qid ⟨cid, found⟩) s = .next (settle (((u.setIndex n fun x => { x with
          finished := x.finished ++ l }).endCompaction n k.cmd 0
            (l.length + 2 ^ 32 * (k.skipped + (k.lists.length - l.length)))).withFound v.mem.found))) ∧
      (∀ z, k.reclaim = some z →
        (k.built = false ∨ (∃ q ∈ s.idx.queries, k.queries.contains q.seq = true) →
          exec (.reclaimReset qid cid) s = .next (settle s)) ∧
        (k.built = true → (∀ q ∈ s.idx.queries, k.queries.contains q.seq = false) →
          exec (.reclaimReset qid cid) s = .next (settle (s.reclaimReset n x k z))))) ∧
    (∀ n x, s.index n = some x →
      (x.defn.feedEn = false ∨ s.cell x.defn.feedCell ≤ x.feedDone →
        exec (.indexFeedConsume ⟨n, found⟩) s = .next (settle s)) ∧
      (x.defn.feedEn = true → x.feedDone < s.cell x.defn.feedCell → Sparse.wf 0 s.sig.cells = true →
        ∃ t y, exec (.indexFeedConsume ⟨n, found⟩) s = .next t ∧ t.index n = some y ∧ y.feedDone = s.cell x.defn.feedCell ∧
          t.cell x.defn.doneCell = y.feedDone % 2 ^ 64 ∧ y.cur = x.cur ∧ t.cores = s.cores))

/-- A query joins the serving job with the fewest queries, pinned to its index's current epoch; QUERY_MERGE merges hit lists that
agree; a filter takes the lowest free handle, and leaves when no query names it.
Choices of the model: log 72, log 74, log 98. -/
def Obligations.QueriesAndFilters : Prop :=
  ∀ (s : State) (h : HostCmd) (c : Cmd) (b : List Byte), h.buf 0 = some b →
    (Begun s h 0x90 c → ∀ n, 64 ≤ b.length → 64 ≤ c.len 0 → n = bits (dwordAt (b.take 64) 0) 0 6 →
      (s.index n = none → exec (.query h) s = .next (settle ((s.mark h).reply h.ref 0x0702 0))) ∧
      (∀ x, s.index n = some x →
        (s.serverFor n = none → exec (.query h) s = .next (settle ((s.mark h).reply h.ref 0x0711 0))) ∧
        (∀ j, s.serverFor n = some j →
          (queryHeaderOk x.defn (b.take 64) = false →
            exec (.query h) s = .next (settle ((s.mark h).reply h.ref 0x0712 0))) ∧
          (∀ bs need, queryHeaderOk x.defn (b.take 64) = true → need = (queryParts x.defn (b.take 64)).2.2.2 →
            need ≤ c.len 0 → need ≤ b.length → bs = b.take need →
            (queryStatus s c x.defn (queryOf x.defn bs) bs ≠ 0 →
              exec (.query h) s = .next (settle ((s.mark h).reply h.ref (queryStatus s c x.defn (queryOf x.defn bs) bs) 0))) ∧
            (queryStatus s c x.defn (queryOf x.defn bs) bs = 0 → ∃ t q, exec (.query h) s = .next t ∧
              t.idx.queries = s.idx.queries ++ [q] ∧ q.cmd = h.ref ∧ q.job = j ∧ q.epoch = x.cur ∧ q.hits = none ∧
              q.serial = Sparse.get 0 s.idx.serials j ∧ q.rec_ = queryOf x.defn bs ∧ t.hostOut = s.hostOut ∧
              t.mem = s.mem ∧ t.cores = s.cores))))) ∧
    (Begun s h 0x91 c → ∀ nl k size, nl = bits (c.dw 4) 0 9 → k = bits (c.dw 5) 0 11 → size = 64 + 16 * k → 2 ≤ nl → nl ≤ 256 →
      1 ≤ k → k ≤ 1024 → size ≤ c.len 1 → nl * size ≤ c.len 0 → nl * size ≤ b.length →
      ((List.range nl).mapM (fun i => hitListOf k (dwordAt ((b.take (nl * size)).drop 32) 1)
          (((b.take (nl * size)).drop (i * size)).take size)) = none →
        exec (.queryMerge h) s = .next (settle ((s.mark h).reply h.ref 0x0719 0))) ∧
      (∀ a rest m, (List.range nl).mapM (fun i => hitListOf k (dwordAt ((b.take (nl * size)).drop 32) 1)
          (((b.take (nl * size)).drop (i * size)).take size)) = some (a :: rest) →
        m = rest.foldl HitList.merge { a with entries := mergeEntries k [] a.entries, thresh := 0 } →
        exec (.queryMerge h) s = .next (settle (((s.mark h).hostData h.ref 1 m.bytes).ok h.ref m.result)))) ∧
    (Begun s h 0x92 c → ∀ n x, b.length = c.len 0 → 16 ≤ c.len 0 → n = bits (dwordAt b 0) 0 6 → s.index n = some x →
      (dwordAt b 0 / 64 ≠ 0 ∨ qwordAt b 2 ≠ 0 ∨ chunksOf x.defn.maxItems (dwordAt b 1) 0 (b.drop 16) = none →
        exec (.filterLoad h) s = .next (settle ((s.mark h).reply h.ref 0x0715 0))) ∧
      (∀ chunks k pages, dwordAt b 0 / 64 = 0 → qwordAt b 2 = 0 → chunksOf x.defn.maxItems (dwordAt b 1) 0 (b.drop 16) =
          some chunks → lowestFree 256 (fun i => (Sparse.find s.idx.filters i).isSome) = some k →
        pages = ceilDiv (ceilDiv x.defn.maxItems 8) pageBytes →
        (s.boardFree < pages → exec (.filterLoad h) s = .next (settle ((s.mark h).reply h.ref 0x0401 0))) ∧
        (pages ≤ s.boardFree → ∃ t page, exec (.filterLoad h) s = .next t ∧
          Sparse.find t.idx.filters k = some ⟨n, chunks, page, pages⟩ ∧
          (∀ i, i ≠ k → Sparse.find t.idx.filters i = Sparse.find s.idx.filters i) ∧ t.cores = s.cores ∧ t.fl = s.fl))) ∧
    (Begun s h 0x93 c → ∀ k, k = bits c.handle 0 8 →
      (Sparse.find s.idx.filters k = none → exec (.filterFree h) s = .next (settle ((s.mark h).reply h.ref 0x0714 0))) ∧
      (Sparse.find s.idx.filters k ≠ none → (∃ q ∈ s.idx.queries, q.rec_.filter = some k) →
        exec (.filterFree h) s = .next (settle ((s.mark h).reply h.ref 0x0716 0))) ∧
      (Sparse.find s.idx.filters k ≠ none → (∀ q ∈ s.idx.queries, q.rec_.filter ≠ some k) →
        (s.idx.filters.Pairwise fun a b => a.1 < b.1) →
        ∃ t, exec (.filterFree h) s = .next t ∧ Sparse.find t.idx.filters k = none ∧
          (∀ i, i ≠ k → Sparse.find t.idx.filters i = Sparse.find s.idx.filters i) ∧
          (∀ a ∈ t.mem.allocs, a.owner ≠ .filter k) ∧ t.cores = s.cores ∧ t.fl = s.fl))

/-- Local signal cells: SIG_READ, SIG_SET and SIG_ADD act on one 64-bit cell that wraps, SIG_WAIT replies once the cell has reached
its threshold or its time has passed; a release waits for the acknowledgements of the host's remote writes. An operation on another
module's cell is sent as a request.
Choices of the model: log 32. -/
def Obligations.SignalCells : Prop :=
  ∀ (s : State) (h : HostCmd) (c : Cmd), Sparse.wf 0 s.sig.cells = true →
    (Begun s h 0xA0 c → s.sigRemote c = false →
      exec (.sigRead h) s = .next (settle (((s.mark h).watchCell c.cell).ok h.ref (s.cell c.cell)))) ∧
    (∀ i v old, (i = .sigSet h ∧ Begun s h 0xA1 c ∧ v = c.qw 6 ∧ old = s.cell c.cell) ∨
        (i = .sigAdd h ∧ Begun s h 0xA2 c ∧ v = (s.cell c.cell + c.qw 6) % 2 ^ 64 ∧ old = v) → s.sigRemote c = false →
      (s.bar2Waits = true → exec i s = .next (settle s)) ∧
      (s.bar2Waits = false → ∃ t, exec i s = .next t ∧
        t = settle ((((s.mark h).commitCmd h.ref).writeCell c.cell v).ok h.ref old) ∧ t.cell c.cell = v % 2 ^ 64 ∧
        (∀ k, k ≠ c.cell → t.cell k = s.cell k) ∧ t.cores = s.cores ∧ t.mem = s.mem ∧
        t.sig.waits = s.sig.waits.filter (fun w => !(w.cell == c.cell && decide (w.threshold ≤ v % 2 ^ 64))))) ∧
    (∀ i op, (i = .sigRead h ∧ op = sigRead ∧ Begun s h 0xA0 c) ∨
        (i = .sigSet h ∧ op = sigSet ∧ Begun s h 0xA1 c ∧ s.bar2Waits = false) ∨
        (i = .sigAdd h ∧ op = sigAdd ∧ Begun s h 0xA2 c ∧ s.bar2Waits = false) → s.sigRemote c = true →
      (s.canLaunch (bits (c.dw 5) 0 16) = .noTag → exec i s = .next (settle s)) ∧
      (s.canLaunch (bits (c.dw 5) 0 16) = .noRoute →
        exec i s = .next (settle ((s.mark h).undeliverable.reply h.ref 0x0801 0))) ∧
      (∀ tag port, s.canLaunch (bits (c.dw 5) 0 16) = .ready tag port →
        exec i s = .next (settle ((s.mark h).sendSig (.hostSig h.ref op) op (bits (c.dw 5) 0 16) c.cell (c.qw 6) tag port)))) ∧
    (Begun s h 0xA3 c →
      (bit (c.dw 5) 16 = true → exec (.sigWait h) s = .next (settle ((s.mark h).reply h.ref 0x0102 0))) ∧
      (bit (c.dw 5) 16 = false → c.qw 6 ≤ s.cell c.cell →
        exec (.sigWait h) s = .next (settle (((s.mark h).watchCell c.cell).ok h.ref (s.cell c.cell)))) ∧
      (bit (c.dw 5) 16 = false → s.cell c.cell < c.qw 6 → ∃ t, exec (.sigWait h) s = .next t ∧
        t.sig.waits = s.sig.waits ++ [⟨h.ref, c.cell, c.qw 6, c.dw 8, s.time⟩] ∧ t.sig.cells = s.sig.cells ∧
        t.hostOut = s.hostOut)) ∧
    (∀ qid cid w, s.sig.waits.find? (fun w => w.cmd == ⟨qid, cid⟩) = some w →
      (w.timeoutUs = 0 → exec (.sigWaitTimeout qid cid) s = .next (settle s)) ∧
      (w.timeoutUs ≠ 0 → ∃ t, exec (.sigWaitTimeout qid cid) s = .next t ∧ t.sig.waits = s.sig.waits.erase w ∧
        w.since + w.timeoutUs * 1000 ≤ t.time ∧ t.sig.cells = s.sig.cells ∧
        t = settle ((({ s with
            time := max s.time (w.since + w.timeoutUs * 1000)
            sig := { s.sig with waits := s.sig.waits.erase w } } : State)).reply w.cmd 0x010D (s.cell w.cell)))) ∧
    (∀ n v,
      (s.bar2Waits = true → ∃ t, exec (.sigCellWrite n v) s = .next t ∧ t.sig.cells = s.sig.cells ∧
        t.sig.held = s.sig.held ++ [(n % 4096, v % 2 ^ 64, false)]) ∧
      (s.bar2Waits = false → ∃ t, exec (.sigCellWrite n v) s = .next t ∧ t.cell (n % 4096) = v % 2 ^ 64 ∧
        (∀ k, k ≠ n % 4096 → t.cell k = s.cell k) ∧ t.cores = s.cores ∧ t.mem = s.mem))

/-! ## The Wyrdlink (17; 22 R619) -/

/-- The states of a port: training, its outcome, retrains, the loss of the neighbour, and what its registers command. A port that
leaves the link says so in WLK_EVT; the other ports stay as they are.
Choices of the model: log 78, log 129. -/
def Obligations.PortStates : Prop :=
  ∀ (s : State) (p : Nat), s.sized → p < 4 →
    ((s.port p).state = .down → (s.port p).auto = true → s.mayTrain p = true →
      ∃ t, exec (.portTrain p) s = .next t ∧ t.port p = { s.port p with state := .training, trainMax := (s.port p).maxWidth } ∧
        bit t.wlk.evt p = true ∧ ∀ q, q ≠ p → t.port q = s.port q) ∧
    ((s.port p).state ≠ .down ∨ (s.port p).auto = false ∨ s.mayTrain p = false →
      exec (.portTrain p) s = .next (settle s)) ∧
    ((s.port p).state ≠ .training → ∀ peer, exec (.portTrained p peer) s = .next (settle s)) ∧
    ((s.port p).state = .training → s.phys.cable.getD p false = false → ∀ peer, ∃ t, exec (.portTrained p peer) s = .next t ∧
      (t.port p).state = .down) ∧
    ((s.port p).state = .training → s.phys.cable.getD p false = true →
      (∃ t, exec (.portTrained p none) s = .next t ∧ (t.port p).state = .down ∧ (t.port p).lanesOk = 0) ∧
      (∀ x, x.width = 1 ∨ x.width = 2 ∨ x.width = 4 → x.width ≤ (s.port p).trainMax →
        (x.version = 1 → x.id ≠ s.gen.features.moduleId → ∃ t, exec (.portTrained p (some x)) s = .next t ∧
          t.gen.moduleId = s.gen.features.moduleId ∧ t.port p = { (s.port p).fresh x with
            state := .up, ident := some ⟨s.gen.features.moduleId, Config.stepping.val, 1⟩ } ∧
          (s.gen.moduleId = s.gen.features.moduleId → ∀ q, q ≠ p → t.port q = s.port q) ∧
          (s.gen.moduleId ≠ s.gen.features.moduleId → ∀ q, q < 4 → q ≠ p → (s.port q).state = .up →
            (t.port q).state = .retrain)) ∧
        (x.version ≠ 1 ∨ x.id = s.gen.features.moduleId → ∃ t, exec (.portTrained p (some x)) s = .next t ∧
          (t.port p).state = .conflict ∧ (t.port p).peer = x.id))) ∧
    ((s.port p).state = .up → ∃ t, exec (.laneLockLoss p) s = .next t ∧ (t.port p).state = .retrain ∧
      (t.port p).retrains = sat64 ((s.port p).retrains + 1) ∧ ∀ q, q ≠ p → t.port q = s.port q) ∧
    ((s.port p).state = .retrain →
      (∀ x, s.phys.cable.getD p false = true → x.version = 1 → x.id ≠ s.gen.moduleId →
        ∃ t, exec (.fastRetrainDone p (some x)) s = .next t ∧ (t.port p).state = .up ∧ (t.port p).rxSeq = (s.port p).rxSeq ∧
          (t.port p).peer = x.id ∧ (t.port p).ident = some ⟨s.gen.moduleId, Config.stepping.val, 1⟩ ∧
          ((∀ e ∈ (s.port p).outq, 4 ≤ e.1) → ∀ q, q ≠ p → t.port q = s.port q)) ∧
      (∀ x, s.phys.cable.getD p false = true → x.version ≠ 1 ∨ x.id = s.gen.moduleId →
        ∃ t, exec (.fastRetrainDone p (some x)) s = .next t ∧ (t.port p).state = .conflict ∧ (t.port p).peer = x.id ∧
          (t.port p).replay = [] ∧ ∀ r ∈ s.wlk.requests, r.sent = true → r.port = p → r ∉ t.wlk.requests) ∧
      (∀ x, x = none ∨ s.phys.cable.getD p false = false →
        exec (.fastRetrainDone p x) s = .next (settle (s.peerLost p .down)))) ∧
    (4 ≤ (s.port p).missed → (s.port p).state = .up ∨ (s.port p).state = .retrain →
      exec (.heartbeatLoss p) s = .next (settle (s.peerLost p .down))) ∧
    (∀ st, (s.port p).state ≠ st → ((s.peerLost p st).port p).state = st ∧ ((s.peerLost p st).port p).peerValid = false ∧
      ((s.peerLost p st).port p).losses = sat64 ((s.port p).losses + 1) ∧ bit (s.peerLost p st).wlk.evt (4 + p) = true ∧
      (st ≠ .up → ∀ r ∈ s.wlk.requests, r.sent = true → r.port = p → r ∉ (s.peerLost p st).wlk.requests) ∧
      (∀ e ∈ (s.peerLost p st).wlk.inbox, e.1 ≠ p)) ∧
    (∃ t, exec (.portDisable p) s = .next t ∧ (t.port p).state = .disabled ∧ (t.port p).disable = true) ∧
    ((s.port p).state ≠ .disabled → s.mayTrain p = true → ∃ t, exec (.retrain p) s = .next t ∧ (t.port p).state = .training ∧
      (t.port p).peerValid = false ∧ (∀ q, q ≠ p → t.port q = s.port q)) ∧
    ((s.port p).state = .disabled ∨ s.mayTrain p = false → exec (.retrain p) s = .next (settle s.activity)) ∧
    (∀ on, p < s.phys.cable.length → ∃ t, exec (.cablePresent p on) s = .next t ∧ t.phys.cable.getD p false = on ∧
      (∀ q, q ≠ p → t.phys.cable.getD q false = s.phys.cable.getD q false) ∧ t.mem = s.mem ∧
      (on = true ∨ (s.port p).state ≠ .up → t.wlk = s.wlk) ∧
      (on = false → (s.port p).state = .up → (t.port p).state = .retrain ∧ ∀ q, q ≠ p → t.port q = s.port q))

/-- What arrives on a port: a flit with a bad CRC is counted and asked for again, one out of order is asked for again, and the next
one in order brings the messages that it completes and is acknowledged; a port sends flits of class MGMT first, then of RSP, then of the others in
turns, and begins a message whose credits it holds; heartbeats and notices; what the routes and apertures are set to; and the layouts
of flits and messages, which are read as they are written.
Choices of the model: log 12, log 79. -/
def Obligations.FlitsAndNotices : Prop :=
  ∀ (s : State), s.sized →
    (∀ p bs, (s.port p).state ≠ .up → exec (.flitReceive p bs) s = .next (settle s)) ∧
    (∀ p bs, p < 4 → (s.port p).state = .up →
      (flitOf bs = none → ∃ t, exec (.flitReceive p bs) s = .next t ∧
        (t.port p).crc = sat64 ((s.port p).crc + 1) ∧ (t.port p).rxSeq = (s.port p).rxSeq ∧ (t.port p).parts = (s.port p).parts ∧
        (t.port p).replay = (s.port p).replay ∧ (t.port p).nakOut = false ∧ t.wlk.inbox = s.wlk.inbox ∧
        ∃ rest, t.wlOut = s.wlOut ++ (p, Flit.bytes { (s.port p).idleFlit with nak := true }) :: rest) ∧
      (∀ f, flitOf bs = some f → f.idle = false → f.seq ≠ (s.port p).rxSeq → ∃ t, exec (.flitReceive p bs) s = .next t ∧
        (t.port p).nakOut = false ∧ (t.port p).rxSeq = (s.port p).rxSeq ∧ (t.port p).parts = (s.port p).parts ∧
        t.wlk.inbox = s.wlk.inbox ∧ ∃ g rest, t.wlOut = s.wlOut ++ (p, Flit.bytes g) :: rest ∧ g.nak = true) ∧
      (∀ f msgs part, flitOf bs = some f → f.idle = false → f.seq = (s.port p).rxSeq →
        Flit.messages f ((s.port p).parts.getD f.cls []) = (msgs, part) →
        (∀ m ∈ msgs, m.cls = f.cls → m.dst = s.gen.moduleId ∧ Msg.known m = true ∧ (m.cls < 2 ∨ s.holdsRequests = false)) →
        ∃ t, exec (.flitReceive p bs) s = .next t ∧
          (t.port p).rxSeq = ((s.port p).rxSeq + 1) % 4096 ∧ (t.port p).ackOut = f.seq ∧
          (t.port p).rxFlits = sat64 ((s.port p).rxFlits + 1) ∧
          (f.cls < (s.port p).parts.length → (t.port p).parts.getD f.cls [] = part) ∧
          t.wlk.inbox = s.wlk.inbox ++ (msgs.filter fun m => m.cls == f.cls).map (fun m => (p, m)) ∧
          t.cores = s.cores ∧ t.mem = s.mem ∧
          (f.nak = false → ∃ g rest, t.wlOut = s.wlOut ++ (p, Flit.bytes g) :: rest ∧ g.ack = f.seq ∧ g.nak = (s.port p).nakOut))) ∧
    (∀ t : Port,
      (1024 ≤ t.replay.length → t.next = none) ∧
      (t.replay.length < 1024 → ∀ x,
        (t.nextOf 0 = some x → t.next = some x) ∧ (t.nextOf 0 = none → t.nextOf 1 = some x → t.next = some x) ∧
        (∀ j, j < 4 → t.nextOf 0 = none → t.nextOf 1 = none → t.nextOf (2 + (t.lastClass + 3 + j) % 4) = some x →
          (∀ i, i < j → t.nextOf (2 + (t.lastClass + 3 + i) % 4) = none) → t.next = some x)) ∧
      (∀ k q m part, t.nextOf k = some (some q, ⟨m, part⟩) → part = 0 ∧ (q, m) ∈ t.outq ∧ m.cls = k ∧ Msg.units m ≤ t.credits.getD k 0 ∧
        t.sending.getD k none = none ∧
        (k < t.credits.length → (t.sent (some q, ⟨m, part⟩)).credits.getD k 0 = t.credits.getD k 0 - Msg.units m) ∧
        (t.sent (some q, ⟨m, part⟩)).outq = t.outq.erase (q, m)) ∧
      (∀ x, (t.sent x).replay = t.replay ++ [⟨t.msgFlit x.2.msg x.2.part, 1⟩] ∧ (t.sent x).txSeq = (t.txSeq + 1) % 4096 ∧
        (2 ≤ x.2.msg.cls → (t.sent x).lastClass = x.2.msg.cls) ∧
        (x.2.msg.cls < t.sending.length → (t.sent x).sending.getD x.2.msg.cls none =
          if x.2.part + 1 < Msg.flits x.2.msg then some ⟨x.2.msg, x.2.part + 1⟩ else none))) ∧
    (∀ f : Flit, f.seq < 4096 → f.ack < 4096 → f.cls < 8 → f.first < 256 → f.payload.length = 240 → f.crClass < 8 →
      f.crUnits < 4096 → (Flit.bytes f).length = 256 ∧ flitOf (Flit.bytes f) = some f) ∧
    (∀ (m : Msg) rest, m.cls < 8 → m.op < 32 → m.tag < 65536 → m.src < 65536 → m.dst < 65536 → m.addr < 2 ^ 48 → 1 ≤ m.len →
      m.len ≤ 4096 → m.rstatus < 16 → m.payload.length = payloadLen m.cls m.op m.rstatus m.len →
      msgOf (Msg.bytes m ++ rest) = m ∧ (Msg.bytes m).length = msgSize (Msg.bytes m ++ rest)) ∧
    (∃ t, exec .heartbeatSend s = .next t ∧ t.time = (s.time / 100000 + 1) * 100000 ∧ ∀ p, p < 4 →
      ((s.port p).state = .up ∨ (s.port p).state = .retrain →
        (t.port p).missed = (if (s.port p).got then 0 else (s.port p).missed + 1) ∧ (t.port p).got = false) ∧
      ((s.port p).state = .up → (t.port p).hbCount = ((s.port p).hbCount + 1) % 2 ^ 32)) ∧
    (∀ p, p < 4 →
      (∀ e, s.wlk.inbox.find? (fun e => (e.1 == p && e.2.op == 0) && s.nextMgmt e) = some e →
        ∃ t, exec (.heartbeat p) s = .next t ∧
          t.port p = { s.port p with got := true, owed := modifyAt (s.port p).owed e.2.cls fun u => u + Msg.units e.2 } ∧
          t.wlk.inbox = s.wlk.inbox.erase e) ∧
      (s.wlk.inbox.find? (fun e => (e.1 == p && e.2.op == 0) && s.nextMgmt e) = none →
        exec (.heartbeat p) s = .next (settle s)) ∧
      ((s.port p).missed < 4 → exec (.heartbeatLoss p) s = .next (settle s))) ∧
    (∀ type evt p m u, s.takeNotice type evt = some (p, m, u) → u.jobs = s.jobs ∧ u.mem = s.mem ∧ u.cores = s.cores ∧
      bit u.wlk.evt evt = true ∧ bits u.wlk.lastNotice 0 4 = type) ∧
    (∀ p m u, s.takeNotice 1 8 = some (p, m, u) →
      (u.routedBy p (noticeOf m).2.1 = true → exec .linkDown s = .next (settle ((failAll
        (u.wlk.requests.filter fun r => r.msg.dst == (noticeOf m).2.1 && (!r.sent || r.port == p)) u).faultBound
          fun b => b == (noticeOf m).2.1).tagsFreed)) ∧
      (u.routedBy p (noticeOf m).2.1 = false → exec .linkDown s = .next (settle u))) ∧
    (∀ p m u, s.takeNotice 2 8 = some (p, m, u) →
      ((s.port p).state = .up ∨ (s.port p).state = .retrain → exec .departing s = .next (settle (u.peerLost p .down))) ∧
      ((s.port p).state ≠ .up → (s.port p).state ≠ .retrain → exec .departing s = .next (settle u))) ∧
    (∀ p m u, s.takeNotice 3 9 = some (p, m, u) → exec .peerJobFault s = .next (settle u)) ∧
    (∀ v, Sparse.wf {} s.wlk.routes = true → ∃ t, exec (.routeWrite v) s = .next t ∧
      Sparse.get {} t.wlk.routes s.wlk.rtIndex = ⟨bits v 0 2, bit v 2⟩ ∧
      (∀ k, k ≠ s.wlk.rtIndex → Sparse.get {} t.wlk.routes k = Sparse.get {} s.wlk.routes k) ∧
      t.wlk.rtIndex = (if s.wlk.rtAuto then (s.wlk.rtIndex + 1) % 65536 else s.wlk.rtIndex)) ∧
    (∀ a v x k, a < s.wlk.apertures.length → x = s.wlk.apertures.getD a {} →
      k = (if bits v 1 2 = 3 then x.cls else bits v 1 2) → ∃ t, exec (.apertureEnable a v) s = .next t ∧
        t.wlk.apertures.getD a {} = { x with
          cls := k
          pages := bits v 32 25
          en := bit v 0 && bits v 1 2 != 3 && s.apertureOk a { x with cls := k, pages := bits v 32 25 } } ∧
        (∀ i, i ≠ a → t.wlk.apertures.getD i {} = s.wlk.apertures.getD i {}) ∧ t.mem = s.mem)

/-- What peers ask of this module: a read or a write is performed only where an export admits it, and refused with nothing changed
in memory otherwise; a signal operation acts on its cell and answers with the value. -/
def Obligations.PeerOperations : Prop :=
  ∀ (s : State), Sparse.wf 0 s.sig.cells = true → Memory.wf 0 s.mem.bytes = true →
    (∀ found, s.takeReq [2] 0 = none → exec (.wlRead found) s = .next (settle s)) ∧
    (∀ found, s.takeReq [2, 4, 5] 1 = none → exec (.wlWrite found) s = .next (settle s)) ∧
    (∀ found m u, s.takeReq [2] 0 = some (m, u) → u.mem = s.mem ∧
      (m.addr % 64 = 0 → m.len % 64 = 0 → s.admitted m false = true →
        exec (.wlRead found) s = .next (settle (answerRead m found 16 m.addr m.len u))) ∧
      (m.addr % 64 ≠ 0 ∨ m.len % 64 ≠ 0 ∨ s.admitted m false = false →
        ∃ t, exec (.wlRead found) s = .next t ∧ t = settle (u.refuse m) ∧ t.mem = s.mem ∧ t.cores = s.cores ∧
          t.wlk.refused = sat64 (s.wlk.refused + 1) ∧ bit t.wlk.evt 10 = true)) ∧
    (∀ found m u, s.takeReq [2, 4, 5] 1 = some (m, u) →
      (m.addr % 4 = 0 → m.addr / 256 = (m.addr + m.len - 1) / 256 → m.payload.length = m.len → s.admitted m true = true →
        (m.poison = false → exec (.wlWrite found) s = .next (settle ((u.devWrite m.addr m.payload found).respond
          (Msg.answer (u.devWrite m.addr m.payload found) m 1 0 false m.addr m.len [])))) ∧
        (m.poison = true → exec (.wlWrite found) s = .next (settle ((u.writePoison m.addr m.len).respond
          (Msg.answer (u.writePoison m.addr m.len) m 1 0 false m.addr m.len [])))) ∧
        (m.poison = false → m.addr % 64 = 0 → m.len % 64 = 0 → ∃ t, exec (.wlWrite found) s = .next t ∧
          (∀ i, i < m.len → Sparse.get 0 t.mem.bytes (m.addr + i) = m.payload.getD i 0) ∧
          (∀ x, x < m.addr ∨ m.addr + m.len ≤ x → Sparse.get 0 t.mem.bytes x = Sparse.get 0 s.mem.bytes x))) ∧
      (m.addr % 4 ≠ 0 ∨ m.addr / 256 ≠ (m.addr + m.len - 1) / 256 ∨ m.payload.length ≠ m.len ∨ s.admitted m true = false →
        ∃ t, exec (.wlWrite found) s = .next t ∧ t = settle (u.refuse m) ∧ t.mem = s.mem ∧
        t.cores = s.cores ∧ t.wlk.refused = sat64 (s.wlk.refused + 1))) ∧
    (∀ m u, s.takeReq [3] 0 = some (m, u) →
      exec .wlSigRead s = .next (settle ((u.watchCell (sigCell m)).sigAnswer m (s.cell (sigCell m))))) ∧
    (∀ m u, s.takeReq [3] 1 = some (m, u) → ∃ t, exec .wlSigSet s = .next t ∧
      t = settle ((u.writeCell (sigCell m) (sigOperand m)).sigAnswer m (s.cell (sigCell m))) ∧
      t.cell (sigCell m) = sigOperand m % 2 ^ 64 ∧ (∀ k, k ≠ sigCell m → t.cell k = s.cell k) ∧ t.mem = s.mem ∧
      t.cores = s.cores) ∧
    (∀ m u, s.takeReq [3] 2 = some (m, u) → ∃ t v, v = (s.cell (sigCell m) + sigOperand m) % 2 ^ 64 ∧
      exec .wlSigAdd s = .next t ∧ t = settle ((u.writeCell (sigCell m) v).sigAnswer m v) ∧ t.cell (sigCell m) = v ∧
      (∀ k, k ≠ sigCell m → t.cell k = s.cell k) ∧ t.mem = s.mem ∧ t.cores = s.cores) ∧
    (∀ m u, s.takeReq [3] 3 = some (m, u) →
      (sigOperand m ≤ s.cell (sigCell m) → exec .wlSigWait s = .next (settle (u.sigAnswer m (s.cell (sigCell m))))) ∧
      (s.cell (sigCell m) < sigOperand m → s.holdsWait m = true → exec .wlSigWait s = .next (settle u)) ∧
      (s.cell (sigCell m) < sigOperand m → s.holdsWait m = false → s.wlk.waits.length < 1024 → ∃ t, exec .wlSigWait s = .next t ∧
        t.wlk.waits = s.wlk.waits ++ [⟨m.src, m.tag, sigCell m, sigOperand m, s.time⟩] ∧ t.sig = s.sig ∧ t.wlOut = s.wlOut) ∧
      (s.cell (sigCell m) < sigOperand m → s.holdsWait m = false → 1024 ≤ s.wlk.waits.length →
        exec .wlSigWait s = .next (settle (u.answerStatus m 3))))

/-- The answers to this module's own requests, the end of their time, and the renewal of waits: each wait and each held request is answered
PENDING. An answer without a request is dropped; PENDING restarts the time; a request that failed is gone; an access of BAR2 that was refused
counts once.
Choices of the model: log 32, log 80, log 128. -/
def Obligations.RemoteAnswers : Prop :=
  ∀ (s : State),
    (∀ i op, (i, op) ∈ [(Instr.readData, 0), (.writeAck, 1), (.sigData, 2)] →
      (s.takeAnswer op = none → exec i s = .next (settle s)) ∧
      (∀ m u, s.takeAnswer op = some (m, none, u) → exec i s = .next (settle u)) ∧
      (∀ m r u, s.takeAnswer op = some (m, some r, u) →
        (m.rstatus = 3 → exec i s = .next (settle (u.setRequest r.tag fun r => { r with since := s.time, resend := true }))) ∧
        (m.rstatus = 2 → exec i s = .next (settle (u.failRequest r).tagsFreed)))) ∧
    (∀ m r u, s.takeAnswer 0 = some (m, some r, u) →
      (∀ n, m.rstatus = 0 → r.by_ = .coreDma n →
        (r.msg.len ≤ r.got.length + m.payload.length → ∀ sp, u.tagOffset n r.tag = some sp →
          exec .readData s = .next (settle (((u.dmaBytes n r.tag (sp + r.got.length) m.payload m.poison).endRequest r.tag).dmaAnswered n
            r.tag).tagsFreed)) ∧
        (r.got.length + m.payload.length < r.msg.len → ∀ sp, u.tagOffset n r.tag = some sp →
          exec .readData s = .next (settle ((u.dmaBytes n r.tag (sp + r.got.length) m.payload m.poison).setRequest r.tag fun r' =>
            { r' with got := r.got ++ m.payload, poisoned := r.poisoned || m.poison })))) ∧
      (m.rstatus = 0 → r.by_ = .bar2Read → r.msg.len ≤ r.got.length + m.payload.length →
        exec .readData s = .next (settle ((u.endRequest r.tag).bar2Part r.tag (r.got ++ m.payload) (r.poisoned || m.poison) false).tagsFreed)) ∧
      (m.rstatus = 1 → r.by_ = .bar2Read → exec .readData s = .next (settle
        ((u.endRequest r.tag).bar2Part r.tag (List.replicate r.msg.len 0xFF) false true).tagsFreed)) ∧
      (∀ n, m.rstatus = 1 → r.by_ = .coreDma n →
        exec .readData s = .next (settle ((u.endRequest r.tag).dmaRefused n r.tag).tagsFreed)) ∧
      (∀ a k cls off bs, r.by_ = .bar2Merge a k cls off bs →
        (m.rstatus = 0 → r.msg.len ≤ r.got.length + m.payload.length →
          (r.poisoned || m.poison) = false →
          exec .readData s = .next (settle (u.mergeWrite r a k cls off bs (r.got ++ m.payload)).tagsFreed)) ∧
        (m.rstatus = 0 → r.msg.len ≤ r.got.length + m.payload.length →
          (r.poisoned || m.poison) = true → exec .readData s = .next (settle (u.endRequest r.tag).tagsFreed)) ∧
        (m.rstatus = 1 → exec .readData s = .next (settle ((u.endRequest r.tag).bar2Lost a k).tagsFreed)))) ∧
    (∀ m r u, s.takeAnswer 1 = some (m, some r, u) →
      (∀ n, m.rstatus = 0 → r.by_ = .coreDma n →
        exec .writeAck s = .next (settle ((u.endRequest r.tag).dmaAnswered n r.tag).tagsFreed)) ∧
      (∀ a k, r.by_ = .bar2Write a k →
        (m.rstatus = 0 → exec .writeAck s = .next (settle (u.endRequest r.tag).tagsFreed)) ∧
        (m.rstatus = 1 → exec .writeAck s = .next (settle ((u.endRequest r.tag).bar2Lost a k).tagsFreed))) ∧
      (∀ n, m.rstatus = 1 → r.by_ = .coreDma n →
        exec .writeAck s = .next (settle ((u.endRequest r.tag).dmaRefused n r.tag).tagsFreed))) ∧
    (∀ a, s.bar2Lost a true = s ∧ (s.bar2Lost a false).mig.bar2Drop = sat64 (s.mig.bar2Drop + 1) ∧
      bit (s.bar2Lost a false).mig.evt 12 = true ∧
      ∀ r ∈ (s.bar2Lost a false).wlk.requests, ∀ k, r.by_ = .bar2Write a k → k = true) ∧
    (∀ m r u, s.takeAnswer 2 = some (m, some r, u) → m.rstatus = 0 →
      (∀ c op, r.by_ = .hostSig c op →
        exec .sigData s = .next (settle ((u.endRequest r.tag).ok c (leNat (m.payload.take 8))).tagsFreed)) ∧
      (∀ n, r.by_ = .coreWait n →
        exec .sigData s = .next (settle (((u.endRequest r.tag).setCore n fun c => { c with wait := none }).wake 1).tagsFreed)) ∧
      (∀ p, r.by_ = .gate p → exec .sigData s = .next (settle ((u.endRequest r.tag).setRun p fun x => { x with
        gates := mapIf (fun g => g.tag == some r.tag) (fun g => { g with tag := none, value := some (leNat (m.payload.take 8)) })
          x.gates }).tagsFreed)) ∧
      (∀ n, r.by_ = .coreAdd n → exec .sigData s = .next (settle (((u.endRequest r.tag).setCore n fun c =>
        { c with adds := c.adds.filter fun a => a.tag != some r.tag }).signals n).tagsFreed))) ∧
    (∀ tag r, s.request tag = some r →
      (r.sent = false → exec (.requestTimeout tag) s = .next (settle s)) ∧
      (r.sent = true → ∃ t, exec (.requestTimeout tag) s = .next t ∧ r.since + s.wlk.timeoutUs * 1000 ≤ t.time ∧
        ∃ f, f = State.failRequest { s with time := max s.time (r.since + s.wlk.timeoutUs * 1000) } r ∧
          (∀ x ∈ f.wlk.requests, x.tag ≠ tag) ∧ t = settle f.tagsFreed) ∧
      (∀ n u, r.by_ = .coreWait n → r.sent = true → r.resend = true →
        u = releaseHeld (s.dropRequest tag).wlk.requests.length (s.dropRequest tag) →
        (∀ p, u.exitPort r.msg.dst = some p → ∃ t, exec (.watchResend tag) s = .next t ∧ t = settle (u.launch r.by_ r.msg p) ∧
          (p = 4 → u.holds r.msg p = false → t.wlk.inbox = u.wlk.inbox ++ [(4, r.msg)]) ∧
          (r.msg.tag = tag → ∃ x, t.request tag = some x ∧ x.resend = false ∧ x.since = s.time ∧ x.msg = r.msg ∧ x.port = p)) ∧
        (u.exitPort r.msg.dst = none →
          exec (.watchResend tag) s = .next (settle (u.undeliverable.failEffects r 0x0801).tagsFreed))) ∧
      (r.resend = false → exec (.watchResend tag) s = .next (settle s))) ∧
    (∀ l : List Msg, l = s.wlk.waits.map (fun w => (⟨1, 2, false, w.tag, s.gen.moduleId, w.src, w.cell, 0, 3, []⟩ : Msg)) ++
        s.wlk.held.map (fun e => Msg.answer s e.2 (Msg.answerOp e.2) 3 false e.2.addr 0 []) →
      exec .watchRenew s = .next (settle (l.foldl State.respond s)) ∧
      ((∀ m ∈ l, m.dst = s.gen.moduleId) →
        (l.foldl State.respond s).wlk.inbox = s.wlk.inbox ++ l.map fun m => (4, m))) ∧
    (∃ t, exec .watchRenew s = .next t ∧ t.wlk.waits = s.wlk.waits ∧ t.wlk.held = s.wlk.held ∧ t.wlk.requests = s.wlk.requests ∧
      t.sig = s.sig ∧ t.mem = s.mem ∧ t.cores = s.cores)

/-! ## Events, power and temperature (18 R525-R541; 19 R546-R562; 20 R570) -/

/-- MSIX_EMISSION commits the most urgent PENDING source that nothing masks by the write of its vector's entry; EVC_EOI re-arms a
source; a management core takes the most urgent delivery routed to it; a watch compares at the write that enables it; the antenna
wakes a module that sleeps, and says why.
Choices of the model: log 37, log 83. -/
def Obligations.EventDelivery : Prop :=
  ∀ (s : State),
    (∀ n, ∃ t, exec (.evcEoi n) s = .next t ∧ t = settle (s.eoi n) ∧ n ∉ t.evc.active ∧
      t.pendingSrc n = (s.level n && (s.src n).hostEn)) ∧
    ((∀ n, n < 512 → s.eligible n = false) → exec .msixEmission s = .next (settle s)) ∧
    (∀ n, n < 512 → s.eligible n = true → (∀ m, m < 512 → m ≠ n → s.eligible m = true → s.srcBefore n m = true) →
      ∃ t, exec .msixEmission s = .next t ∧ n ∈ t.evc.active ∧ t.hostOut = s.hostOut ++
        [.msix (s.src n).vector (s.msixEntry (s.src n).vector).addr (s.msixEntry (s.src n).vector).data]) ∧
    (∀ c k, 4 ≤ c ∨ s.imagoRuns = false → exec (.mgmtVectorFetch c k) s = .next (settle s)) ∧
    (∀ c k u, c < 4 → s.imagoRuns = true →
      u = { s.mgmtRuns c with evc := { s.evc with nest := modifyAt s.evc.nest c fun l => l.drop k.returns } } →
      bit u.flt.mgmtUp c = true ∧
      ((∀ n, n < 512 → u.mgmtTakes k.masked c n = false) → exec (.mgmtVectorFetch c k) s = .next (settle u)) ∧
      (∀ n, n < 512 → u.mgmtTakes k.masked c n = true →
        (∀ m, m < 512 → m ≠ n → u.mgmtTakes k.masked c m = true → u.srcBefore n m = true) →
        exec (.mgmtVectorFetch c k) s = .next (settle { u with evc := { u.evc with
          nest := modifyAt u.evc.nest c fun l => (n, u.group n) :: l
          mgmtDone := u.evc.mgmtDone ++ [(c, n)] } }))) ∧
    (∀ w v x, w < s.evc.watches.length → x = s.evc.watches.getD w {} → ∃ t y, exec (.watchCtrlWrite w v) s = .next t ∧
      t.evc.watches.getD w {} = y ∧ y.en = bit v 0 ∧ y.mode = bit v 1 ∧ y.cell = bits v 8 12 ∧ y.thresh = x.thresh ∧
      (x.en = false → bit v 0 = true → bit v 1 = true →
        y.hit = (x.hit && !bit v 2 || decide (x.thresh ≤ s.cell (bits v 8 12)))) ∧
      (bit v 1 = false → y.hit = (x.hit && !bit v 2)) ∧
      (∀ k, k ≠ w → t.evc.watches.getD k {} = s.evc.watches.getD k {})) ∧
    (s.asleep = false → ∀ pcie, exec (.antennaWake pcie) s = .next (settle s)) ∧
    (s.asleep = true →
      (s.evc.wakePcie = true → ∃ t, exec (.antennaWake true) s = .next t ∧ t = settle (s.antenna 2 0) ∧ t.evc.antCause = 2) ∧
      (s.evc.wakePcie = false → exec (.antennaWake true) s = .next (settle s)) ∧
      (∀ w, s.evc.antWatch.find? (fun w => w.en && s.level w.src) = some w → ∃ t, exec (.antennaWake false) s = .next t ∧
        t = settle (s.antenna 1 w.src) ∧ t.evc.antCause = 1 ∧ t.evc.antSrc = w.src) ∧
      (s.evc.antWatch.find? (fun w => w.en && s.level w.src) = none → exec (.antennaWake false) s = .next (settle s)) ∧
      (s.evc.wakeSideband = true → ∃ t, exec .sbWake s = .next t ∧ t = settle (s.antenna 3 0) ∧ t.evc.antCause = 3) ∧
      (s.pwr.entering = none → ∀ cause src, (s.antenna cause src).pwr.exiting = true)) ∧
    (s.asleep = false ∨ s.evc.wakeSideband = false → exec .sbWake s = .next (settle s))

/-- The idle timers enter PS1, PS2 and PS3 where nothing keeps the module out; an entry goes on step by step and is abandoned at a
safe point; POWER_WAKE ends an exit in PS0, and what PS2 held goes on. PWR_CTRL and a D-state change act as 19 R554 and R561 say.
Choices of the model: log 32, log 61, log 84. -/
def Obligations.PowerStates : Prop :=
  ∀ (s : State),
    (∀ u, s.settled 0 = true → s.gen.features.ps1Us ≠ 0 → s.allQuiet = true →
      u = { s with time := max s.time (s.pwr.quietSince.getD s.time + s.gen.features.ps1Us * 1000) } →
      (u.mustRun = false → exec .idleTimerPs1 s = .next (settle (u.enter 1))) ∧
      (u.mustRun = true →
        exec .idleTimerPs1 s = .next (settle { u with pwr := { s.pwr with quietSince := some u.time } }))) ∧
    (s.settled 0 = false ∨ s.gen.features.ps1Us = 0 ∨ s.allQuiet = false → exec .idleTimerPs1 s = .next (settle s)) ∧
    (∀ u, s.settled 1 = true → s.gen.features.ps1Us ≠ 0 → s.gen.features.ps2Ms ≠ 0 →
      u = { s with time := max s.time (s.pwr.idleSince + s.gen.features.ps2Ms * 1000000) } →
      (u.keepsPs2 = false → exec .idleTimerPs2 s = .next (settle (u.enter 2))) ∧
      (u.keepsPs2 = true →
        exec .idleTimerPs2 s = .next (settle { u with pwr := { s.pwr with idleSince := u.time } }))) ∧
    (∀ u, s.settled 2 = true → s.gen.features.ps1Us ≠ 0 → s.gen.features.ps2Ms ≠ 0 → s.gen.features.ps3S ≠ 0 →
      u = { s with time := max s.time (s.pwr.idleSince + s.gen.features.ps3S * 1000000000) } →
      (u.keepsPs3 = false → exec .idleTimerPs3 s = .next (settle (u.enter 3))) ∧
      (u.keepsPs3 = true →
        exec .idleTimerPs3 s = .next (settle { u with pwr := { s.pwr with idleSince := u.time } }))) ∧
    (s.pwr.entering = none → ∀ saved, exec (.entryStepDone saved) s = .next (settle s)) ∧
    (∀ e saved, s.pwr.entering = some e → 1 ≤ e.target → e.target ≤ 3 → e.target < 3 ∨ 1 ≤ e.done →
      (e.abandon = true → ∃ t, exec (.entryStepDone saved) s = .next t ∧ t.pwr.entering = none ∧ t.pwr.exiting = true ∧
        t.pwr.ps = s.pwr.ps ∧ t.pwr.abandons = sat64 (s.pwr.abandons + 1) ∧ bit t.pwr.evt 9 = true) ∧
      (e.abandon = false → e.done + 1 < entrySteps e.target → exec (.entryStepDone saved) s = .next (settle { s with
        pwr := { s.pwr with entering := some { e with done := e.done + 1 } } })) ∧
      (e.abandon = false → entrySteps e.target ≤ e.done + 1 → ∃ t, exec (.entryStepDone saved) s = .next t ∧
        t.pwr.ps = e.target ∧ t.pwr.entering = none ∧ bit t.pwr.evt 0 = true ∧ t.mem.bytes = s.mem.bytes ∧
        t.pwr.psEntries = bump s.pwr.psEntries e.target 1 ∧ (e.target < 3 → t.cores = s.cores ∧ t.mem = s.mem) ∧
        (e.target = 3 → t.cores = List.replicate 96 {}))) ∧
    (∀ saved, s.sized → s.pwr.entering = some ⟨3, 0, false⟩ → ∃ t, exec (.entryStepDone saved) s = .next t ∧
      t.pwr.entering = some ⟨3, 1, false⟩ ∧ t.pwr.ps = s.pwr.ps ∧
      (∀ p, p < 4 → (t.port p).state = (if (s.port p).state = .disabled then .disabled else .down))) ∧
    (∀ ns, s.pwr.exiting = false → exec (.powerWake ns) s = .next (settle s)) ∧
    (∀ ns, s.pwr.exiting = true → exec (.powerWake ns) s = .next (settle (s.arrivePs0 ns))) ∧
    (∀ ns, s.pwr.exiting = true → s.mem.bar2Held = [] → s.sig.held = [] → ∃ t, exec (.powerWake ns) s = .next t ∧ t.pwr.ps = 0 ∧ t.pwr.exiting = false ∧
      t.time = s.time + ns ∧ t.wlk.inbox = s.wlk.inbox ++ s.wlk.held ∧ t.wlk.held = [] ∧ t.evc.frozenLevels = none ∧
      (s.pwr.ps ≠ 0 → t.pwr.lastExit = ns % 2 ^ 32 + 2 ^ 32 * s.pwr.ps) ∧ t.cores = s.cores ∧ t.mem = s.mem) ∧
    (∀ v, ∃ t, exec (.pwrCtrlWrite v) s = .next t ∧ t.pwr.holdPs1 = bit v 0 ∧ t.pwr.holdPs2 = bit v 1 ∧
      t.pwr.holdPs3 = bit v 2 ∧ t.pwr.ps = s.pwr.ps ∧
      (s.pwr.entering = none → 0 < s.pwr.ps → bit v 8 = true ∨ bit v 0 = true → t.pwr.exiting = true)) ∧
    (∀ d l, ∃ t, exec (.dStateChange d l) s = .next t ∧ t.pci = { s.pci with d3hot := d, linkL2 := l } ∧ t.mem = s.mem ∧
      (s.pci.d3hot = true → d = false → s.pwr.entering = none → 3 ≤ s.pwr.ps → t.pwr.exiting = true) ∧
      (s.pci.linkL2 = true → l = false → t.phys.wakeN = false ∧
        (s.asleep = true → s.evc.wakePcie = true → t.evc.antCause = 2)))

/-- The power limit lowers the highest point each millisecond above the limit and raises the lowest after 100 below 90 %; a die's
junction temperature moves its thermal point, and at 10 °C above the ceiling ends its partition's job; the hub's hold ends every
job until the hub has cooled.
Choices of the model: log 85. -/
def Obligations.LimitsAndTemperatures : Prop :=
  ∀ (s : State),
    (∀ watts vin vcore rate, ∃ t, exec (.powerLimitTick watts vin vcore rate) s = .next t ∧ t.pwr.power = watts ∧
      t.pwr.vin = vin ∧ t.time = (s.time / 1000000 + 1) * 1000000 ∧ t.pwr.thPt = s.pwr.thPt ∧
      (∀ d, d < 4 → (s.dark d = true → t.pwr.rate.getD d 0 = 0) ∧
        min (s.pwr.vcore.getD d 0) (s.supply d) ≤ t.pwr.vcore.getD d 0 ∧
        t.pwr.vcore.getD d 0 ≤ max (s.pwr.vcore.getD d 0) (s.supply d)) ∧
      (s.pwr.limit < watts → t.pwr.below90 = 0 ∧
        (∀ v d, highest s.pwr.limPt = some (v, d) → v ≠ 0 →
          t.pwr.limPt = modifyAt s.pwr.limPt d (fun _ => v - 1) ∧ bit t.pwr.evt 1 = true) ∧
        (∀ d, highest s.pwr.limPt = some (0, d) → t.pwr.limPt = s.pwr.limPt) ∧
        ((∀ d, d < 4 → t.op d = 0) → bit t.pwr.evt 7 = true)) ∧
      (watts ≤ s.pwr.limit → 9 * s.pwr.limit ≤ 10 * watts → t.pwr.below90 = 0 ∧ t.pwr.limPt = s.pwr.limPt) ∧
      (10 * watts < 9 * s.pwr.limit → s.pwr.below90 + 1 < 100 →
        t.pwr.below90 = s.pwr.below90 + 1 ∧ t.pwr.limPt = s.pwr.limPt) ∧
      (10 * watts < 9 * s.pwr.limit → 100 ≤ s.pwr.below90 + 1 → ∀ v d, lowest s.pwr.limPt = some (v, d) →
        t.pwr.limPt = (if v < 3 then modifyAt s.pwr.limPt d (fun _ => v + 1) else s.pwr.limPt))) ∧
    (∀ d t, d < 4 → d < s.pwr.thPt.length → d < s.pwr.temp.length → d < s.pwr.gated.length →
      ∃ u, exec (.thermalTick d t) s = .next u ∧ u.pwr.temp.getD d 0 = t ∧
        (s.ceiling ≤ t → u.pwr.thPt.getD d 0 = 0 ∧ bit u.pwr.evt (2 + d) = true) ∧
        (s.ceiling - 5 ≤ t → t < s.ceiling → u.pwr.thPt.getD d 0 = s.pwr.thPt.getD d 0 - 1 ∧ bit u.pwr.evt (2 + d) = true ∧
          (0 < s.pwr.thPt.getD d 0 → s.pwr.thAt.getD d 0 + 10000000 ≤ u.time)) ∧
        (s.ceiling - 10 < t → t < s.ceiling - 5 → u.pwr.thPt = s.pwr.thPt ∧ u.pwr.evt = s.pwr.evt) ∧
        (t ≤ s.ceiling - 10 → u.pwr.thPt.getD d 0 = min 3 (s.pwr.thPt.getD d 0 + 1) ∧
          (s.pwr.thPt.getD d 0 < 3 → s.pwr.thAt.getD d 0 + 100000000 ≤ u.time) ∧
          (s.flt.hubHold = false → u.pwr.gated.getD d false = false)) ∧
        (∀ k, k ≠ d → u.pwr.thPt.getD k 0 = s.pwr.thPt.getD k 0) ∧ u.cores = s.cores ∧ u.jobs = s.jobs) ∧
    (∀ t, (100 ≤ t → ∃ u, exec (.thermalTick 4 t) s = .next u ∧ bit u.pwr.evt 6 = true) ∧
      (t < 100 → exec (.thermalTick 4 t) s = .next (settle (s.readTemp 4 t)))) ∧
    (∀ d t r, s.sized → d < 4 → s.ceiling + 10 ≤ t → s.pwr.tripped.getD d false = false → d < s.pwr.gated.length → d < s.pwr.tripped.length →
      s.run (s.partOfDie d) = some r → r.state ≠ .faulted →
      ∃ u r', exec (.thermalTrip d t) s = .next u ∧ u.pwr.gated.getD d false = true ∧ u.pwr.tripped.getD d false = true ∧
        u.run (s.partOfDie d) = some r' ∧ r'.state = .faulted ∧
        ∃ x ∈ u.flt.detections, x.scope = .job (s.partOfDie d) ∧ x.job = r.number ∧ x.info.status = 0x0F06) ∧
    (∀ d t, 4 ≤ d ∨ t < s.ceiling + 10 ∨ s.pwr.tripped.getD d false = true → exec (.thermalTrip d t) s = .next (settle s)) ∧
    (∀ t, (t < 110 ∨ s.flt.hubHold = true → exec (.hubThermalHold t) s = .next (settle s)) ∧
      (110 ≤ t → s.flt.hubHold = false → s.pwr.gated.length = 4 → ∃ u, exec (.hubThermalHold t) s = .next u ∧
        u.flt.hubHold = true ∧ u.flt.hubHoldSince = s.time ∧ u.pwr.gated = [true, true, true, true] ∧
        bit u.flt.evt 3 = true ∧ bit u.phys.sbAlert 3 = true ∧ bit u.pwr.evt 6 = true ∧
        (∀ p r, p < 4 → s.run p = some r → r.state ≠ .faulted → ∃ r', u.run p = some r' ∧ r'.state = .faulted)) ∧
      (95 < t ∨ s.flt.hubHold = false → exec (.hubHoldEnd t) s = .next (settle s)) ∧
      (t ≤ 95 → s.flt.hubHold = true → ∃ u, exec (.hubHoldEnd t) s = .next u ∧ u.flt.hubHold = false ∧
        (∀ d, d < 4 → d < s.pwr.gated.length → u.pwr.gated.getD d false = s.pwr.tripped.getD d false) ∧
        u.cores = s.cores ∧ u.mem = s.mem))

/-! ## Start-up, contacts, registers (00 R12-R14; 14 R402; 21 R590-R607; 22 R609-R623) -/

/-- A stage of start-up that completes is followed by the next one, with its effect; a stop code of the stage in progress ends
start-up and alerts the sideband, and so does a storage stage that finds no whole key record of the generation in force; a module without
power starts nothing.
Choices of the model: log 92. -/
def Obligations.StartupStages : Prop :=
  ∀ (s : State) (failed : List Nat) (speed width : Nat),
    (s.phys.on = false → ∀ stop, exec (.startupStage stop failed speed width) s = .next (settle s)) ∧
    (s.phys.on = true →
      (∀ x, (stopCodes s.gen.boot).contains x = true → ∃ t, exec (.startupStage (some x) failed speed width) s = .next t ∧
        t.gen.boot = x ∧ bit t.phys.sbAlert 5 = true ∧ t.gen.eclosed = s.gen.eclosed ∧ t.mem = s.mem) ∧
      (∀ x, (stopCodes s.gen.boot).contains x = false →
        exec (.startupStage (some x) failed speed width) s = .next (settle s)) ∧
      (∀ a b, (a, b) ∈ [(0x00, 0x01), (0x01, 0x10), (0x10, 0x11), (0x11, 0x20), (0x21, 0x30), (0x30, 0x40), (0x40, 0x50),
          (0x60, 0x70), (0x70, 0x80)] → s.gen.boot = a →
        ∃ t, exec (.startupStage none failed speed width) s = .next t ∧ t.gen.boot = b ∧
          t.gen.eclosed = s.gen.eclosed ∧ t.mem = s.mem ∧ t.jobs = s.jobs ∧
          (a = 0x01 → s.phys.perst = false → t.pci.up = true ∧ t.pci.speed = speed) ∧
          (a = 0x01 → s.phys.perst = true → t.pci = s.pci) ∧
          (a = 0x30 → t.fl.holdupOk = failed.isEmpty ∧ t.flt.holdupFail = !failed.isEmpty) ∧
          (a = 0x60 → t.gen.storageReady = true) ∧
          (a = 0x70 → (∀ n ∈ failed, n < 96 → bit t.flt.coreFlags n = true) ∧
            t.pwr.gated = [false, false, false, false] ∧ t.gen.layout = s.config.layout.getD 0)) ∧
      (s.gen.boot = 0x50 →
        (s.keyOk = true → ∃ t, exec (.startupStage none failed speed width) s = .next t ∧ t.gen.boot = 0x60) ∧
        (s.keyOk = false → ∃ t, exec (.startupStage none failed speed width) s = .next t ∧ t.gen.boot = 0x8007 ∧
          bit t.phys.sbAlert 5 = true ∧ t.fl = s.fl)) ∧
      (s.gen.boot = 0x20 →
        (∀ i u, tryImages failed s.slotOrder s = (some i, u) → ∃ t, exec (.startupStage none failed speed width) s = .next t ∧
          t.gen.boot = 0x21 ∧ t.gen.slot = i ∧ t.flt.mgmtUp = 0xF ∧ t.pwr.limit = 2400 ∧ t.ecc.scbRate = 1000 ∧
          t.gen.moduleId = u.savedFeature 5 ∧
          (∀ p, p < 4 → s.sized → (s.port p).disable = false → (t.port p).state = .down)) ∧
        (∀ u, tryImages failed s.slotOrder s = (none, u) → ∃ t, exec (.startupStage none failed speed width) s = .next t ∧
          t.gen.boot = 0x8002 ∧ bit t.phys.sbAlert 5 = true)) ∧
      (s.gen.boot = 0x80 →
        (s.gen.eclosed = false → ∃ t, exec (.startupStage none failed speed width) s = .next t ∧ t.gen.eclosed = true ∧
          t.gen.boot = 0x80 ∧ t.gen.minSvn = max s.gen.minSvn s.gen.svn ∧ t.pwr.idleSince = s.time) ∧
        (s.gen.eclosed = true → exec (.startupStage none failed speed width) s = .next (settle s))))

/-- SENSE, PWREN and the input start the module where all three allow it; PERST# released trains the link and wakes a sleeping
module; the straps are taken as 3V3AUX rises; a key command waits for a PROTECTION_SET; the test instructions stand in the chain, and
those that drive contacts act as BYPASS unless PERST# is asserted and the write buffer empty. At PL1 and PL2 a debug instruction
acts as BYPASS; at PL0 the spec gives it no effect, and the model refuses it.
Choices of the model: log 93, log 94, log 96. -/
def Obligations.ContactsAndTestConnector : Prop :=
  ∀ (s : State),
    (∀ i u, (i = .senseMake ∧ u = { s.phys with sense := true }) ∨ (i = .pwrenHigh ∧ u = { s.phys with pwren := true }) ∨
        (∃ mv, i = .inputRangeChange mv ∧ 40000 ≤ mv ∧ mv < 60000 ∧ u = { s.phys with inputIn := true }) →
      s.phys.on = false → u.sense = true → u.pwren = true → u.inputIn = true → u.shutdown = false →
      ∃ t, exec i s = .next t ∧ t.phys = { u with on := true } ∧ t.gen = s.gen ∧ t.mem = s.mem ∧ t.sf = s.sf) ∧
    (s.phys.on = false → s.phys.inputIn = false →
      ∃ t, exec .senseMake s = .next t ∧ t.phys = { s.phys with sense := true } ∧ t.life = s.life) ∧
    (∀ mv, 38000 ≤ mv → mv ≤ 63000 → s.phys.on = true → ∃ t, exec (.inputRangeChange mv) s = .next t ∧ t.pwr.vin = mv ∧
      (mv < 40000 ∨ 60000 < mv → bit t.pwr.evt 8 = true ∧ bit t.phys.sbAlert 4 = true) ∧
      (40000 ≤ mv → mv ≤ 60000 → t.pwr.evt = s.pwr.evt) ∧ t.phys.on = true) ∧
    (∀ speed width, s.phys.on = true → ∃ t, exec (.perstDeassert speed width) s = .next t ∧ t.phys.perst = false ∧
      (0x10 ≤ s.gen.boot → t.pci.up = true ∧ t.pci.speed = speed) ∧ (s.gen.boot < 0x10 → t.pci = s.pci) ∧
      t.phys.tap ≠ .extest ∧ t.phys.tap ≠ .clamp ∧ t.phys.tap ≠ .highz ∧
      (s.asleep = true → s.evc.wakePcie = true → t.evc.antCause = 2)) ∧
    (∀ on straps, ∃ t, exec (.auxPowerChange on straps) s = .next t ∧ t.phys.aux = on ∧
      t.phys.sbAddr = (if on = true ∧ s.phys.aux = false then straps % 4 else s.phys.sbAddr) ∧ t.mem = s.mem) ∧
    (∀ i k fine, (i = .sbKeyInstall fine ∧ k = 1) ∨ (i = .sbKeyRemove fine ∧ k = 2) →
      (s.phys.keyBusy ≠ none ∨ s.phys.on = false → exec i s = .next (settle s)) ∧
      (s.phys.keyBusy = none → s.phys.on = true →
        (s.protRuns = true ∨ s.lowering = true → ∃ t, exec i s = .next t ∧ t.phys.keyBusy = some (k, fine) ∧ t.sf = s.sf) ∧
        (s.protRuns = false → s.lowering = false → (∀ o ∈ s.sf.ops, ∀ a b, o ≠ .config a b .key) → s.keyCheck (k == 1) ≠ 0 →
          ∃ t, exec i s = .next t ∧ t.phys.keyBusy = none ∧ t.phys.keyResult = s.keyCheck (k == 1) ∧ t.sf = s.sf) ∧
        (s.protRuns = false → s.lowering = false → (∀ o ∈ s.sf.ops, ∀ a b, o ≠ .config a b .key) → s.keyCheck (k == 1) = 0 → fine = false →
          ∃ t, exec i s = .next t ∧ t.phys.keyBusy = none ∧ t.phys.keyResult = 5 ∧ t.sf = s.sf) ∧
        (s.protRuns = false → s.lowering = false → (∀ o ∈ s.sf.ops, ∀ a b, o ≠ .config a b .key) → s.keyCheck (k == 1) = 0 → fine = true →
          ∃ t u, exec i s = .next t ∧ t.phys.keyBusy = some (k, true) ∧ t.phys.keysOld = some s.config.keys ∧
            u = State.writeConfig { s with phys := { s.phys with keyBusy := some (k, true) } }
              (fun c => { c with keys := changeKeys (k == 1) s.phys.keyId s.phys.keyData c.keys }) .key ∧
            t = settle { u with phys := { u.phys with keysOld := some s.config.keys } }))) ∧
    (s.phys.on = true →
      (∃ t, exec .bypass s = .next t ∧ t.phys = { s.phys with tap := .bypass, tapOut := [0, 0, 0, 0, 0] }) ∧
      (∃ t, exec .idcode s = .next t ∧ t.phys = { s.phys with tap := .idcode, tapOut := List.replicate 5 idcode }) ∧
      (∀ a b, ∃ t, exec (.samplePreload a b) s = .next t ∧
        t.phys = { s.phys with tap := .samplePreload, tapOut := a, boundary := b }) ∧
      (s.tapFree = true →
        (∀ a b, ∃ t, exec (.extest a b) s = .next t ∧ t.phys = { s.phys with tap := .extest, tapOut := a, boundary := b }) ∧
        (∃ t, exec .clamp s = .next t ∧ t.phys.tap = .clamp) ∧ (∃ t, exec .highz s = .next t ∧ t.phys.tap = .highz)) ∧
      (s.tapFree = false → ∀ i, i = .clamp ∨ i = .highz ∨ (∃ a b, i = .extest a b) → exec i s = .next (settle s.bypass))) ∧
    (s.gen.pl ≠ 0 → exec .debugInstruction s = .next (settle s.bypass)) ∧
    (s.gen.pl = 0 → exec .debugInstruction s = .refused .debugUnspecified)

/-- REGISTER_WRITE: an aligned write of 8 bytes writes its register, one of 4 bytes a half: the lower half of a register with fields
in both is held until its upper half is written. A write beyond the space or not aligned is discarded. An event flag is cleared by
writing 1, a limit out of range is ignored, the Message Control word enables MSI-X, and Device Control Relaxed Ordering. A write of the
sideband counts where its address and PEC are right; a poisoned write is logged and has no effect; a read of WLK_RT_DATA moves the index.
Choices of the model: log 95, log 116. -/
def Obligations.RegisterWrites : Prop :=
  ∀ (s : State),
    (∀ o size v, 0x40000 ≤ o ∨ o % size ≠ 0 ∨ (size ≠ 4 ∧ size ≠ 8) →
      exec (.registerWrite .bar0 o size v) s = .next (settle (if quietWrite o then s else s.activity))) ∧
    (∀ o v, o < 0x40000 → o % 8 = 0 → dwordArea o = false →
      exec (.registerWrite .bar0 o 8 v) s = .next (settle ((if quietWrite o then s else s.activity).writeReg o (v % 2 ^ 64)))) ∧
    (∀ o v, o < 0x40000 → o % 8 = 0 → dwordArea o = false → upperWritable o = false →
      exec (.registerWrite .bar0 o 4 v) s =
        .next (settle ((if quietWrite o then s else s.activity).writeReg o (v % 2 ^ 32))) ∧
      exec (.registerWrite .bar0 (o + 4) 4 v) s = .next (settle (if quietWrite (o + 4) then s else s.activity))) ∧
    (∀ o v, o < 0x40000 → o % 8 = 0 → dwordArea o = false → upperWritable o = true →
      (∃ t, exec (.registerWrite .bar0 o 4 v) s = .next t ∧ Sparse.find t.gen.held o = some (v % 2 ^ 32) ∧
        t.gen.aqSqBase = s.gen.aqSqBase ∧ t.wlk = s.wlk ∧ t.sig = s.sig ∧ t.mig = s.mig ∧ t.evc.ring = s.evc.ring) ∧
      (∀ k, Sparse.find s.gen.held o = some k → exec (.registerWrite .bar0 (o + 4) 4 v) s = .next (settle
        (State.writeReg { (if quietWrite (o + 4) then s else s.activity) with gen := { s.gen with
          held := Sparse.drop s.gen.held o } } o (k + 2 ^ 32 * (v % 2 ^ 32))))) ∧
      (Sparse.find s.gen.held o = none → exec (.registerWrite .bar0 (o + 4) 4 v) s = .next (settle
        ((if quietWrite (o + 4) then s else s.activity).writeUpper o (v % 2 ^ 32))))) ∧
    (∀ o v, (0x10000 ≤ o ∧ o < 0x18000 → s.writeUpper o v = s.hostCell ((o - 0x10000) / 8) (2 ^ 32 * v) true) ∧
      (o < 0x10000 → s.writeUpper o v = s.writeReg o (s.lowerHalf o + 2 ^ 32 * v))) ∧
    (∀ v, (s.writeReg 0x1020 v).pwr.evt = clearBits s.pwr.evt v ∧ (s.writeReg 0x4018 v).flt.evt = clearBits s.flt.evt v ∧
      (s.writeReg 0x3010 v).ecc.evt = clearBits s.ecc.evt v ∧ (s.writeReg 0x5018 v).wlk.evt = clearBits s.wlk.evt v ∧
      (s.writeReg 0x6040 v).mig.evt = clearBits s.mig.evt v) ∧
    (∀ v, (300 ≤ v % 2 ^ 12 → v % 2 ^ 12 ≤ 2400 → (s.writeReg 0x1018 v).pwr.limit = v % 2 ^ 12) ∧
      (v % 2 ^ 12 < 300 ∨ 2400 < v % 2 ^ 12 → s.writeReg 0x1018 v = s)) ∧
    (∀ o v, (0x7000 ≤ o ∧ o < 0x8000) → s.writeReg o v = s) ∧
    (∀ n v, n < 512 → (s.evc.src.Pairwise fun a b => a.1 < b.1) → ∃ t, exec (.registerWrite .bar0 (0x2800 + 4 * n) 4 v) s = .next t ∧
      t.src n = { priority := bits v 0 8, hostEn := bit v 8, mask := bit v 9, autoRearm := bit v 10, vector := bits v 16 9 } ∧
      (∀ k, k ≠ n → t.src k = s.src k)) ∧
    (∀ addr pec o size v, s.phys.on = false ∨ addr ≠ 0x58 + s.phys.sbAddr ∨ pec ≠ smbusPec (blockWrite addr o size v) →
      exec (.registerWrite (.sideband addr pec) o size v) s = .next (settle s)) ∧
    (∀ pec o size v, s.phys.on = true → pec = smbusPec (blockWrite (0x58 + s.phys.sbAddr) o size v) →
      ∃ t, exec (.registerWrite (.sideband (0x58 + s.phys.sbAddr) pec) o size v) s = .next t ∧
        (o = 0x05 → t.phys = { s.phys with sbAlert := clearBits s.phys.sbAlert v }) ∧
        (o = 0x06 → t.phys = { s.phys with sbAlertEn := v % 64 }) ∧
        (o = 0x11 → t.phys = { s.phys with keyId := v % 2 ^ 32 }) ∧
        (o = 0x12 → t.phys = { s.phys with keyData := leBytes 96 v }) ∧
        (o ∉ [0x04, 0x05, 0x06, 0x11, 0x12] → t.phys = s.phys) ∧ t.mem = s.mem) ∧
    (∀ o size v, ∃ t, exec (.registerWrite .bar0Read o size v) s = .next t ∧ t.mem = s.mem ∧ t.sig = s.sig ∧
      (o = 0x5030 → size = 4 ∨ size = 8 → t.wlk.rtIndex =
        if s.wlk.rtAuto then (s.wlk.rtIndex + 1) % 65536 else s.wlk.rtIndex)) ∧
    (∀ o size v, ∃ t, exec (.registerWrite .poisoned o size v) s = .next t ∧ t.pci.aer = s.pci.aer ++ [.posted] ∧ t.mem = s.mem ∧
      t.gen = s.gen) ∧
    (∀ o size v, ∃ t, exec (.registerWrite .config o size v) s = .next t ∧ t.msix.enable = bit v 15 ∧ t.msix.fmask = bit v 14 ∧
      t.msix.table = s.msix.table) ∧
    (∀ o size v, ∃ t, exec (.registerWrite .devControl o size v) s = .next t ∧ t.pci = { s.pci with enableRo := bit v 4 }) ∧
    (∀ o size v, exec (.registerWrite .header o size v) s = .next (settle (s.writeBar o v)))

/-! ## Reset, and what every step keeps -/

/-- At reset no command waits, the memories list nothing, and each register that the statement names holds the spec's reset value: those of
queue 0, MSI-X and the features; of the event controller, its partition flags, its watches and the antenna; of power, D-state, link and
sideband; of memory integrity and migration; of faults and lifetime's event flags; of the Wyrdlink ports, routes, apertures and exports; and
of the signal cells, jobs and sequences. The state is formed, and the deliveries agree with the sources. -/
def Obligations.ResetState : Prop :=
  State.reset.pending = [] ∧ State.reset.time = 0 ∧ State.reset.gen.boot = 0 ∧ State.reset.gen.eclosed = false ∧
    State.reset.gen.aqAttr = 0 ∧ State.reset.gen.aqSqBase = 0 ∧ State.reset.gen.aqCqBase = 0 ∧ State.reset.gen.features = {
      ps1Us := 100, ps2Ms := 100, ps3S := 0, opCeiling := 3, thermalCeiling := 95, linkWidthLock := 0, moduleId := 0, fenced := 0 } ∧
    State.reset.q = {} ∧ State.reset.msix = { enable := false, fmask := false, pba := [], table := [] } ∧
    (∀ v, Sparse.get ({} : MsixEntry) State.reset.msix.table v = { addr := 0, data := 0, mask := true }) ∧
    State.reset.evc.ring = [] ∧ State.reset.evc.active = [] ∧ State.reset.evc.gdis = false ∧ State.reset.evc.prigrp = 4 ∧
    State.reset.evc.flashUncorr = 0 ∧ State.reset.evc.flashLost = 0 ∧ State.reset.evc.flashEn = 0 ∧
    State.reset.evc.part = List.replicate 4 { jobEnd := false, jobFault := false, seqDrop := false, job := 0, en := 0 } ∧
    State.reset.evc.watches = List.replicate 32 { en := false, mode := false, hit := false, cell := 0, thresh := 0 } ∧
    State.reset.evc.wakePcie = true ∧ State.reset.evc.wakeSideband = true ∧ State.reset.evc.wakeHost = false ∧
    State.reset.evc.antCause = 0 ∧ State.reset.evc.antSrc = 0 ∧
    State.reset.evc.antWatch = List.replicate 32 { src := 0, en := false } ∧
    (∀ n, State.reset.src n =
      { priority := 0x80, hostEn := false, mask := false, autoRearm := true, vector := n }) ∧
    State.reset.pwr.ps = 0 ∧ State.reset.pwr.entering = none ∧ State.reset.pwr.exiting = false ∧ State.reset.pwr.holdPs1 = false ∧
    State.reset.pwr.holdPs2 = false ∧ State.reset.pwr.holdPs3 = false ∧ State.reset.pwr.evt = 0 ∧ State.reset.pwr.evtEn = 0 ∧
    State.reset.pwr.limPt = [3, 3, 3, 3] ∧ State.reset.pwr.thPt = [3, 3, 3, 3] ∧
    State.reset.pwr.gated = [false, false, false, false] ∧ State.reset.pwr.vin = 0 ∧ State.reset.pwr.power = 0 ∧
    State.reset.pwr.vcore = [0, 0, 0, 0] ∧ State.reset.pwr.temp = [0, 0, 0, 0, 0] ∧ State.reset.pwr.rate = [0, 0, 0, 0] ∧
    State.reset.pwr.abandons = 0 ∧ State.reset.pwr.lastExit = 0 ∧
    State.reset.pwr.psTime = [0, 0, 0, 0] ∧ State.reset.pwr.psEntries = [0, 0, 0, 0] ∧
    State.reset.pci.d3hot = false ∧ State.reset.pci.linkL2 = false ∧
    State.reset.phys.sbAlert = 0 ∧ State.reset.phys.sbAlertEn = 0 ∧ State.reset.phys.keyId = 0 ∧ State.reset.phys.keyData = [] ∧
    State.reset.phys.keyBusy = none ∧ State.reset.phys.keyResult = 0 ∧
    State.reset.ecc.ceWb = true ∧ State.reset.ecc.evt = 0 ∧ State.reset.ecc.evtEn = 0 ∧ State.reset.ecc.ce = [0, 0, 0, 0, 0, 0] ∧
    State.reset.ecc.ue = [0, 0, 0, 0, 0, 0] ∧ State.reset.ecc.narrow = 0 ∧ State.reset.ecc.narrowLost = 0 ∧ State.reset.ecc.lastUe = 0 ∧
    State.reset.ecc.testCtrl = 0 ∧ State.reset.ecc.testTarget = 0 ∧ State.reset.ecc.testResult = 0 ∧ State.reset.ecc.scbAt = none ∧
    State.reset.ecc.scbPasses = 0 ∧ State.reset.ecc.scbCe = 0 ∧ State.reset.ecc.scbUe = 0 ∧
    State.reset.mig.bar2Base = 0 ∧ State.reset.mig.evt = 0 ∧ State.reset.mig.evtEn = 0 ∧ State.reset.mig.bar2Drop = 0 ∧
    State.reset.mig.copied = 0 ∧ State.reset.mig.arbWeight = 0 ∧ State.reset.mig.lead = [16, 16, 16, 16] ∧
    State.reset.mig.miss = [0, 0, 0, 0] ∧ State.reset.mig.shadow = [0, 0, 0, 0] ∧ State.reset.mig.kvFree = [0, 0, 0, 0] ∧
    State.reset.mig.evFree = [0, 0, 0, 0] ∧ State.reset.mig.lastJob = [0, 0, 0, 0] ∧
    State.reset.flt.autoReset = true ∧ State.reset.flt.flagFirst = false ∧ State.reset.flt.resetReq = false ∧
    State.reset.flt.hubHold = false ∧ State.reset.flt.holdupFail = false ∧ State.reset.flt.nextRecord = 1 ∧ State.reset.flt.evt = 0 ∧
    State.reset.flt.evtEn = 0 ∧ State.reset.flt.coreFlags = 0 ∧ State.reset.flt.confineMax = 0 ∧
    State.reset.flt.faults = [0, 0, 0, 0] ∧
    State.reset.wlk.fwdEn = true ∧ State.reset.wlk.timeoutUs = 1000 ∧ State.reset.wlk.evt = 0 ∧ State.reset.wlk.evtEn = 0 ∧
    State.reset.wlk.rtIndex = 0 ∧ State.reset.wlk.rtAuto = false ∧ State.reset.wlk.undeliv = 0 ∧ State.reset.wlk.refused = 0 ∧
    State.reset.wlk.lastNotice = 0 ∧ State.reset.wlk.fwdFlits = 0 ∧ (∀ m, (Sparse.get ({} : Route) State.reset.wlk.routes m).valid = false) ∧
    State.reset.wlk.apertures = List.replicate 32 { localBase := 0, remoteBase := 0, module := 0, en := false, cls := 0, pages := 0 } ∧
    State.reset.wlk.exports =
      List.replicate 32 { base := 0, src := 0, en := false, read := false, write := false, any := false, pages := 0 } ∧
    (∀ p, p < 4 → (State.reset.port p).auto = true ∧ (State.reset.port p).disable = false ∧ (State.reset.port p).maxWidth = 4 ∧
      (State.reset.port p).retry = 0 ∧ (State.reset.port p).retrains = 0 ∧ (State.reset.port p).crc = 0) ∧
    State.reset.sig.cells = [] ∧ State.reset.jobs.queue = [] ∧ (∀ p, State.reset.run p = none) ∧ State.reset.seqs.policy =
      List.replicate 4 { maxSeqs := 1024, prefillBudget := 65536, hostStepped := false } ∧
    State.reset.mem.bytes = [] ∧ State.reset.fl.data = [] ∧ State.reset.formed ∧ State.reset.delivered

/-- Every step, of every command in every state and of an empty queue, keeps the sizes of the groups of cores, partitions and ports, and
the canonical form of the byte memories, the scratchpads, the zones' data, the system flash's host area and the signal cells. -/
def Obligations.StepKeepsForm : Prop :=
  ∀ (s t : State), s.formed → step s = .next t → t.formed

/-- Every step, of every command in every state and of an empty queue, keeps the deliveries in agreement with the sources. -/
def Obligations.StepKeepsDeliveries : Prop :=
  ∀ (s t : State), s.delivered → step s = .next t → t.delivered
end

