-- ==== Sys2Proof/Laws/State.lean ====
section
/-!
SUPPORT. Laws/State.lean: what each plain update of the state leaves as it was, field by field, true by definition.
-/
namespace Sys2Proof.Machine

/-! `settle` -/
@[simp] theorem settle_pending (s : State) : (settle s).pending = s.pending := rfl
@[simp] theorem settle_time (s : State) : (settle s).time = s.time := rfl
@[simp] theorem settle_freeCtr (s : State) : (settle s).freeCtr = s.freeCtr := rfl
@[simp] theorem settle_hostOut (s : State) : (settle s).hostOut = s.hostOut := rfl
@[simp] theorem settle_wlOut (s : State) : (settle s).wlOut = s.wlOut := rfl
@[simp] theorem settle_gen (s : State) : (settle s).gen = s.gen := rfl
@[simp] theorem settle_q (s : State) : (settle s).q = s.q := rfl
@[simp] theorem settle_msix_enable (s : State) : (settle s).msix.enable = s.msix.enable := rfl
@[simp] theorem settle_msix_fmask (s : State) : (settle s).msix.fmask = s.msix.fmask := rfl
@[simp] theorem settle_msix_table (s : State) : (settle s).msix.table = s.msix.table := rfl
@[simp] theorem settle_pci (s : State) : (settle s).pci = s.pci := rfl
@[simp] theorem settle_sig (s : State) : (settle s).sig = s.sig := rfl
@[simp] theorem settle_flt (s : State) : (settle s).flt = s.flt := rfl
@[simp] theorem settle_life (s : State) : (settle s).life = s.life := rfl
@[simp] theorem settle_lifeLog (s : State) : (settle s).lifeLog = s.lifeLog := rfl
@[simp] theorem settle_mem (s : State) : (settle s).mem = s.mem := rfl
@[simp] theorem settle_mig (s : State) : (settle s).mig = s.mig := rfl
@[simp] theorem settle_ecc (s : State) : (settle s).ecc = s.ecc := rfl
@[simp] theorem settle_cores (s : State) : (settle s).cores = s.cores := rfl
@[simp] theorem settle_jobs (s : State) : (settle s).jobs = s.jobs := rfl
@[simp] theorem settle_seqs (s : State) : (settle s).seqs = s.seqs := rfl
@[simp] theorem settle_fl (s : State) : (settle s).fl = s.fl := rfl
@[simp] theorem settle_sf (s : State) : (settle s).sf = s.sf := rfl
@[simp] theorem settle_wlk (s : State) : (settle s).wlk = s.wlk := rfl
@[simp] theorem settle_idx (s : State) : (settle s).idx = s.idx := rfl
@[simp] theorem settle_pwr (s : State) : (settle s).pwr = s.pwr := rfl
@[simp] theorem settle_phys (s : State) : (settle s).phys = s.phys := rfl

/-! `setRun` -/
@[simp] theorem State.setRun_pending (s : State) (p : Nat) (f : Run → Run) : (s.setRun p f).pending = s.pending := rfl
@[simp] theorem State.setRun_time (s : State) (p : Nat) (f : Run → Run) : (s.setRun p f).time = s.time := rfl
@[simp] theorem State.setRun_freeCtr (s : State) (p : Nat) (f : Run → Run) : (s.setRun p f).freeCtr = s.freeCtr := rfl
@[simp] theorem State.setRun_hostOut (s : State) (p : Nat) (f : Run → Run) : (s.setRun p f).hostOut = s.hostOut := rfl
@[simp] theorem State.setRun_wlOut (s : State) (p : Nat) (f : Run → Run) : (s.setRun p f).wlOut = s.wlOut := rfl
@[simp] theorem State.setRun_gen (s : State) (p : Nat) (f : Run → Run) : (s.setRun p f).gen = s.gen := rfl
@[simp] theorem State.setRun_q (s : State) (p : Nat) (f : Run → Run) : (s.setRun p f).q = s.q := rfl
@[simp] theorem State.setRun_msix (s : State) (p : Nat) (f : Run → Run) : (s.setRun p f).msix = s.msix := rfl
@[simp] theorem State.setRun_pci (s : State) (p : Nat) (f : Run → Run) : (s.setRun p f).pci = s.pci := rfl
@[simp] theorem State.setRun_evc (s : State) (p : Nat) (f : Run → Run) : (s.setRun p f).evc = s.evc := rfl
@[simp] theorem State.setRun_sig (s : State) (p : Nat) (f : Run → Run) : (s.setRun p f).sig = s.sig := rfl
@[simp] theorem State.setRun_flt (s : State) (p : Nat) (f : Run → Run) : (s.setRun p f).flt = s.flt := rfl
@[simp] theorem State.setRun_life (s : State) (p : Nat) (f : Run → Run) : (s.setRun p f).life = s.life := rfl
@[simp] theorem State.setRun_lifeLog (s : State) (p : Nat) (f : Run → Run) : (s.setRun p f).lifeLog = s.lifeLog := rfl
@[simp] theorem State.setRun_mem (s : State) (p : Nat) (f : Run → Run) : (s.setRun p f).mem = s.mem := rfl
@[simp] theorem State.setRun_mig (s : State) (p : Nat) (f : Run → Run) : (s.setRun p f).mig = s.mig := rfl
@[simp] theorem State.setRun_ecc (s : State) (p : Nat) (f : Run → Run) : (s.setRun p f).ecc = s.ecc := rfl
@[simp] theorem State.setRun_cores (s : State) (p : Nat) (f : Run → Run) : (s.setRun p f).cores = s.cores := rfl
@[simp] theorem State.setRun_seqs (s : State) (p : Nat) (f : Run → Run) : (s.setRun p f).seqs = s.seqs := rfl
@[simp] theorem State.setRun_fl (s : State) (p : Nat) (f : Run → Run) : (s.setRun p f).fl = s.fl := rfl
@[simp] theorem State.setRun_sf (s : State) (p : Nat) (f : Run → Run) : (s.setRun p f).sf = s.sf := rfl
@[simp] theorem State.setRun_wlk (s : State) (p : Nat) (f : Run → Run) : (s.setRun p f).wlk = s.wlk := rfl
@[simp] theorem State.setRun_idx (s : State) (p : Nat) (f : Run → Run) : (s.setRun p f).idx = s.idx := rfl
@[simp] theorem State.setRun_pwr (s : State) (p : Nat) (f : Run → Run) : (s.setRun p f).pwr = s.pwr := rfl
@[simp] theorem State.setRun_phys (s : State) (p : Nat) (f : Run → Run) : (s.setRun p f).phys = s.phys := rfl

/-! `setPart` -/
@[simp] theorem State.setPart_pending (s : State) (p : Nat) (f : Part → Part) : (s.setPart p f).pending = s.pending := rfl
@[simp] theorem State.setPart_time (s : State) (p : Nat) (f : Part → Part) : (s.setPart p f).time = s.time := rfl
@[simp] theorem State.setPart_freeCtr (s : State) (p : Nat) (f : Part → Part) : (s.setPart p f).freeCtr = s.freeCtr := rfl
@[simp] theorem State.setPart_hostOut (s : State) (p : Nat) (f : Part → Part) : (s.setPart p f).hostOut = s.hostOut := rfl
@[simp] theorem State.setPart_wlOut (s : State) (p : Nat) (f : Part → Part) : (s.setPart p f).wlOut = s.wlOut := rfl
@[simp] theorem State.setPart_gen (s : State) (p : Nat) (f : Part → Part) : (s.setPart p f).gen = s.gen := rfl
@[simp] theorem State.setPart_q (s : State) (p : Nat) (f : Part → Part) : (s.setPart p f).q = s.q := rfl
@[simp] theorem State.setPart_msix (s : State) (p : Nat) (f : Part → Part) : (s.setPart p f).msix = s.msix := rfl
@[simp] theorem State.setPart_pci (s : State) (p : Nat) (f : Part → Part) : (s.setPart p f).pci = s.pci := rfl
@[simp] theorem State.setPart_evc (s : State) (p : Nat) (f : Part → Part) : (s.setPart p f).evc = s.evc := rfl
@[simp] theorem State.setPart_sig (s : State) (p : Nat) (f : Part → Part) : (s.setPart p f).sig = s.sig := rfl
@[simp] theorem State.setPart_flt (s : State) (p : Nat) (f : Part → Part) : (s.setPart p f).flt = s.flt := rfl
@[simp] theorem State.setPart_life (s : State) (p : Nat) (f : Part → Part) : (s.setPart p f).life = s.life := rfl
@[simp] theorem State.setPart_lifeLog (s : State) (p : Nat) (f : Part → Part) : (s.setPart p f).lifeLog = s.lifeLog := rfl
@[simp] theorem State.setPart_mem (s : State) (p : Nat) (f : Part → Part) : (s.setPart p f).mem = s.mem := rfl
@[simp] theorem State.setPart_mig (s : State) (p : Nat) (f : Part → Part) : (s.setPart p f).mig = s.mig := rfl
@[simp] theorem State.setPart_ecc (s : State) (p : Nat) (f : Part → Part) : (s.setPart p f).ecc = s.ecc := rfl
@[simp] theorem State.setPart_cores (s : State) (p : Nat) (f : Part → Part) : (s.setPart p f).cores = s.cores := rfl
@[simp] theorem State.setPart_seqs (s : State) (p : Nat) (f : Part → Part) : (s.setPart p f).seqs = s.seqs := rfl
@[simp] theorem State.setPart_fl (s : State) (p : Nat) (f : Part → Part) : (s.setPart p f).fl = s.fl := rfl
@[simp] theorem State.setPart_sf (s : State) (p : Nat) (f : Part → Part) : (s.setPart p f).sf = s.sf := rfl
@[simp] theorem State.setPart_wlk (s : State) (p : Nat) (f : Part → Part) : (s.setPart p f).wlk = s.wlk := rfl
@[simp] theorem State.setPart_idx (s : State) (p : Nat) (f : Part → Part) : (s.setPart p f).idx = s.idx := rfl
@[simp] theorem State.setPart_pwr (s : State) (p : Nat) (f : Part → Part) : (s.setPart p f).pwr = s.pwr := rfl
@[simp] theorem State.setPart_phys (s : State) (p : Nat) (f : Part → Part) : (s.setPart p f).phys = s.phys := rfl

/-! `callPass` -/
@[simp] theorem State.callPass_pending (s : State) (p : Nat) : (s.callPass p).pending = s.pending := rfl
@[simp] theorem State.callPass_time (s : State) (p : Nat) : (s.callPass p).time = s.time := rfl
@[simp] theorem State.callPass_freeCtr (s : State) (p : Nat) : (s.callPass p).freeCtr = s.freeCtr := rfl
@[simp] theorem State.callPass_hostOut (s : State) (p : Nat) : (s.callPass p).hostOut = s.hostOut := rfl
@[simp] theorem State.callPass_wlOut (s : State) (p : Nat) : (s.callPass p).wlOut = s.wlOut := rfl
@[simp] theorem State.callPass_gen (s : State) (p : Nat) : (s.callPass p).gen = s.gen := rfl
@[simp] theorem State.callPass_q (s : State) (p : Nat) : (s.callPass p).q = s.q := rfl
@[simp] theorem State.callPass_msix (s : State) (p : Nat) : (s.callPass p).msix = s.msix := rfl
@[simp] theorem State.callPass_pci (s : State) (p : Nat) : (s.callPass p).pci = s.pci := rfl
@[simp] theorem State.callPass_evc (s : State) (p : Nat) : (s.callPass p).evc = s.evc := rfl
@[simp] theorem State.callPass_sig (s : State) (p : Nat) : (s.callPass p).sig = s.sig := rfl
@[simp] theorem State.callPass_flt (s : State) (p : Nat) : (s.callPass p).flt = s.flt := rfl
@[simp] theorem State.callPass_life (s : State) (p : Nat) : (s.callPass p).life = s.life := rfl
@[simp] theorem State.callPass_lifeLog (s : State) (p : Nat) : (s.callPass p).lifeLog = s.lifeLog := rfl
@[simp] theorem State.callPass_mem (s : State) (p : Nat) : (s.callPass p).mem = s.mem := rfl
@[simp] theorem State.callPass_mig (s : State) (p : Nat) : (s.callPass p).mig = s.mig := rfl
@[simp] theorem State.callPass_ecc (s : State) (p : Nat) : (s.callPass p).ecc = s.ecc := rfl
@[simp] theorem State.callPass_cores (s : State) (p : Nat) : (s.callPass p).cores = s.cores := rfl
@[simp] theorem State.callPass_seqs (s : State) (p : Nat) : (s.callPass p).seqs = s.seqs := rfl
@[simp] theorem State.callPass_fl (s : State) (p : Nat) : (s.callPass p).fl = s.fl := rfl
@[simp] theorem State.callPass_sf (s : State) (p : Nat) : (s.callPass p).sf = s.sf := rfl
@[simp] theorem State.callPass_wlk (s : State) (p : Nat) : (s.callPass p).wlk = s.wlk := rfl
@[simp] theorem State.callPass_idx (s : State) (p : Nat) : (s.callPass p).idx = s.idx := rfl
@[simp] theorem State.callPass_pwr (s : State) (p : Nat) : (s.callPass p).pwr = s.pwr := rfl
@[simp] theorem State.callPass_phys (s : State) (p : Nat) : (s.callPass p).phys = s.phys := rfl

/-! `setCore` -/
@[simp] theorem State.setCore_pending (s : State) (n : Nat) (f : Core → Core) : (s.setCore n f).pending = s.pending := rfl
@[simp] theorem State.setCore_time (s : State) (n : Nat) (f : Core → Core) : (s.setCore n f).time = s.time := rfl
@[simp] theorem State.setCore_freeCtr (s : State) (n : Nat) (f : Core → Core) : (s.setCore n f).freeCtr = s.freeCtr := rfl
@[simp] theorem State.setCore_hostOut (s : State) (n : Nat) (f : Core → Core) : (s.setCore n f).hostOut = s.hostOut := rfl
@[simp] theorem State.setCore_wlOut (s : State) (n : Nat) (f : Core → Core) : (s.setCore n f).wlOut = s.wlOut := rfl
@[simp] theorem State.setCore_gen (s : State) (n : Nat) (f : Core → Core) : (s.setCore n f).gen = s.gen := rfl
@[simp] theorem State.setCore_q (s : State) (n : Nat) (f : Core → Core) : (s.setCore n f).q = s.q := rfl
@[simp] theorem State.setCore_msix (s : State) (n : Nat) (f : Core → Core) : (s.setCore n f).msix = s.msix := rfl
@[simp] theorem State.setCore_pci (s : State) (n : Nat) (f : Core → Core) : (s.setCore n f).pci = s.pci := rfl
@[simp] theorem State.setCore_evc (s : State) (n : Nat) (f : Core → Core) : (s.setCore n f).evc = s.evc := rfl
@[simp] theorem State.setCore_sig (s : State) (n : Nat) (f : Core → Core) : (s.setCore n f).sig = s.sig := rfl
@[simp] theorem State.setCore_flt (s : State) (n : Nat) (f : Core → Core) : (s.setCore n f).flt = s.flt := rfl
@[simp] theorem State.setCore_life (s : State) (n : Nat) (f : Core → Core) : (s.setCore n f).life = s.life := rfl
@[simp] theorem State.setCore_lifeLog (s : State) (n : Nat) (f : Core → Core) : (s.setCore n f).lifeLog = s.lifeLog := rfl
@[simp] theorem State.setCore_mem (s : State) (n : Nat) (f : Core → Core) : (s.setCore n f).mem = s.mem := rfl
@[simp] theorem State.setCore_mig (s : State) (n : Nat) (f : Core → Core) : (s.setCore n f).mig = s.mig := rfl
@[simp] theorem State.setCore_ecc (s : State) (n : Nat) (f : Core → Core) : (s.setCore n f).ecc = s.ecc := rfl
@[simp] theorem State.setCore_jobs (s : State) (n : Nat) (f : Core → Core) : (s.setCore n f).jobs = s.jobs := rfl
@[simp] theorem State.setCore_seqs (s : State) (n : Nat) (f : Core → Core) : (s.setCore n f).seqs = s.seqs := rfl
@[simp] theorem State.setCore_fl (s : State) (n : Nat) (f : Core → Core) : (s.setCore n f).fl = s.fl := rfl
@[simp] theorem State.setCore_sf (s : State) (n : Nat) (f : Core → Core) : (s.setCore n f).sf = s.sf := rfl
@[simp] theorem State.setCore_wlk (s : State) (n : Nat) (f : Core → Core) : (s.setCore n f).wlk = s.wlk := rfl
@[simp] theorem State.setCore_idx (s : State) (n : Nat) (f : Core → Core) : (s.setCore n f).idx = s.idx := rfl
@[simp] theorem State.setCore_pwr (s : State) (n : Nat) (f : Core → Core) : (s.setCore n f).pwr = s.pwr := rfl
@[simp] theorem State.setCore_phys (s : State) (n : Nat) (f : Core → Core) : (s.setCore n f).phys = s.phys := rfl

/-! `lifeAdd` -/
@[simp] theorem State.lifeAdd_pending (s : State) (k n : Nat) : (s.lifeAdd k n).pending = s.pending := rfl
@[simp] theorem State.lifeAdd_time (s : State) (k n : Nat) : (s.lifeAdd k n).time = s.time := rfl
@[simp] theorem State.lifeAdd_freeCtr (s : State) (k n : Nat) : (s.lifeAdd k n).freeCtr = s.freeCtr := rfl
@[simp] theorem State.lifeAdd_hostOut (s : State) (k n : Nat) : (s.lifeAdd k n).hostOut = s.hostOut := rfl
@[simp] theorem State.lifeAdd_wlOut (s : State) (k n : Nat) : (s.lifeAdd k n).wlOut = s.wlOut := rfl
@[simp] theorem State.lifeAdd_gen (s : State) (k n : Nat) : (s.lifeAdd k n).gen = s.gen := rfl
@[simp] theorem State.lifeAdd_q (s : State) (k n : Nat) : (s.lifeAdd k n).q = s.q := rfl
@[simp] theorem State.lifeAdd_msix (s : State) (k n : Nat) : (s.lifeAdd k n).msix = s.msix := rfl
@[simp] theorem State.lifeAdd_pci (s : State) (k n : Nat) : (s.lifeAdd k n).pci = s.pci := rfl
@[simp] theorem State.lifeAdd_evc (s : State) (k n : Nat) : (s.lifeAdd k n).evc = s.evc := rfl
@[simp] theorem State.lifeAdd_sig (s : State) (k n : Nat) : (s.lifeAdd k n).sig = s.sig := rfl
@[simp] theorem State.lifeAdd_flt (s : State) (k n : Nat) : (s.lifeAdd k n).flt = s.flt := rfl
@[simp] theorem State.lifeAdd_lifeLog (s : State) (k n : Nat) : (s.lifeAdd k n).lifeLog = s.lifeLog := rfl
@[simp] theorem State.lifeAdd_mem (s : State) (k n : Nat) : (s.lifeAdd k n).mem = s.mem := rfl
@[simp] theorem State.lifeAdd_mig (s : State) (k n : Nat) : (s.lifeAdd k n).mig = s.mig := rfl
@[simp] theorem State.lifeAdd_ecc (s : State) (k n : Nat) : (s.lifeAdd k n).ecc = s.ecc := rfl
@[simp] theorem State.lifeAdd_cores (s : State) (k n : Nat) : (s.lifeAdd k n).cores = s.cores := rfl
@[simp] theorem State.lifeAdd_jobs (s : State) (k n : Nat) : (s.lifeAdd k n).jobs = s.jobs := rfl
@[simp] theorem State.lifeAdd_seqs (s : State) (k n : Nat) : (s.lifeAdd k n).seqs = s.seqs := rfl
@[simp] theorem State.lifeAdd_fl (s : State) (k n : Nat) : (s.lifeAdd k n).fl = s.fl := rfl
@[simp] theorem State.lifeAdd_sf (s : State) (k n : Nat) : (s.lifeAdd k n).sf = s.sf := rfl
@[simp] theorem State.lifeAdd_wlk (s : State) (k n : Nat) : (s.lifeAdd k n).wlk = s.wlk := rfl
@[simp] theorem State.lifeAdd_idx (s : State) (k n : Nat) : (s.lifeAdd k n).idx = s.idx := rfl
@[simp] theorem State.lifeAdd_pwr (s : State) (k n : Nat) : (s.lifeAdd k n).pwr = s.pwr := rfl
@[simp] theorem State.lifeAdd_phys (s : State) (k n : Nat) : (s.lifeAdd k n).phys = s.phys := rfl

/-! `wlkEvt` -/
@[simp] theorem State.wlkEvt_pending (s : State) (b : Nat) : (s.wlkEvt b).pending = s.pending := rfl
@[simp] theorem State.wlkEvt_time (s : State) (b : Nat) : (s.wlkEvt b).time = s.time := rfl
@[simp] theorem State.wlkEvt_freeCtr (s : State) (b : Nat) : (s.wlkEvt b).freeCtr = s.freeCtr := rfl
@[simp] theorem State.wlkEvt_hostOut (s : State) (b : Nat) : (s.wlkEvt b).hostOut = s.hostOut := rfl
@[simp] theorem State.wlkEvt_wlOut (s : State) (b : Nat) : (s.wlkEvt b).wlOut = s.wlOut := rfl
@[simp] theorem State.wlkEvt_gen (s : State) (b : Nat) : (s.wlkEvt b).gen = s.gen := rfl
@[simp] theorem State.wlkEvt_q (s : State) (b : Nat) : (s.wlkEvt b).q = s.q := rfl
@[simp] theorem State.wlkEvt_msix (s : State) (b : Nat) : (s.wlkEvt b).msix = s.msix := rfl
@[simp] theorem State.wlkEvt_pci (s : State) (b : Nat) : (s.wlkEvt b).pci = s.pci := rfl
@[simp] theorem State.wlkEvt_evc (s : State) (b : Nat) : (s.wlkEvt b).evc = s.evc := rfl
@[simp] theorem State.wlkEvt_sig (s : State) (b : Nat) : (s.wlkEvt b).sig = s.sig := rfl
@[simp] theorem State.wlkEvt_flt (s : State) (b : Nat) : (s.wlkEvt b).flt = s.flt := rfl
@[simp] theorem State.wlkEvt_life (s : State) (b : Nat) : (s.wlkEvt b).life = s.life := rfl
@[simp] theorem State.wlkEvt_lifeLog (s : State) (b : Nat) : (s.wlkEvt b).lifeLog = s.lifeLog := rfl
@[simp] theorem State.wlkEvt_mem (s : State) (b : Nat) : (s.wlkEvt b).mem = s.mem := rfl
@[simp] theorem State.wlkEvt_mig (s : State) (b : Nat) : (s.wlkEvt b).mig = s.mig := rfl
@[simp] theorem State.wlkEvt_ecc (s : State) (b : Nat) : (s.wlkEvt b).ecc = s.ecc := rfl
@[simp] theorem State.wlkEvt_cores (s : State) (b : Nat) : (s.wlkEvt b).cores = s.cores := rfl
@[simp] theorem State.wlkEvt_jobs (s : State) (b : Nat) : (s.wlkEvt b).jobs = s.jobs := rfl
@[simp] theorem State.wlkEvt_seqs (s : State) (b : Nat) : (s.wlkEvt b).seqs = s.seqs := rfl
@[simp] theorem State.wlkEvt_fl (s : State) (b : Nat) : (s.wlkEvt b).fl = s.fl := rfl
@[simp] theorem State.wlkEvt_sf (s : State) (b : Nat) : (s.wlkEvt b).sf = s.sf := rfl
@[simp] theorem State.wlkEvt_idx (s : State) (b : Nat) : (s.wlkEvt b).idx = s.idx := rfl
@[simp] theorem State.wlkEvt_pwr (s : State) (b : Nat) : (s.wlkEvt b).pwr = s.pwr := rfl
@[simp] theorem State.wlkEvt_phys (s : State) (b : Nat) : (s.wlkEvt b).phys = s.phys := rfl

/-! `migEvt` -/
@[simp] theorem State.migEvt_pending (s : State) (b : Nat) : (s.migEvt b).pending = s.pending := rfl
@[simp] theorem State.migEvt_time (s : State) (b : Nat) : (s.migEvt b).time = s.time := rfl
@[simp] theorem State.migEvt_freeCtr (s : State) (b : Nat) : (s.migEvt b).freeCtr = s.freeCtr := rfl
@[simp] theorem State.migEvt_hostOut (s : State) (b : Nat) : (s.migEvt b).hostOut = s.hostOut := rfl
@[simp] theorem State.migEvt_wlOut (s : State) (b : Nat) : (s.migEvt b).wlOut = s.wlOut := rfl
@[simp] theorem State.migEvt_gen (s : State) (b : Nat) : (s.migEvt b).gen = s.gen := rfl
@[simp] theorem State.migEvt_q (s : State) (b : Nat) : (s.migEvt b).q = s.q := rfl
@[simp] theorem State.migEvt_msix (s : State) (b : Nat) : (s.migEvt b).msix = s.msix := rfl
@[simp] theorem State.migEvt_pci (s : State) (b : Nat) : (s.migEvt b).pci = s.pci := rfl
@[simp] theorem State.migEvt_evc (s : State) (b : Nat) : (s.migEvt b).evc = s.evc := rfl
@[simp] theorem State.migEvt_sig (s : State) (b : Nat) : (s.migEvt b).sig = s.sig := rfl
@[simp] theorem State.migEvt_flt (s : State) (b : Nat) : (s.migEvt b).flt = s.flt := rfl
@[simp] theorem State.migEvt_life (s : State) (b : Nat) : (s.migEvt b).life = s.life := rfl
@[simp] theorem State.migEvt_lifeLog (s : State) (b : Nat) : (s.migEvt b).lifeLog = s.lifeLog := rfl
@[simp] theorem State.migEvt_mem (s : State) (b : Nat) : (s.migEvt b).mem = s.mem := rfl
@[simp] theorem State.migEvt_ecc (s : State) (b : Nat) : (s.migEvt b).ecc = s.ecc := rfl
@[simp] theorem State.migEvt_cores (s : State) (b : Nat) : (s.migEvt b).cores = s.cores := rfl
@[simp] theorem State.migEvt_jobs (s : State) (b : Nat) : (s.migEvt b).jobs = s.jobs := rfl
@[simp] theorem State.migEvt_seqs (s : State) (b : Nat) : (s.migEvt b).seqs = s.seqs := rfl
@[simp] theorem State.migEvt_fl (s : State) (b : Nat) : (s.migEvt b).fl = s.fl := rfl
@[simp] theorem State.migEvt_sf (s : State) (b : Nat) : (s.migEvt b).sf = s.sf := rfl
@[simp] theorem State.migEvt_wlk (s : State) (b : Nat) : (s.migEvt b).wlk = s.wlk := rfl
@[simp] theorem State.migEvt_idx (s : State) (b : Nat) : (s.migEvt b).idx = s.idx := rfl
@[simp] theorem State.migEvt_pwr (s : State) (b : Nat) : (s.migEvt b).pwr = s.pwr := rfl
@[simp] theorem State.migEvt_phys (s : State) (b : Nat) : (s.migEvt b).phys = s.phys := rfl

/-! `eccEvt` -/
@[simp] theorem State.eccEvt_pending (s : State) (b : Nat) : (s.eccEvt b).pending = s.pending := rfl
@[simp] theorem State.eccEvt_time (s : State) (b : Nat) : (s.eccEvt b).time = s.time := rfl
@[simp] theorem State.eccEvt_freeCtr (s : State) (b : Nat) : (s.eccEvt b).freeCtr = s.freeCtr := rfl
@[simp] theorem State.eccEvt_hostOut (s : State) (b : Nat) : (s.eccEvt b).hostOut = s.hostOut := rfl
@[simp] theorem State.eccEvt_wlOut (s : State) (b : Nat) : (s.eccEvt b).wlOut = s.wlOut := rfl
@[simp] theorem State.eccEvt_gen (s : State) (b : Nat) : (s.eccEvt b).gen = s.gen := rfl
@[simp] theorem State.eccEvt_q (s : State) (b : Nat) : (s.eccEvt b).q = s.q := rfl
@[simp] theorem State.eccEvt_msix (s : State) (b : Nat) : (s.eccEvt b).msix = s.msix := rfl
@[simp] theorem State.eccEvt_pci (s : State) (b : Nat) : (s.eccEvt b).pci = s.pci := rfl
@[simp] theorem State.eccEvt_evc (s : State) (b : Nat) : (s.eccEvt b).evc = s.evc := rfl
@[simp] theorem State.eccEvt_sig (s : State) (b : Nat) : (s.eccEvt b).sig = s.sig := rfl
@[simp] theorem State.eccEvt_flt (s : State) (b : Nat) : (s.eccEvt b).flt = s.flt := rfl
@[simp] theorem State.eccEvt_life (s : State) (b : Nat) : (s.eccEvt b).life = s.life := rfl
@[simp] theorem State.eccEvt_lifeLog (s : State) (b : Nat) : (s.eccEvt b).lifeLog = s.lifeLog := rfl
@[simp] theorem State.eccEvt_mem (s : State) (b : Nat) : (s.eccEvt b).mem = s.mem := rfl
@[simp] theorem State.eccEvt_mig (s : State) (b : Nat) : (s.eccEvt b).mig = s.mig := rfl
@[simp] theorem State.eccEvt_cores (s : State) (b : Nat) : (s.eccEvt b).cores = s.cores := rfl
@[simp] theorem State.eccEvt_jobs (s : State) (b : Nat) : (s.eccEvt b).jobs = s.jobs := rfl
@[simp] theorem State.eccEvt_seqs (s : State) (b : Nat) : (s.eccEvt b).seqs = s.seqs := rfl
@[simp] theorem State.eccEvt_fl (s : State) (b : Nat) : (s.eccEvt b).fl = s.fl := rfl
@[simp] theorem State.eccEvt_sf (s : State) (b : Nat) : (s.eccEvt b).sf = s.sf := rfl
@[simp] theorem State.eccEvt_wlk (s : State) (b : Nat) : (s.eccEvt b).wlk = s.wlk := rfl
@[simp] theorem State.eccEvt_idx (s : State) (b : Nat) : (s.eccEvt b).idx = s.idx := rfl
@[simp] theorem State.eccEvt_pwr (s : State) (b : Nat) : (s.eccEvt b).pwr = s.pwr := rfl
@[simp] theorem State.eccEvt_phys (s : State) (b : Nat) : (s.eccEvt b).phys = s.phys := rfl

/-! `sbAlert` -/
@[simp] theorem State.sbAlert_pending (s : State) (b : Nat) : (s.sbAlert b).pending = s.pending := rfl
@[simp] theorem State.sbAlert_time (s : State) (b : Nat) : (s.sbAlert b).time = s.time := rfl
@[simp] theorem State.sbAlert_freeCtr (s : State) (b : Nat) : (s.sbAlert b).freeCtr = s.freeCtr := rfl
@[simp] theorem State.sbAlert_hostOut (s : State) (b : Nat) : (s.sbAlert b).hostOut = s.hostOut := rfl
@[simp] theorem State.sbAlert_wlOut (s : State) (b : Nat) : (s.sbAlert b).wlOut = s.wlOut := rfl
@[simp] theorem State.sbAlert_gen (s : State) (b : Nat) : (s.sbAlert b).gen = s.gen := rfl
@[simp] theorem State.sbAlert_q (s : State) (b : Nat) : (s.sbAlert b).q = s.q := rfl
@[simp] theorem State.sbAlert_msix (s : State) (b : Nat) : (s.sbAlert b).msix = s.msix := rfl
@[simp] theorem State.sbAlert_pci (s : State) (b : Nat) : (s.sbAlert b).pci = s.pci := rfl
@[simp] theorem State.sbAlert_evc (s : State) (b : Nat) : (s.sbAlert b).evc = s.evc := rfl
@[simp] theorem State.sbAlert_sig (s : State) (b : Nat) : (s.sbAlert b).sig = s.sig := rfl
@[simp] theorem State.sbAlert_flt (s : State) (b : Nat) : (s.sbAlert b).flt = s.flt := rfl
@[simp] theorem State.sbAlert_life (s : State) (b : Nat) : (s.sbAlert b).life = s.life := rfl
@[simp] theorem State.sbAlert_lifeLog (s : State) (b : Nat) : (s.sbAlert b).lifeLog = s.lifeLog := rfl
@[simp] theorem State.sbAlert_mem (s : State) (b : Nat) : (s.sbAlert b).mem = s.mem := rfl
@[simp] theorem State.sbAlert_mig (s : State) (b : Nat) : (s.sbAlert b).mig = s.mig := rfl
@[simp] theorem State.sbAlert_ecc (s : State) (b : Nat) : (s.sbAlert b).ecc = s.ecc := rfl
@[simp] theorem State.sbAlert_cores (s : State) (b : Nat) : (s.sbAlert b).cores = s.cores := rfl
@[simp] theorem State.sbAlert_jobs (s : State) (b : Nat) : (s.sbAlert b).jobs = s.jobs := rfl
@[simp] theorem State.sbAlert_seqs (s : State) (b : Nat) : (s.sbAlert b).seqs = s.seqs := rfl
@[simp] theorem State.sbAlert_fl (s : State) (b : Nat) : (s.sbAlert b).fl = s.fl := rfl
@[simp] theorem State.sbAlert_sf (s : State) (b : Nat) : (s.sbAlert b).sf = s.sf := rfl
@[simp] theorem State.sbAlert_wlk (s : State) (b : Nat) : (s.sbAlert b).wlk = s.wlk := rfl
@[simp] theorem State.sbAlert_idx (s : State) (b : Nat) : (s.sbAlert b).idx = s.idx := rfl
@[simp] theorem State.sbAlert_pwr (s : State) (b : Nat) : (s.sbAlert b).pwr = s.pwr := rfl

/-! `partFlags` -/
@[simp] theorem State.partFlags_pending (s : State) (p : Nat) (f : PartFlags → PartFlags) : (s.partFlags p f).pending = s.pending := rfl
@[simp] theorem State.partFlags_time (s : State) (p : Nat) (f : PartFlags → PartFlags) : (s.partFlags p f).time = s.time := rfl
@[simp] theorem State.partFlags_freeCtr (s : State) (p : Nat) (f : PartFlags → PartFlags) : (s.partFlags p f).freeCtr = s.freeCtr := rfl
@[simp] theorem State.partFlags_hostOut (s : State) (p : Nat) (f : PartFlags → PartFlags) : (s.partFlags p f).hostOut = s.hostOut := rfl
@[simp] theorem State.partFlags_wlOut (s : State) (p : Nat) (f : PartFlags → PartFlags) : (s.partFlags p f).wlOut = s.wlOut := rfl
@[simp] theorem State.partFlags_gen (s : State) (p : Nat) (f : PartFlags → PartFlags) : (s.partFlags p f).gen = s.gen := rfl
@[simp] theorem State.partFlags_q (s : State) (p : Nat) (f : PartFlags → PartFlags) : (s.partFlags p f).q = s.q := rfl
@[simp] theorem State.partFlags_msix (s : State) (p : Nat) (f : PartFlags → PartFlags) : (s.partFlags p f).msix = s.msix := rfl
@[simp] theorem State.partFlags_pci (s : State) (p : Nat) (f : PartFlags → PartFlags) : (s.partFlags p f).pci = s.pci := rfl
@[simp] theorem State.partFlags_sig (s : State) (p : Nat) (f : PartFlags → PartFlags) : (s.partFlags p f).sig = s.sig := rfl
@[simp] theorem State.partFlags_flt (s : State) (p : Nat) (f : PartFlags → PartFlags) : (s.partFlags p f).flt = s.flt := rfl
@[simp] theorem State.partFlags_life (s : State) (p : Nat) (f : PartFlags → PartFlags) : (s.partFlags p f).life = s.life := rfl
@[simp] theorem State.partFlags_lifeLog (s : State) (p : Nat) (f : PartFlags → PartFlags) : (s.partFlags p f).lifeLog = s.lifeLog := rfl
@[simp] theorem State.partFlags_mem (s : State) (p : Nat) (f : PartFlags → PartFlags) : (s.partFlags p f).mem = s.mem := rfl
@[simp] theorem State.partFlags_mig (s : State) (p : Nat) (f : PartFlags → PartFlags) : (s.partFlags p f).mig = s.mig := rfl
@[simp] theorem State.partFlags_ecc (s : State) (p : Nat) (f : PartFlags → PartFlags) : (s.partFlags p f).ecc = s.ecc := rfl
@[simp] theorem State.partFlags_cores (s : State) (p : Nat) (f : PartFlags → PartFlags) : (s.partFlags p f).cores = s.cores := rfl
@[simp] theorem State.partFlags_jobs (s : State) (p : Nat) (f : PartFlags → PartFlags) : (s.partFlags p f).jobs = s.jobs := rfl
@[simp] theorem State.partFlags_seqs (s : State) (p : Nat) (f : PartFlags → PartFlags) : (s.partFlags p f).seqs = s.seqs := rfl
@[simp] theorem State.partFlags_fl (s : State) (p : Nat) (f : PartFlags → PartFlags) : (s.partFlags p f).fl = s.fl := rfl
@[simp] theorem State.partFlags_sf (s : State) (p : Nat) (f : PartFlags → PartFlags) : (s.partFlags p f).sf = s.sf := rfl
@[simp] theorem State.partFlags_wlk (s : State) (p : Nat) (f : PartFlags → PartFlags) : (s.partFlags p f).wlk = s.wlk := rfl
@[simp] theorem State.partFlags_idx (s : State) (p : Nat) (f : PartFlags → PartFlags) : (s.partFlags p f).idx = s.idx := rfl
@[simp] theorem State.partFlags_pwr (s : State) (p : Nat) (f : PartFlags → PartFlags) : (s.partFlags p f).pwr = s.pwr := rfl
@[simp] theorem State.partFlags_phys (s : State) (p : Nat) (f : PartFlags → PartFlags) : (s.partFlags p f).phys = s.phys := rfl

/-! `setQueue` -/
@[simp] theorem State.setQueue_pending (s : State) (k : Nat) (f : Queue → Queue) : (s.setQueue k f).pending = s.pending := rfl
@[simp] theorem State.setQueue_time (s : State) (k : Nat) (f : Queue → Queue) : (s.setQueue k f).time = s.time := rfl
@[simp] theorem State.setQueue_freeCtr (s : State) (k : Nat) (f : Queue → Queue) : (s.setQueue k f).freeCtr = s.freeCtr := rfl
@[simp] theorem State.setQueue_hostOut (s : State) (k : Nat) (f : Queue → Queue) : (s.setQueue k f).hostOut = s.hostOut := rfl
@[simp] theorem State.setQueue_wlOut (s : State) (k : Nat) (f : Queue → Queue) : (s.setQueue k f).wlOut = s.wlOut := rfl
@[simp] theorem State.setQueue_gen (s : State) (k : Nat) (f : Queue → Queue) : (s.setQueue k f).gen = s.gen := rfl
@[simp] theorem State.setQueue_msix (s : State) (k : Nat) (f : Queue → Queue) : (s.setQueue k f).msix = s.msix := rfl
@[simp] theorem State.setQueue_pci (s : State) (k : Nat) (f : Queue → Queue) : (s.setQueue k f).pci = s.pci := rfl
@[simp] theorem State.setQueue_evc (s : State) (k : Nat) (f : Queue → Queue) : (s.setQueue k f).evc = s.evc := rfl
@[simp] theorem State.setQueue_sig (s : State) (k : Nat) (f : Queue → Queue) : (s.setQueue k f).sig = s.sig := rfl
@[simp] theorem State.setQueue_flt (s : State) (k : Nat) (f : Queue → Queue) : (s.setQueue k f).flt = s.flt := rfl
@[simp] theorem State.setQueue_life (s : State) (k : Nat) (f : Queue → Queue) : (s.setQueue k f).life = s.life := rfl
@[simp] theorem State.setQueue_lifeLog (s : State) (k : Nat) (f : Queue → Queue) : (s.setQueue k f).lifeLog = s.lifeLog := rfl
@[simp] theorem State.setQueue_mem (s : State) (k : Nat) (f : Queue → Queue) : (s.setQueue k f).mem = s.mem := rfl
@[simp] theorem State.setQueue_mig (s : State) (k : Nat) (f : Queue → Queue) : (s.setQueue k f).mig = s.mig := rfl
@[simp] theorem State.setQueue_ecc (s : State) (k : Nat) (f : Queue → Queue) : (s.setQueue k f).ecc = s.ecc := rfl
@[simp] theorem State.setQueue_cores (s : State) (k : Nat) (f : Queue → Queue) : (s.setQueue k f).cores = s.cores := rfl
@[simp] theorem State.setQueue_jobs (s : State) (k : Nat) (f : Queue → Queue) : (s.setQueue k f).jobs = s.jobs := rfl
@[simp] theorem State.setQueue_seqs (s : State) (k : Nat) (f : Queue → Queue) : (s.setQueue k f).seqs = s.seqs := rfl
@[simp] theorem State.setQueue_fl (s : State) (k : Nat) (f : Queue → Queue) : (s.setQueue k f).fl = s.fl := rfl
@[simp] theorem State.setQueue_sf (s : State) (k : Nat) (f : Queue → Queue) : (s.setQueue k f).sf = s.sf := rfl
@[simp] theorem State.setQueue_wlk (s : State) (k : Nat) (f : Queue → Queue) : (s.setQueue k f).wlk = s.wlk := rfl
@[simp] theorem State.setQueue_idx (s : State) (k : Nat) (f : Queue → Queue) : (s.setQueue k f).idx = s.idx := rfl
@[simp] theorem State.setQueue_pwr (s : State) (k : Nat) (f : Queue → Queue) : (s.setQueue k f).pwr = s.pwr := rfl
@[simp] theorem State.setQueue_phys (s : State) (k : Nat) (f : Queue → Queue) : (s.setQueue k f).phys = s.phys := rfl

/-! `setCmd` -/
@[simp] theorem State.setCmd_pending (s : State) (r : CmdRef) (f : Cmd → Cmd) : (s.setCmd r f).pending = s.pending := rfl
@[simp] theorem State.setCmd_time (s : State) (r : CmdRef) (f : Cmd → Cmd) : (s.setCmd r f).time = s.time := rfl
@[simp] theorem State.setCmd_freeCtr (s : State) (r : CmdRef) (f : Cmd → Cmd) : (s.setCmd r f).freeCtr = s.freeCtr := rfl
@[simp] theorem State.setCmd_hostOut (s : State) (r : CmdRef) (f : Cmd → Cmd) : (s.setCmd r f).hostOut = s.hostOut := rfl
@[simp] theorem State.setCmd_wlOut (s : State) (r : CmdRef) (f : Cmd → Cmd) : (s.setCmd r f).wlOut = s.wlOut := rfl
@[simp] theorem State.setCmd_gen (s : State) (r : CmdRef) (f : Cmd → Cmd) : (s.setCmd r f).gen = s.gen := rfl
@[simp] theorem State.setCmd_msix (s : State) (r : CmdRef) (f : Cmd → Cmd) : (s.setCmd r f).msix = s.msix := rfl
@[simp] theorem State.setCmd_pci (s : State) (r : CmdRef) (f : Cmd → Cmd) : (s.setCmd r f).pci = s.pci := rfl
@[simp] theorem State.setCmd_evc (s : State) (r : CmdRef) (f : Cmd → Cmd) : (s.setCmd r f).evc = s.evc := rfl
@[simp] theorem State.setCmd_sig (s : State) (r : CmdRef) (f : Cmd → Cmd) : (s.setCmd r f).sig = s.sig := rfl
@[simp] theorem State.setCmd_flt (s : State) (r : CmdRef) (f : Cmd → Cmd) : (s.setCmd r f).flt = s.flt := rfl
@[simp] theorem State.setCmd_life (s : State) (r : CmdRef) (f : Cmd → Cmd) : (s.setCmd r f).life = s.life := rfl
@[simp] theorem State.setCmd_lifeLog (s : State) (r : CmdRef) (f : Cmd → Cmd) : (s.setCmd r f).lifeLog = s.lifeLog := rfl
@[simp] theorem State.setCmd_mem (s : State) (r : CmdRef) (f : Cmd → Cmd) : (s.setCmd r f).mem = s.mem := rfl
@[simp] theorem State.setCmd_mig (s : State) (r : CmdRef) (f : Cmd → Cmd) : (s.setCmd r f).mig = s.mig := rfl
@[simp] theorem State.setCmd_ecc (s : State) (r : CmdRef) (f : Cmd → Cmd) : (s.setCmd r f).ecc = s.ecc := rfl
@[simp] theorem State.setCmd_cores (s : State) (r : CmdRef) (f : Cmd → Cmd) : (s.setCmd r f).cores = s.cores := rfl
@[simp] theorem State.setCmd_jobs (s : State) (r : CmdRef) (f : Cmd → Cmd) : (s.setCmd r f).jobs = s.jobs := rfl
@[simp] theorem State.setCmd_seqs (s : State) (r : CmdRef) (f : Cmd → Cmd) : (s.setCmd r f).seqs = s.seqs := rfl
@[simp] theorem State.setCmd_fl (s : State) (r : CmdRef) (f : Cmd → Cmd) : (s.setCmd r f).fl = s.fl := rfl
@[simp] theorem State.setCmd_sf (s : State) (r : CmdRef) (f : Cmd → Cmd) : (s.setCmd r f).sf = s.sf := rfl
@[simp] theorem State.setCmd_wlk (s : State) (r : CmdRef) (f : Cmd → Cmd) : (s.setCmd r f).wlk = s.wlk := rfl
@[simp] theorem State.setCmd_idx (s : State) (r : CmdRef) (f : Cmd → Cmd) : (s.setCmd r f).idx = s.idx := rfl
@[simp] theorem State.setCmd_pwr (s : State) (r : CmdRef) (f : Cmd → Cmd) : (s.setCmd r f).pwr = s.pwr := rfl
@[simp] theorem State.setCmd_phys (s : State) (r : CmdRef) (f : Cmd → Cmd) : (s.setCmd r f).phys = s.phys := rfl

/-! `logError` -/
@[simp] theorem State.logError_pending (s : State) (e : ErrEntry) : (s.logError e).pending = s.pending := by simp only [State.logError]
@[simp] theorem State.logError_time (s : State) (e : ErrEntry) : (s.logError e).time = s.time := by simp only [State.logError]
@[simp] theorem State.logError_freeCtr (s : State) (e : ErrEntry) : (s.logError e).freeCtr = s.freeCtr := by simp only [State.logError]
@[simp] theorem State.logError_hostOut (s : State) (e : ErrEntry) : (s.logError e).hostOut = s.hostOut := by simp only [State.logError]
@[simp] theorem State.logError_wlOut (s : State) (e : ErrEntry) : (s.logError e).wlOut = s.wlOut := by simp only [State.logError]
@[simp] theorem State.logError_gen (s : State) (e : ErrEntry) : (s.logError e).gen = s.gen := by simp only [State.logError]
@[simp] theorem State.logError_msix (s : State) (e : ErrEntry) : (s.logError e).msix = s.msix := by simp only [State.logError]
@[simp] theorem State.logError_pci (s : State) (e : ErrEntry) : (s.logError e).pci = s.pci := by simp only [State.logError]
@[simp] theorem State.logError_evc (s : State) (e : ErrEntry) : (s.logError e).evc = s.evc := by simp only [State.logError]
@[simp] theorem State.logError_sig (s : State) (e : ErrEntry) : (s.logError e).sig = s.sig := by simp only [State.logError]
@[simp] theorem State.logError_flt (s : State) (e : ErrEntry) : (s.logError e).flt = s.flt := by simp only [State.logError]
@[simp] theorem State.logError_life (s : State) (e : ErrEntry) : (s.logError e).life = s.life := by simp only [State.logError]
@[simp] theorem State.logError_lifeLog (s : State) (e : ErrEntry) : (s.logError e).lifeLog = s.lifeLog := by simp only [State.logError]
@[simp] theorem State.logError_mem (s : State) (e : ErrEntry) : (s.logError e).mem = s.mem := by simp only [State.logError]
@[simp] theorem State.logError_mig (s : State) (e : ErrEntry) : (s.logError e).mig = s.mig := by simp only [State.logError]
@[simp] theorem State.logError_ecc (s : State) (e : ErrEntry) : (s.logError e).ecc = s.ecc := by simp only [State.logError]
@[simp] theorem State.logError_cores (s : State) (e : ErrEntry) : (s.logError e).cores = s.cores := by simp only [State.logError]
@[simp] theorem State.logError_jobs (s : State) (e : ErrEntry) : (s.logError e).jobs = s.jobs := by simp only [State.logError]
@[simp] theorem State.logError_seqs (s : State) (e : ErrEntry) : (s.logError e).seqs = s.seqs := by simp only [State.logError]
@[simp] theorem State.logError_fl (s : State) (e : ErrEntry) : (s.logError e).fl = s.fl := by simp only [State.logError]
@[simp] theorem State.logError_sf (s : State) (e : ErrEntry) : (s.logError e).sf = s.sf := by simp only [State.logError]
@[simp] theorem State.logError_wlk (s : State) (e : ErrEntry) : (s.logError e).wlk = s.wlk := by simp only [State.logError]
@[simp] theorem State.logError_idx (s : State) (e : ErrEntry) : (s.logError e).idx = s.idx := by simp only [State.logError]
@[simp] theorem State.logError_pwr (s : State) (e : ErrEntry) : (s.logError e).pwr = s.pwr := by simp only [State.logError]
@[simp] theorem State.logError_phys (s : State) (e : ErrEntry) : (s.logError e).phys = s.phys := by simp only [State.logError]

/-! `freeze` -/
@[simp] theorem State.freeze_pending (s : State) (k i : Nat) (h : Option Nat) : (s.freeze k i h).pending = s.pending := rfl
@[simp] theorem State.freeze_time (s : State) (k i : Nat) (h : Option Nat) : (s.freeze k i h).time = s.time := rfl
@[simp] theorem State.freeze_freeCtr (s : State) (k i : Nat) (h : Option Nat) : (s.freeze k i h).freeCtr = s.freeCtr := rfl
@[simp] theorem State.freeze_hostOut (s : State) (k i : Nat) (h : Option Nat) : (s.freeze k i h).hostOut = s.hostOut := rfl
@[simp] theorem State.freeze_wlOut (s : State) (k i : Nat) (h : Option Nat) : (s.freeze k i h).wlOut = s.wlOut := rfl
@[simp] theorem State.freeze_gen (s : State) (k i : Nat) (h : Option Nat) : (s.freeze k i h).gen = s.gen := rfl
@[simp] theorem State.freeze_msix (s : State) (k i : Nat) (h : Option Nat) : (s.freeze k i h).msix = s.msix := rfl
@[simp] theorem State.freeze_pci (s : State) (k i : Nat) (h : Option Nat) : (s.freeze k i h).pci = s.pci := rfl
@[simp] theorem State.freeze_evc (s : State) (k i : Nat) (h : Option Nat) : (s.freeze k i h).evc = s.evc := rfl
@[simp] theorem State.freeze_sig (s : State) (k i : Nat) (h : Option Nat) : (s.freeze k i h).sig = s.sig := rfl
@[simp] theorem State.freeze_flt (s : State) (k i : Nat) (h : Option Nat) : (s.freeze k i h).flt = s.flt := rfl
@[simp] theorem State.freeze_life (s : State) (k i : Nat) (h : Option Nat) : (s.freeze k i h).life = s.life := rfl
@[simp] theorem State.freeze_lifeLog (s : State) (k i : Nat) (h : Option Nat) : (s.freeze k i h).lifeLog = s.lifeLog := rfl
@[simp] theorem State.freeze_mem (s : State) (k i : Nat) (h : Option Nat) : (s.freeze k i h).mem = s.mem := rfl
@[simp] theorem State.freeze_mig (s : State) (k i : Nat) (h : Option Nat) : (s.freeze k i h).mig = s.mig := rfl
@[simp] theorem State.freeze_ecc (s : State) (k i : Nat) (h : Option Nat) : (s.freeze k i h).ecc = s.ecc := rfl
@[simp] theorem State.freeze_cores (s : State) (k i : Nat) (h : Option Nat) : (s.freeze k i h).cores = s.cores := rfl
@[simp] theorem State.freeze_jobs (s : State) (k i : Nat) (h : Option Nat) : (s.freeze k i h).jobs = s.jobs := rfl
@[simp] theorem State.freeze_seqs (s : State) (k i : Nat) (h : Option Nat) : (s.freeze k i h).seqs = s.seqs := rfl
@[simp] theorem State.freeze_fl (s : State) (k i : Nat) (h : Option Nat) : (s.freeze k i h).fl = s.fl := rfl
@[simp] theorem State.freeze_sf (s : State) (k i : Nat) (h : Option Nat) : (s.freeze k i h).sf = s.sf := rfl
@[simp] theorem State.freeze_wlk (s : State) (k i : Nat) (h : Option Nat) : (s.freeze k i h).wlk = s.wlk := rfl
@[simp] theorem State.freeze_idx (s : State) (k i : Nat) (h : Option Nat) : (s.freeze k i h).idx = s.idx := rfl
@[simp] theorem State.freeze_pwr (s : State) (k i : Nat) (h : Option Nat) : (s.freeze k i h).pwr = s.pwr := rfl
@[simp] theorem State.freeze_phys (s : State) (k i : Nat) (h : Option Nat) : (s.freeze k i h).phys = s.phys := rfl

/-! `markDrained` -/
@[simp] theorem State.markDrained_pending (s : State) (k : Nat) : (s.markDrained k).pending = s.pending := rfl
@[simp] theorem State.markDrained_time (s : State) (k : Nat) : (s.markDrained k).time = s.time := rfl
@[simp] theorem State.markDrained_freeCtr (s : State) (k : Nat) : (s.markDrained k).freeCtr = s.freeCtr := rfl
@[simp] theorem State.markDrained_hostOut (s : State) (k : Nat) : (s.markDrained k).hostOut = s.hostOut := rfl
@[simp] theorem State.markDrained_wlOut (s : State) (k : Nat) : (s.markDrained k).wlOut = s.wlOut := rfl
@[simp] theorem State.markDrained_gen (s : State) (k : Nat) : (s.markDrained k).gen = s.gen := rfl
@[simp] theorem State.markDrained_msix (s : State) (k : Nat) : (s.markDrained k).msix = s.msix := rfl
@[simp] theorem State.markDrained_pci (s : State) (k : Nat) : (s.markDrained k).pci = s.pci := rfl
@[simp] theorem State.markDrained_evc (s : State) (k : Nat) : (s.markDrained k).evc = s.evc := rfl
@[simp] theorem State.markDrained_sig (s : State) (k : Nat) : (s.markDrained k).sig = s.sig := rfl
@[simp] theorem State.markDrained_flt (s : State) (k : Nat) : (s.markDrained k).flt = s.flt := rfl
@[simp] theorem State.markDrained_life (s : State) (k : Nat) : (s.markDrained k).life = s.life := rfl
@[simp] theorem State.markDrained_lifeLog (s : State) (k : Nat) : (s.markDrained k).lifeLog = s.lifeLog := rfl
@[simp] theorem State.markDrained_mem (s : State) (k : Nat) : (s.markDrained k).mem = s.mem := rfl
@[simp] theorem State.markDrained_mig (s : State) (k : Nat) : (s.markDrained k).mig = s.mig := rfl
@[simp] theorem State.markDrained_ecc (s : State) (k : Nat) : (s.markDrained k).ecc = s.ecc := rfl
@[simp] theorem State.markDrained_cores (s : State) (k : Nat) : (s.markDrained k).cores = s.cores := rfl
@[simp] theorem State.markDrained_jobs (s : State) (k : Nat) : (s.markDrained k).jobs = s.jobs := rfl
@[simp] theorem State.markDrained_seqs (s : State) (k : Nat) : (s.markDrained k).seqs = s.seqs := rfl
@[simp] theorem State.markDrained_fl (s : State) (k : Nat) : (s.markDrained k).fl = s.fl := rfl
@[simp] theorem State.markDrained_sf (s : State) (k : Nat) : (s.markDrained k).sf = s.sf := rfl
@[simp] theorem State.markDrained_wlk (s : State) (k : Nat) : (s.markDrained k).wlk = s.wlk := rfl
@[simp] theorem State.markDrained_idx (s : State) (k : Nat) : (s.markDrained k).idx = s.idx := rfl
@[simp] theorem State.markDrained_pwr (s : State) (k : Nat) : (s.markDrained k).pwr = s.pwr := rfl
@[simp] theorem State.markDrained_phys (s : State) (k : Nat) : (s.markDrained k).phys = s.phys := rfl

/-! `histogram` -/
@[simp] theorem State.histogram_pending (s : State) (h ns : Nat) : (s.histogram h ns).pending = s.pending := rfl
@[simp] theorem State.histogram_time (s : State) (h ns : Nat) : (s.histogram h ns).time = s.time := rfl
@[simp] theorem State.histogram_freeCtr (s : State) (h ns : Nat) : (s.histogram h ns).freeCtr = s.freeCtr := rfl
@[simp] theorem State.histogram_hostOut (s : State) (h ns : Nat) : (s.histogram h ns).hostOut = s.hostOut := rfl
@[simp] theorem State.histogram_wlOut (s : State) (h ns : Nat) : (s.histogram h ns).wlOut = s.wlOut := rfl
@[simp] theorem State.histogram_q (s : State) (h ns : Nat) : (s.histogram h ns).q = s.q := rfl
@[simp] theorem State.histogram_msix (s : State) (h ns : Nat) : (s.histogram h ns).msix = s.msix := rfl
@[simp] theorem State.histogram_pci (s : State) (h ns : Nat) : (s.histogram h ns).pci = s.pci := rfl
@[simp] theorem State.histogram_evc (s : State) (h ns : Nat) : (s.histogram h ns).evc = s.evc := rfl
@[simp] theorem State.histogram_sig (s : State) (h ns : Nat) : (s.histogram h ns).sig = s.sig := rfl
@[simp] theorem State.histogram_flt (s : State) (h ns : Nat) : (s.histogram h ns).flt = s.flt := rfl
@[simp] theorem State.histogram_life (s : State) (h ns : Nat) : (s.histogram h ns).life = s.life := rfl
@[simp] theorem State.histogram_lifeLog (s : State) (h ns : Nat) : (s.histogram h ns).lifeLog = s.lifeLog := rfl
@[simp] theorem State.histogram_mem (s : State) (h ns : Nat) : (s.histogram h ns).mem = s.mem := rfl
@[simp] theorem State.histogram_mig (s : State) (h ns : Nat) : (s.histogram h ns).mig = s.mig := rfl
@[simp] theorem State.histogram_ecc (s : State) (h ns : Nat) : (s.histogram h ns).ecc = s.ecc := rfl
@[simp] theorem State.histogram_cores (s : State) (h ns : Nat) : (s.histogram h ns).cores = s.cores := rfl
@[simp] theorem State.histogram_jobs (s : State) (h ns : Nat) : (s.histogram h ns).jobs = s.jobs := rfl
@[simp] theorem State.histogram_seqs (s : State) (h ns : Nat) : (s.histogram h ns).seqs = s.seqs := rfl
@[simp] theorem State.histogram_fl (s : State) (h ns : Nat) : (s.histogram h ns).fl = s.fl := rfl
@[simp] theorem State.histogram_sf (s : State) (h ns : Nat) : (s.histogram h ns).sf = s.sf := rfl
@[simp] theorem State.histogram_wlk (s : State) (h ns : Nat) : (s.histogram h ns).wlk = s.wlk := rfl
@[simp] theorem State.histogram_idx (s : State) (h ns : Nat) : (s.histogram h ns).idx = s.idx := rfl
@[simp] theorem State.histogram_pwr (s : State) (h ns : Nat) : (s.histogram h ns).pwr = s.pwr := rfl
@[simp] theorem State.histogram_phys (s : State) (h ns : Nat) : (s.histogram h ns).phys = s.phys := rfl

/-! `hostData` -/
@[simp] theorem State.hostData_pending (s : State) (r : CmdRef) (b : Nat) (bs : List Byte) : (s.hostData r b bs).pending = s.pending := rfl
@[simp] theorem State.hostData_time (s : State) (r : CmdRef) (b : Nat) (bs : List Byte) : (s.hostData r b bs).time = s.time := rfl
@[simp] theorem State.hostData_freeCtr (s : State) (r : CmdRef) (b : Nat) (bs : List Byte) : (s.hostData r b bs).freeCtr = s.freeCtr := rfl
@[simp] theorem State.hostData_wlOut (s : State) (r : CmdRef) (b : Nat) (bs : List Byte) : (s.hostData r b bs).wlOut = s.wlOut := rfl
@[simp] theorem State.hostData_gen (s : State) (r : CmdRef) (b : Nat) (bs : List Byte) : (s.hostData r b bs).gen = s.gen := rfl
@[simp] theorem State.hostData_q (s : State) (r : CmdRef) (b : Nat) (bs : List Byte) : (s.hostData r b bs).q = s.q := rfl
@[simp] theorem State.hostData_msix (s : State) (r : CmdRef) (b : Nat) (bs : List Byte) : (s.hostData r b bs).msix = s.msix := rfl
@[simp] theorem State.hostData_pci (s : State) (r : CmdRef) (b : Nat) (bs : List Byte) : (s.hostData r b bs).pci = s.pci := rfl
@[simp] theorem State.hostData_evc (s : State) (r : CmdRef) (b : Nat) (bs : List Byte) : (s.hostData r b bs).evc = s.evc := rfl
@[simp] theorem State.hostData_sig (s : State) (r : CmdRef) (b : Nat) (bs : List Byte) : (s.hostData r b bs).sig = s.sig := rfl
@[simp] theorem State.hostData_flt (s : State) (r : CmdRef) (b : Nat) (bs : List Byte) : (s.hostData r b bs).flt = s.flt := rfl
@[simp] theorem State.hostData_life (s : State) (r : CmdRef) (b : Nat) (bs : List Byte) : (s.hostData r b bs).life = s.life := rfl
@[simp] theorem State.hostData_lifeLog (s : State) (r : CmdRef) (b : Nat) (bs : List Byte) : (s.hostData r b bs).lifeLog = s.lifeLog := rfl
@[simp] theorem State.hostData_mem (s : State) (r : CmdRef) (b : Nat) (bs : List Byte) : (s.hostData r b bs).mem = s.mem := rfl
@[simp] theorem State.hostData_mig (s : State) (r : CmdRef) (b : Nat) (bs : List Byte) : (s.hostData r b bs).mig = s.mig := rfl
@[simp] theorem State.hostData_ecc (s : State) (r : CmdRef) (b : Nat) (bs : List Byte) : (s.hostData r b bs).ecc = s.ecc := rfl
@[simp] theorem State.hostData_cores (s : State) (r : CmdRef) (b : Nat) (bs : List Byte) : (s.hostData r b bs).cores = s.cores := rfl
@[simp] theorem State.hostData_jobs (s : State) (r : CmdRef) (b : Nat) (bs : List Byte) : (s.hostData r b bs).jobs = s.jobs := rfl
@[simp] theorem State.hostData_seqs (s : State) (r : CmdRef) (b : Nat) (bs : List Byte) : (s.hostData r b bs).seqs = s.seqs := rfl
@[simp] theorem State.hostData_fl (s : State) (r : CmdRef) (b : Nat) (bs : List Byte) : (s.hostData r b bs).fl = s.fl := rfl
@[simp] theorem State.hostData_sf (s : State) (r : CmdRef) (b : Nat) (bs : List Byte) : (s.hostData r b bs).sf = s.sf := rfl
@[simp] theorem State.hostData_wlk (s : State) (r : CmdRef) (b : Nat) (bs : List Byte) : (s.hostData r b bs).wlk = s.wlk := rfl
@[simp] theorem State.hostData_idx (s : State) (r : CmdRef) (b : Nat) (bs : List Byte) : (s.hostData r b bs).idx = s.idx := rfl
@[simp] theorem State.hostData_pwr (s : State) (r : CmdRef) (b : Nat) (bs : List Byte) : (s.hostData r b bs).pwr = s.pwr := rfl
@[simp] theorem State.hostData_phys (s : State) (r : CmdRef) (b : Nat) (bs : List Byte) : (s.hostData r b bs).phys = s.phys := rfl

/-! `hostDataAt` -/
@[simp] theorem State.hostDataAt_pending (s : State) (r : CmdRef) (b o : Nat) (bs : List Byte) : (s.hostDataAt r b o bs).pending = s.pending := rfl
@[simp] theorem State.hostDataAt_time (s : State) (r : CmdRef) (b o : Nat) (bs : List Byte) : (s.hostDataAt r b o bs).time = s.time := rfl
@[simp] theorem State.hostDataAt_freeCtr (s : State) (r : CmdRef) (b o : Nat) (bs : List Byte) : (s.hostDataAt r b o bs).freeCtr = s.freeCtr := rfl
@[simp] theorem State.hostDataAt_wlOut (s : State) (r : CmdRef) (b o : Nat) (bs : List Byte) : (s.hostDataAt r b o bs).wlOut = s.wlOut := rfl
@[simp] theorem State.hostDataAt_gen (s : State) (r : CmdRef) (b o : Nat) (bs : List Byte) : (s.hostDataAt r b o bs).gen = s.gen := rfl
@[simp] theorem State.hostDataAt_q (s : State) (r : CmdRef) (b o : Nat) (bs : List Byte) : (s.hostDataAt r b o bs).q = s.q := rfl
@[simp] theorem State.hostDataAt_msix (s : State) (r : CmdRef) (b o : Nat) (bs : List Byte) : (s.hostDataAt r b o bs).msix = s.msix := rfl
@[simp] theorem State.hostDataAt_pci (s : State) (r : CmdRef) (b o : Nat) (bs : List Byte) : (s.hostDataAt r b o bs).pci = s.pci := rfl
@[simp] theorem State.hostDataAt_evc (s : State) (r : CmdRef) (b o : Nat) (bs : List Byte) : (s.hostDataAt r b o bs).evc = s.evc := rfl
@[simp] theorem State.hostDataAt_sig (s : State) (r : CmdRef) (b o : Nat) (bs : List Byte) : (s.hostDataAt r b o bs).sig = s.sig := rfl
@[simp] theorem State.hostDataAt_flt (s : State) (r : CmdRef) (b o : Nat) (bs : List Byte) : (s.hostDataAt r b o bs).flt = s.flt := rfl
@[simp] theorem State.hostDataAt_life (s : State) (r : CmdRef) (b o : Nat) (bs : List Byte) : (s.hostDataAt r b o bs).life = s.life := rfl
@[simp] theorem State.hostDataAt_lifeLog (s : State) (r : CmdRef) (b o : Nat) (bs : List Byte) : (s.hostDataAt r b o bs).lifeLog = s.lifeLog := rfl
@[simp] theorem State.hostDataAt_mem (s : State) (r : CmdRef) (b o : Nat) (bs : List Byte) : (s.hostDataAt r b o bs).mem = s.mem := rfl
@[simp] theorem State.hostDataAt_mig (s : State) (r : CmdRef) (b o : Nat) (bs : List Byte) : (s.hostDataAt r b o bs).mig = s.mig := rfl
@[simp] theorem State.hostDataAt_ecc (s : State) (r : CmdRef) (b o : Nat) (bs : List Byte) : (s.hostDataAt r b o bs).ecc = s.ecc := rfl
@[simp] theorem State.hostDataAt_cores (s : State) (r : CmdRef) (b o : Nat) (bs : List Byte) : (s.hostDataAt r b o bs).cores = s.cores := rfl
@[simp] theorem State.hostDataAt_jobs (s : State) (r : CmdRef) (b o : Nat) (bs : List Byte) : (s.hostDataAt r b o bs).jobs = s.jobs := rfl
@[simp] theorem State.hostDataAt_seqs (s : State) (r : CmdRef) (b o : Nat) (bs : List Byte) : (s.hostDataAt r b o bs).seqs = s.seqs := rfl
@[simp] theorem State.hostDataAt_fl (s : State) (r : CmdRef) (b o : Nat) (bs : List Byte) : (s.hostDataAt r b o bs).fl = s.fl := rfl
@[simp] theorem State.hostDataAt_sf (s : State) (r : CmdRef) (b o : Nat) (bs : List Byte) : (s.hostDataAt r b o bs).sf = s.sf := rfl
@[simp] theorem State.hostDataAt_wlk (s : State) (r : CmdRef) (b o : Nat) (bs : List Byte) : (s.hostDataAt r b o bs).wlk = s.wlk := rfl
@[simp] theorem State.hostDataAt_idx (s : State) (r : CmdRef) (b o : Nat) (bs : List Byte) : (s.hostDataAt r b o bs).idx = s.idx := rfl
@[simp] theorem State.hostDataAt_pwr (s : State) (r : CmdRef) (b o : Nat) (bs : List Byte) : (s.hostDataAt r b o bs).pwr = s.pwr := rfl
@[simp] theorem State.hostDataAt_phys (s : State) (r : CmdRef) (b o : Nat) (bs : List Byte) : (s.hostDataAt r b o bs).phys = s.phys := rfl

/-! `setPort` -/
@[simp] theorem State.setPort_pending (s : State) (p : Nat) (f : Port → Port) : (s.setPort p f).pending = s.pending := rfl
@[simp] theorem State.setPort_time (s : State) (p : Nat) (f : Port → Port) : (s.setPort p f).time = s.time := rfl
@[simp] theorem State.setPort_freeCtr (s : State) (p : Nat) (f : Port → Port) : (s.setPort p f).freeCtr = s.freeCtr := rfl
@[simp] theorem State.setPort_hostOut (s : State) (p : Nat) (f : Port → Port) : (s.setPort p f).hostOut = s.hostOut := rfl
@[simp] theorem State.setPort_wlOut (s : State) (p : Nat) (f : Port → Port) : (s.setPort p f).wlOut = s.wlOut := rfl
@[simp] theorem State.setPort_gen (s : State) (p : Nat) (f : Port → Port) : (s.setPort p f).gen = s.gen := rfl
@[simp] theorem State.setPort_q (s : State) (p : Nat) (f : Port → Port) : (s.setPort p f).q = s.q := rfl
@[simp] theorem State.setPort_msix (s : State) (p : Nat) (f : Port → Port) : (s.setPort p f).msix = s.msix := rfl
@[simp] theorem State.setPort_pci (s : State) (p : Nat) (f : Port → Port) : (s.setPort p f).pci = s.pci := rfl
@[simp] theorem State.setPort_evc (s : State) (p : Nat) (f : Port → Port) : (s.setPort p f).evc = s.evc := rfl
@[simp] theorem State.setPort_sig (s : State) (p : Nat) (f : Port → Port) : (s.setPort p f).sig = s.sig := rfl
@[simp] theorem State.setPort_flt (s : State) (p : Nat) (f : Port → Port) : (s.setPort p f).flt = s.flt := rfl
@[simp] theorem State.setPort_life (s : State) (p : Nat) (f : Port → Port) : (s.setPort p f).life = s.life := rfl
@[simp] theorem State.setPort_lifeLog (s : State) (p : Nat) (f : Port → Port) : (s.setPort p f).lifeLog = s.lifeLog := rfl
@[simp] theorem State.setPort_mem (s : State) (p : Nat) (f : Port → Port) : (s.setPort p f).mem = s.mem := rfl
@[simp] theorem State.setPort_mig (s : State) (p : Nat) (f : Port → Port) : (s.setPort p f).mig = s.mig := rfl
@[simp] theorem State.setPort_ecc (s : State) (p : Nat) (f : Port → Port) : (s.setPort p f).ecc = s.ecc := rfl
@[simp] theorem State.setPort_cores (s : State) (p : Nat) (f : Port → Port) : (s.setPort p f).cores = s.cores := rfl
@[simp] theorem State.setPort_jobs (s : State) (p : Nat) (f : Port → Port) : (s.setPort p f).jobs = s.jobs := rfl
@[simp] theorem State.setPort_seqs (s : State) (p : Nat) (f : Port → Port) : (s.setPort p f).seqs = s.seqs := rfl
@[simp] theorem State.setPort_fl (s : State) (p : Nat) (f : Port → Port) : (s.setPort p f).fl = s.fl := rfl
@[simp] theorem State.setPort_sf (s : State) (p : Nat) (f : Port → Port) : (s.setPort p f).sf = s.sf := rfl
@[simp] theorem State.setPort_idx (s : State) (p : Nat) (f : Port → Port) : (s.setPort p f).idx = s.idx := rfl
@[simp] theorem State.setPort_pwr (s : State) (p : Nat) (f : Port → Port) : (s.setPort p f).pwr = s.pwr := rfl
@[simp] theorem State.setPort_phys (s : State) (p : Nat) (f : Port → Port) : (s.setPort p f).phys = s.phys := rfl

/-! `putFlit` -/
@[simp] theorem State.putFlit_pending (s : State) (p : Nat) (f : Flit) : (s.putFlit p f).pending = s.pending := rfl
@[simp] theorem State.putFlit_time (s : State) (p : Nat) (f : Flit) : (s.putFlit p f).time = s.time := rfl
@[simp] theorem State.putFlit_freeCtr (s : State) (p : Nat) (f : Flit) : (s.putFlit p f).freeCtr = s.freeCtr := rfl
@[simp] theorem State.putFlit_hostOut (s : State) (p : Nat) (f : Flit) : (s.putFlit p f).hostOut = s.hostOut := rfl
@[simp] theorem State.putFlit_gen (s : State) (p : Nat) (f : Flit) : (s.putFlit p f).gen = s.gen := rfl
@[simp] theorem State.putFlit_q (s : State) (p : Nat) (f : Flit) : (s.putFlit p f).q = s.q := rfl
@[simp] theorem State.putFlit_msix (s : State) (p : Nat) (f : Flit) : (s.putFlit p f).msix = s.msix := rfl
@[simp] theorem State.putFlit_pci (s : State) (p : Nat) (f : Flit) : (s.putFlit p f).pci = s.pci := rfl
@[simp] theorem State.putFlit_evc (s : State) (p : Nat) (f : Flit) : (s.putFlit p f).evc = s.evc := rfl
@[simp] theorem State.putFlit_sig (s : State) (p : Nat) (f : Flit) : (s.putFlit p f).sig = s.sig := rfl
@[simp] theorem State.putFlit_flt (s : State) (p : Nat) (f : Flit) : (s.putFlit p f).flt = s.flt := rfl
@[simp] theorem State.putFlit_life (s : State) (p : Nat) (f : Flit) : (s.putFlit p f).life = s.life := rfl
@[simp] theorem State.putFlit_lifeLog (s : State) (p : Nat) (f : Flit) : (s.putFlit p f).lifeLog = s.lifeLog := rfl
@[simp] theorem State.putFlit_mem (s : State) (p : Nat) (f : Flit) : (s.putFlit p f).mem = s.mem := rfl
@[simp] theorem State.putFlit_mig (s : State) (p : Nat) (f : Flit) : (s.putFlit p f).mig = s.mig := rfl
@[simp] theorem State.putFlit_ecc (s : State) (p : Nat) (f : Flit) : (s.putFlit p f).ecc = s.ecc := rfl
@[simp] theorem State.putFlit_cores (s : State) (p : Nat) (f : Flit) : (s.putFlit p f).cores = s.cores := rfl
@[simp] theorem State.putFlit_jobs (s : State) (p : Nat) (f : Flit) : (s.putFlit p f).jobs = s.jobs := rfl
@[simp] theorem State.putFlit_seqs (s : State) (p : Nat) (f : Flit) : (s.putFlit p f).seqs = s.seqs := rfl
@[simp] theorem State.putFlit_fl (s : State) (p : Nat) (f : Flit) : (s.putFlit p f).fl = s.fl := rfl
@[simp] theorem State.putFlit_sf (s : State) (p : Nat) (f : Flit) : (s.putFlit p f).sf = s.sf := rfl
@[simp] theorem State.putFlit_idx (s : State) (p : Nat) (f : Flit) : (s.putFlit p f).idx = s.idx := rfl
@[simp] theorem State.putFlit_pwr (s : State) (p : Nat) (f : Flit) : (s.putFlit p f).pwr = s.pwr := rfl
@[simp] theorem State.putFlit_phys (s : State) (p : Nat) (f : Flit) : (s.putFlit p f).phys = s.phys := rfl

/-! `owe` -/
@[simp] theorem State.owe_pending (s : State) (p : Nat) (m : Msg) : (s.owe p m).pending = s.pending := rfl
@[simp] theorem State.owe_time (s : State) (p : Nat) (m : Msg) : (s.owe p m).time = s.time := rfl
@[simp] theorem State.owe_freeCtr (s : State) (p : Nat) (m : Msg) : (s.owe p m).freeCtr = s.freeCtr := rfl
@[simp] theorem State.owe_hostOut (s : State) (p : Nat) (m : Msg) : (s.owe p m).hostOut = s.hostOut := rfl
@[simp] theorem State.owe_gen (s : State) (p : Nat) (m : Msg) : (s.owe p m).gen = s.gen := rfl
@[simp] theorem State.owe_q (s : State) (p : Nat) (m : Msg) : (s.owe p m).q = s.q := rfl
@[simp] theorem State.owe_msix (s : State) (p : Nat) (m : Msg) : (s.owe p m).msix = s.msix := rfl
@[simp] theorem State.owe_pci (s : State) (p : Nat) (m : Msg) : (s.owe p m).pci = s.pci := rfl
@[simp] theorem State.owe_evc (s : State) (p : Nat) (m : Msg) : (s.owe p m).evc = s.evc := rfl
@[simp] theorem State.owe_sig (s : State) (p : Nat) (m : Msg) : (s.owe p m).sig = s.sig := rfl
@[simp] theorem State.owe_flt (s : State) (p : Nat) (m : Msg) : (s.owe p m).flt = s.flt := rfl
@[simp] theorem State.owe_life (s : State) (p : Nat) (m : Msg) : (s.owe p m).life = s.life := rfl
@[simp] theorem State.owe_lifeLog (s : State) (p : Nat) (m : Msg) : (s.owe p m).lifeLog = s.lifeLog := rfl
@[simp] theorem State.owe_mem (s : State) (p : Nat) (m : Msg) : (s.owe p m).mem = s.mem := rfl
@[simp] theorem State.owe_mig (s : State) (p : Nat) (m : Msg) : (s.owe p m).mig = s.mig := rfl
@[simp] theorem State.owe_ecc (s : State) (p : Nat) (m : Msg) : (s.owe p m).ecc = s.ecc := rfl
@[simp] theorem State.owe_cores (s : State) (p : Nat) (m : Msg) : (s.owe p m).cores = s.cores := rfl
@[simp] theorem State.owe_jobs (s : State) (p : Nat) (m : Msg) : (s.owe p m).jobs = s.jobs := rfl
@[simp] theorem State.owe_seqs (s : State) (p : Nat) (m : Msg) : (s.owe p m).seqs = s.seqs := rfl
@[simp] theorem State.owe_fl (s : State) (p : Nat) (m : Msg) : (s.owe p m).fl = s.fl := rfl
@[simp] theorem State.owe_sf (s : State) (p : Nat) (m : Msg) : (s.owe p m).sf = s.sf := rfl
@[simp] theorem State.owe_idx (s : State) (p : Nat) (m : Msg) : (s.owe p m).idx = s.idx := rfl
@[simp] theorem State.owe_pwr (s : State) (p : Nat) (m : Msg) : (s.owe p m).pwr = s.pwr := rfl
@[simp] theorem State.owe_phys (s : State) (p : Nat) (m : Msg) : (s.owe p m).phys = s.phys := rfl
@[simp] theorem State.owe_wlOut (s : State) (p : Nat) (m : Msg) : (s.owe p m).wlOut = s.wlOut := rfl

/-! `sendFlit` -/
@[simp] theorem State.sendFlit_pending (s : State) (p : Nat) (x : Option Nat × Sending) : (s.sendFlit p x).pending = s.pending := by
  rcases x with ⟨_ | _, _⟩ <;> rfl
@[simp] theorem State.sendFlit_time (s : State) (p : Nat) (x : Option Nat × Sending) : (s.sendFlit p x).time = s.time := by
  rcases x with ⟨_ | _, _⟩ <;> rfl
@[simp] theorem State.sendFlit_freeCtr (s : State) (p : Nat) (x : Option Nat × Sending) : (s.sendFlit p x).freeCtr = s.freeCtr := by
  rcases x with ⟨_ | _, _⟩ <;> rfl
@[simp] theorem State.sendFlit_hostOut (s : State) (p : Nat) (x : Option Nat × Sending) : (s.sendFlit p x).hostOut = s.hostOut := by
  rcases x with ⟨_ | _, _⟩ <;> rfl
@[simp] theorem State.sendFlit_gen (s : State) (p : Nat) (x : Option Nat × Sending) : (s.sendFlit p x).gen = s.gen := by
  rcases x with ⟨_ | _, _⟩ <;> rfl
@[simp] theorem State.sendFlit_q (s : State) (p : Nat) (x : Option Nat × Sending) : (s.sendFlit p x).q = s.q := by
  rcases x with ⟨_ | _, _⟩ <;> rfl
@[simp] theorem State.sendFlit_msix (s : State) (p : Nat) (x : Option Nat × Sending) : (s.sendFlit p x).msix = s.msix := by
  rcases x with ⟨_ | _, _⟩ <;> rfl
@[simp] theorem State.sendFlit_pci (s : State) (p : Nat) (x : Option Nat × Sending) : (s.sendFlit p x).pci = s.pci := by
  rcases x with ⟨_ | _, _⟩ <;> rfl
@[simp] theorem State.sendFlit_evc (s : State) (p : Nat) (x : Option Nat × Sending) : (s.sendFlit p x).evc = s.evc := by
  rcases x with ⟨_ | _, _⟩ <;> rfl
@[simp] theorem State.sendFlit_sig (s : State) (p : Nat) (x : Option Nat × Sending) : (s.sendFlit p x).sig = s.sig := by
  rcases x with ⟨_ | _, _⟩ <;> rfl
@[simp] theorem State.sendFlit_flt (s : State) (p : Nat) (x : Option Nat × Sending) : (s.sendFlit p x).flt = s.flt := by
  rcases x with ⟨_ | _, _⟩ <;> rfl
@[simp] theorem State.sendFlit_life (s : State) (p : Nat) (x : Option Nat × Sending) : (s.sendFlit p x).life = s.life := by
  rcases x with ⟨_ | _, _⟩ <;> rfl
@[simp] theorem State.sendFlit_lifeLog (s : State) (p : Nat) (x : Option Nat × Sending) : (s.sendFlit p x).lifeLog = s.lifeLog := by
  rcases x with ⟨_ | _, _⟩ <;> rfl
@[simp] theorem State.sendFlit_mem (s : State) (p : Nat) (x : Option Nat × Sending) : (s.sendFlit p x).mem = s.mem := by
  rcases x with ⟨_ | _, _⟩ <;> rfl
@[simp] theorem State.sendFlit_mig (s : State) (p : Nat) (x : Option Nat × Sending) : (s.sendFlit p x).mig = s.mig := by
  rcases x with ⟨_ | _, _⟩ <;> rfl
@[simp] theorem State.sendFlit_ecc (s : State) (p : Nat) (x : Option Nat × Sending) : (s.sendFlit p x).ecc = s.ecc := by
  rcases x with ⟨_ | _, _⟩ <;> rfl
@[simp] theorem State.sendFlit_cores (s : State) (p : Nat) (x : Option Nat × Sending) : (s.sendFlit p x).cores = s.cores := by
  rcases x with ⟨_ | _, _⟩ <;> rfl
@[simp] theorem State.sendFlit_jobs (s : State) (p : Nat) (x : Option Nat × Sending) : (s.sendFlit p x).jobs = s.jobs := by
  rcases x with ⟨_ | _, _⟩ <;> rfl
@[simp] theorem State.sendFlit_seqs (s : State) (p : Nat) (x : Option Nat × Sending) : (s.sendFlit p x).seqs = s.seqs := by
  rcases x with ⟨_ | _, _⟩ <;> rfl
@[simp] theorem State.sendFlit_fl (s : State) (p : Nat) (x : Option Nat × Sending) : (s.sendFlit p x).fl = s.fl := by
  rcases x with ⟨_ | _, _⟩ <;> rfl
@[simp] theorem State.sendFlit_sf (s : State) (p : Nat) (x : Option Nat × Sending) : (s.sendFlit p x).sf = s.sf := by
  rcases x with ⟨_ | _, _⟩ <;> rfl
@[simp] theorem State.sendFlit_idx (s : State) (p : Nat) (x : Option Nat × Sending) : (s.sendFlit p x).idx = s.idx := by
  rcases x with ⟨_ | _, _⟩ <;> rfl
@[simp] theorem State.sendFlit_phys (s : State) (p : Nat) (x : Option Nat × Sending) : (s.sendFlit p x).phys = s.phys := by
  rcases x with ⟨_ | _, _⟩ <;> rfl

/-! `sendIdle` -/
@[simp] theorem State.sendIdle_pending (s : State) (p : Nat) : (s.sendIdle p).pending = s.pending := rfl
@[simp] theorem State.sendIdle_time (s : State) (p : Nat) : (s.sendIdle p).time = s.time := rfl
@[simp] theorem State.sendIdle_freeCtr (s : State) (p : Nat) : (s.sendIdle p).freeCtr = s.freeCtr := rfl
@[simp] theorem State.sendIdle_hostOut (s : State) (p : Nat) : (s.sendIdle p).hostOut = s.hostOut := rfl
@[simp] theorem State.sendIdle_gen (s : State) (p : Nat) : (s.sendIdle p).gen = s.gen := rfl
@[simp] theorem State.sendIdle_q (s : State) (p : Nat) : (s.sendIdle p).q = s.q := rfl
@[simp] theorem State.sendIdle_msix (s : State) (p : Nat) : (s.sendIdle p).msix = s.msix := rfl
@[simp] theorem State.sendIdle_pci (s : State) (p : Nat) : (s.sendIdle p).pci = s.pci := rfl
@[simp] theorem State.sendIdle_evc (s : State) (p : Nat) : (s.sendIdle p).evc = s.evc := rfl
@[simp] theorem State.sendIdle_sig (s : State) (p : Nat) : (s.sendIdle p).sig = s.sig := rfl
@[simp] theorem State.sendIdle_flt (s : State) (p : Nat) : (s.sendIdle p).flt = s.flt := rfl
@[simp] theorem State.sendIdle_life (s : State) (p : Nat) : (s.sendIdle p).life = s.life := rfl
@[simp] theorem State.sendIdle_lifeLog (s : State) (p : Nat) : (s.sendIdle p).lifeLog = s.lifeLog := rfl
@[simp] theorem State.sendIdle_mem (s : State) (p : Nat) : (s.sendIdle p).mem = s.mem := rfl
@[simp] theorem State.sendIdle_mig (s : State) (p : Nat) : (s.sendIdle p).mig = s.mig := rfl
@[simp] theorem State.sendIdle_ecc (s : State) (p : Nat) : (s.sendIdle p).ecc = s.ecc := rfl
@[simp] theorem State.sendIdle_cores (s : State) (p : Nat) : (s.sendIdle p).cores = s.cores := rfl
@[simp] theorem State.sendIdle_jobs (s : State) (p : Nat) : (s.sendIdle p).jobs = s.jobs := rfl
@[simp] theorem State.sendIdle_seqs (s : State) (p : Nat) : (s.sendIdle p).seqs = s.seqs := rfl
@[simp] theorem State.sendIdle_fl (s : State) (p : Nat) : (s.sendIdle p).fl = s.fl := rfl
@[simp] theorem State.sendIdle_sf (s : State) (p : Nat) : (s.sendIdle p).sf = s.sf := rfl
@[simp] theorem State.sendIdle_idx (s : State) (p : Nat) : (s.sendIdle p).idx = s.idx := rfl
@[simp] theorem State.sendIdle_pwr (s : State) (p : Nat) : (s.sendIdle p).pwr = s.pwr := rfl
@[simp] theorem State.sendIdle_phys (s : State) (p : Nat) : (s.sendIdle p).phys = s.phys := rfl

/-! `setEntry` -/
@[simp] theorem State.setEntry_pending (s : State) (e : Nat) (f : SeqEntry → SeqEntry) : (s.setEntry e f).pending = s.pending := rfl
@[simp] theorem State.setEntry_time (s : State) (e : Nat) (f : SeqEntry → SeqEntry) : (s.setEntry e f).time = s.time := rfl
@[simp] theorem State.setEntry_freeCtr (s : State) (e : Nat) (f : SeqEntry → SeqEntry) : (s.setEntry e f).freeCtr = s.freeCtr := rfl
@[simp] theorem State.setEntry_hostOut (s : State) (e : Nat) (f : SeqEntry → SeqEntry) : (s.setEntry e f).hostOut = s.hostOut := rfl
@[simp] theorem State.setEntry_wlOut (s : State) (e : Nat) (f : SeqEntry → SeqEntry) : (s.setEntry e f).wlOut = s.wlOut := rfl
@[simp] theorem State.setEntry_gen (s : State) (e : Nat) (f : SeqEntry → SeqEntry) : (s.setEntry e f).gen = s.gen := rfl
@[simp] theorem State.setEntry_q (s : State) (e : Nat) (f : SeqEntry → SeqEntry) : (s.setEntry e f).q = s.q := rfl
@[simp] theorem State.setEntry_msix (s : State) (e : Nat) (f : SeqEntry → SeqEntry) : (s.setEntry e f).msix = s.msix := rfl
@[simp] theorem State.setEntry_pci (s : State) (e : Nat) (f : SeqEntry → SeqEntry) : (s.setEntry e f).pci = s.pci := rfl
@[simp] theorem State.setEntry_evc (s : State) (e : Nat) (f : SeqEntry → SeqEntry) : (s.setEntry e f).evc = s.evc := rfl
@[simp] theorem State.setEntry_sig (s : State) (e : Nat) (f : SeqEntry → SeqEntry) : (s.setEntry e f).sig = s.sig := rfl
@[simp] theorem State.setEntry_flt (s : State) (e : Nat) (f : SeqEntry → SeqEntry) : (s.setEntry e f).flt = s.flt := rfl
@[simp] theorem State.setEntry_life (s : State) (e : Nat) (f : SeqEntry → SeqEntry) : (s.setEntry e f).life = s.life := rfl
@[simp] theorem State.setEntry_lifeLog (s : State) (e : Nat) (f : SeqEntry → SeqEntry) : (s.setEntry e f).lifeLog = s.lifeLog := rfl
@[simp] theorem State.setEntry_mem (s : State) (e : Nat) (f : SeqEntry → SeqEntry) : (s.setEntry e f).mem = s.mem := rfl
@[simp] theorem State.setEntry_mig (s : State) (e : Nat) (f : SeqEntry → SeqEntry) : (s.setEntry e f).mig = s.mig := rfl
@[simp] theorem State.setEntry_ecc (s : State) (e : Nat) (f : SeqEntry → SeqEntry) : (s.setEntry e f).ecc = s.ecc := rfl
@[simp] theorem State.setEntry_cores (s : State) (e : Nat) (f : SeqEntry → SeqEntry) : (s.setEntry e f).cores = s.cores := rfl
@[simp] theorem State.setEntry_jobs (s : State) (e : Nat) (f : SeqEntry → SeqEntry) : (s.setEntry e f).jobs = s.jobs := rfl
@[simp] theorem State.setEntry_fl (s : State) (e : Nat) (f : SeqEntry → SeqEntry) : (s.setEntry e f).fl = s.fl := rfl
@[simp] theorem State.setEntry_sf (s : State) (e : Nat) (f : SeqEntry → SeqEntry) : (s.setEntry e f).sf = s.sf := rfl
@[simp] theorem State.setEntry_wlk (s : State) (e : Nat) (f : SeqEntry → SeqEntry) : (s.setEntry e f).wlk = s.wlk := rfl
@[simp] theorem State.setEntry_idx (s : State) (e : Nat) (f : SeqEntry → SeqEntry) : (s.setEntry e f).idx = s.idx := rfl
@[simp] theorem State.setEntry_pwr (s : State) (e : Nat) (f : SeqEntry → SeqEntry) : (s.setEntry e f).pwr = s.pwr := rfl
@[simp] theorem State.setEntry_phys (s : State) (e : Nat) (f : SeqEntry → SeqEntry) : (s.setEntry e f).phys = s.phys := rfl

/-! `putEntry` -/
@[simp] theorem State.putEntry_pending (s : State) (e : Nat) (x : SeqEntry) : (s.putEntry e x).pending = s.pending := rfl
@[simp] theorem State.putEntry_time (s : State) (e : Nat) (x : SeqEntry) : (s.putEntry e x).time = s.time := rfl
@[simp] theorem State.putEntry_freeCtr (s : State) (e : Nat) (x : SeqEntry) : (s.putEntry e x).freeCtr = s.freeCtr := rfl
@[simp] theorem State.putEntry_hostOut (s : State) (e : Nat) (x : SeqEntry) : (s.putEntry e x).hostOut = s.hostOut := rfl
@[simp] theorem State.putEntry_wlOut (s : State) (e : Nat) (x : SeqEntry) : (s.putEntry e x).wlOut = s.wlOut := rfl
@[simp] theorem State.putEntry_gen (s : State) (e : Nat) (x : SeqEntry) : (s.putEntry e x).gen = s.gen := rfl
@[simp] theorem State.putEntry_q (s : State) (e : Nat) (x : SeqEntry) : (s.putEntry e x).q = s.q := rfl
@[simp] theorem State.putEntry_msix (s : State) (e : Nat) (x : SeqEntry) : (s.putEntry e x).msix = s.msix := rfl
@[simp] theorem State.putEntry_pci (s : State) (e : Nat) (x : SeqEntry) : (s.putEntry e x).pci = s.pci := rfl
@[simp] theorem State.putEntry_evc (s : State) (e : Nat) (x : SeqEntry) : (s.putEntry e x).evc = s.evc := rfl
@[simp] theorem State.putEntry_sig (s : State) (e : Nat) (x : SeqEntry) : (s.putEntry e x).sig = s.sig := rfl
@[simp] theorem State.putEntry_flt (s : State) (e : Nat) (x : SeqEntry) : (s.putEntry e x).flt = s.flt := rfl
@[simp] theorem State.putEntry_life (s : State) (e : Nat) (x : SeqEntry) : (s.putEntry e x).life = s.life := rfl
@[simp] theorem State.putEntry_lifeLog (s : State) (e : Nat) (x : SeqEntry) : (s.putEntry e x).lifeLog = s.lifeLog := rfl
@[simp] theorem State.putEntry_mem (s : State) (e : Nat) (x : SeqEntry) : (s.putEntry e x).mem = s.mem := rfl
@[simp] theorem State.putEntry_mig (s : State) (e : Nat) (x : SeqEntry) : (s.putEntry e x).mig = s.mig := rfl
@[simp] theorem State.putEntry_ecc (s : State) (e : Nat) (x : SeqEntry) : (s.putEntry e x).ecc = s.ecc := rfl
@[simp] theorem State.putEntry_cores (s : State) (e : Nat) (x : SeqEntry) : (s.putEntry e x).cores = s.cores := rfl
@[simp] theorem State.putEntry_jobs (s : State) (e : Nat) (x : SeqEntry) : (s.putEntry e x).jobs = s.jobs := rfl
@[simp] theorem State.putEntry_fl (s : State) (e : Nat) (x : SeqEntry) : (s.putEntry e x).fl = s.fl := rfl
@[simp] theorem State.putEntry_sf (s : State) (e : Nat) (x : SeqEntry) : (s.putEntry e x).sf = s.sf := rfl
@[simp] theorem State.putEntry_wlk (s : State) (e : Nat) (x : SeqEntry) : (s.putEntry e x).wlk = s.wlk := rfl
@[simp] theorem State.putEntry_idx (s : State) (e : Nat) (x : SeqEntry) : (s.putEntry e x).idx = s.idx := rfl
@[simp] theorem State.putEntry_pwr (s : State) (e : Nat) (x : SeqEntry) : (s.putEntry e x).pwr = s.pwr := rfl
@[simp] theorem State.putEntry_phys (s : State) (e : Nat) (x : SeqEntry) : (s.putEntry e x).phys = s.phys := rfl

/-! `dropEntry` -/
@[simp] theorem State.dropEntry_pending (s : State) (e : Nat) : (s.dropEntry e).pending = s.pending := rfl
@[simp] theorem State.dropEntry_time (s : State) (e : Nat) : (s.dropEntry e).time = s.time := rfl
@[simp] theorem State.dropEntry_freeCtr (s : State) (e : Nat) : (s.dropEntry e).freeCtr = s.freeCtr := rfl
@[simp] theorem State.dropEntry_hostOut (s : State) (e : Nat) : (s.dropEntry e).hostOut = s.hostOut := rfl
@[simp] theorem State.dropEntry_wlOut (s : State) (e : Nat) : (s.dropEntry e).wlOut = s.wlOut := rfl
@[simp] theorem State.dropEntry_gen (s : State) (e : Nat) : (s.dropEntry e).gen = s.gen := rfl
@[simp] theorem State.dropEntry_q (s : State) (e : Nat) : (s.dropEntry e).q = s.q := rfl
@[simp] theorem State.dropEntry_msix (s : State) (e : Nat) : (s.dropEntry e).msix = s.msix := rfl
@[simp] theorem State.dropEntry_pci (s : State) (e : Nat) : (s.dropEntry e).pci = s.pci := rfl
@[simp] theorem State.dropEntry_evc (s : State) (e : Nat) : (s.dropEntry e).evc = s.evc := rfl
@[simp] theorem State.dropEntry_sig (s : State) (e : Nat) : (s.dropEntry e).sig = s.sig := rfl
@[simp] theorem State.dropEntry_flt (s : State) (e : Nat) : (s.dropEntry e).flt = s.flt := rfl
@[simp] theorem State.dropEntry_life (s : State) (e : Nat) : (s.dropEntry e).life = s.life := rfl
@[simp] theorem State.dropEntry_lifeLog (s : State) (e : Nat) : (s.dropEntry e).lifeLog = s.lifeLog := rfl
@[simp] theorem State.dropEntry_mem (s : State) (e : Nat) : (s.dropEntry e).mem = s.mem := rfl
@[simp] theorem State.dropEntry_mig (s : State) (e : Nat) : (s.dropEntry e).mig = s.mig := rfl
@[simp] theorem State.dropEntry_ecc (s : State) (e : Nat) : (s.dropEntry e).ecc = s.ecc := rfl
@[simp] theorem State.dropEntry_cores (s : State) (e : Nat) : (s.dropEntry e).cores = s.cores := rfl
@[simp] theorem State.dropEntry_jobs (s : State) (e : Nat) : (s.dropEntry e).jobs = s.jobs := rfl
@[simp] theorem State.dropEntry_fl (s : State) (e : Nat) : (s.dropEntry e).fl = s.fl := rfl
@[simp] theorem State.dropEntry_sf (s : State) (e : Nat) : (s.dropEntry e).sf = s.sf := rfl
@[simp] theorem State.dropEntry_wlk (s : State) (e : Nat) : (s.dropEntry e).wlk = s.wlk := rfl
@[simp] theorem State.dropEntry_idx (s : State) (e : Nat) : (s.dropEntry e).idx = s.idx := rfl
@[simp] theorem State.dropEntry_pwr (s : State) (e : Nat) : (s.dropEntry e).pwr = s.pwr := rfl
@[simp] theorem State.dropEntry_phys (s : State) (e : Nat) : (s.dropEntry e).phys = s.phys := rfl

/-! `setIndex` -/
@[simp] theorem State.setIndex_pending (s : State) (n : Nat) (f : Index → Index) : (s.setIndex n f).pending = s.pending := rfl
@[simp] theorem State.setIndex_time (s : State) (n : Nat) (f : Index → Index) : (s.setIndex n f).time = s.time := rfl
@[simp] theorem State.setIndex_freeCtr (s : State) (n : Nat) (f : Index → Index) : (s.setIndex n f).freeCtr = s.freeCtr := rfl
@[simp] theorem State.setIndex_hostOut (s : State) (n : Nat) (f : Index → Index) : (s.setIndex n f).hostOut = s.hostOut := rfl
@[simp] theorem State.setIndex_wlOut (s : State) (n : Nat) (f : Index → Index) : (s.setIndex n f).wlOut = s.wlOut := rfl
@[simp] theorem State.setIndex_gen (s : State) (n : Nat) (f : Index → Index) : (s.setIndex n f).gen = s.gen := rfl
@[simp] theorem State.setIndex_q (s : State) (n : Nat) (f : Index → Index) : (s.setIndex n f).q = s.q := rfl
@[simp] theorem State.setIndex_msix (s : State) (n : Nat) (f : Index → Index) : (s.setIndex n f).msix = s.msix := rfl
@[simp] theorem State.setIndex_pci (s : State) (n : Nat) (f : Index → Index) : (s.setIndex n f).pci = s.pci := rfl
@[simp] theorem State.setIndex_evc (s : State) (n : Nat) (f : Index → Index) : (s.setIndex n f).evc = s.evc := rfl
@[simp] theorem State.setIndex_sig (s : State) (n : Nat) (f : Index → Index) : (s.setIndex n f).sig = s.sig := rfl
@[simp] theorem State.setIndex_flt (s : State) (n : Nat) (f : Index → Index) : (s.setIndex n f).flt = s.flt := rfl
@[simp] theorem State.setIndex_life (s : State) (n : Nat) (f : Index → Index) : (s.setIndex n f).life = s.life := rfl
@[simp] theorem State.setIndex_lifeLog (s : State) (n : Nat) (f : Index → Index) : (s.setIndex n f).lifeLog = s.lifeLog := rfl
@[simp] theorem State.setIndex_mem (s : State) (n : Nat) (f : Index → Index) : (s.setIndex n f).mem = s.mem := rfl
@[simp] theorem State.setIndex_mig (s : State) (n : Nat) (f : Index → Index) : (s.setIndex n f).mig = s.mig := rfl
@[simp] theorem State.setIndex_ecc (s : State) (n : Nat) (f : Index → Index) : (s.setIndex n f).ecc = s.ecc := rfl
@[simp] theorem State.setIndex_cores (s : State) (n : Nat) (f : Index → Index) : (s.setIndex n f).cores = s.cores := rfl
@[simp] theorem State.setIndex_jobs (s : State) (n : Nat) (f : Index → Index) : (s.setIndex n f).jobs = s.jobs := rfl
@[simp] theorem State.setIndex_seqs (s : State) (n : Nat) (f : Index → Index) : (s.setIndex n f).seqs = s.seqs := rfl
@[simp] theorem State.setIndex_fl (s : State) (n : Nat) (f : Index → Index) : (s.setIndex n f).fl = s.fl := rfl
@[simp] theorem State.setIndex_sf (s : State) (n : Nat) (f : Index → Index) : (s.setIndex n f).sf = s.sf := rfl
@[simp] theorem State.setIndex_wlk (s : State) (n : Nat) (f : Index → Index) : (s.setIndex n f).wlk = s.wlk := rfl
@[simp] theorem State.setIndex_pwr (s : State) (n : Nat) (f : Index → Index) : (s.setIndex n f).pwr = s.pwr := rfl
@[simp] theorem State.setIndex_phys (s : State) (n : Nat) (f : Index → Index) : (s.setIndex n f).phys = s.phys := rfl

/-! `setZone` -/
@[simp] theorem State.setZone_pending (s : State) (z : Nat) (f : Zone → Zone) : (s.setZone z f).pending = s.pending := rfl
@[simp] theorem State.setZone_time (s : State) (z : Nat) (f : Zone → Zone) : (s.setZone z f).time = s.time := rfl
@[simp] theorem State.setZone_freeCtr (s : State) (z : Nat) (f : Zone → Zone) : (s.setZone z f).freeCtr = s.freeCtr := rfl
@[simp] theorem State.setZone_hostOut (s : State) (z : Nat) (f : Zone → Zone) : (s.setZone z f).hostOut = s.hostOut := rfl
@[simp] theorem State.setZone_wlOut (s : State) (z : Nat) (f : Zone → Zone) : (s.setZone z f).wlOut = s.wlOut := rfl
@[simp] theorem State.setZone_gen (s : State) (z : Nat) (f : Zone → Zone) : (s.setZone z f).gen = s.gen := rfl
@[simp] theorem State.setZone_q (s : State) (z : Nat) (f : Zone → Zone) : (s.setZone z f).q = s.q := rfl
@[simp] theorem State.setZone_msix (s : State) (z : Nat) (f : Zone → Zone) : (s.setZone z f).msix = s.msix := rfl
@[simp] theorem State.setZone_pci (s : State) (z : Nat) (f : Zone → Zone) : (s.setZone z f).pci = s.pci := rfl
@[simp] theorem State.setZone_evc (s : State) (z : Nat) (f : Zone → Zone) : (s.setZone z f).evc = s.evc := rfl
@[simp] theorem State.setZone_sig (s : State) (z : Nat) (f : Zone → Zone) : (s.setZone z f).sig = s.sig := rfl
@[simp] theorem State.setZone_flt (s : State) (z : Nat) (f : Zone → Zone) : (s.setZone z f).flt = s.flt := rfl
@[simp] theorem State.setZone_life (s : State) (z : Nat) (f : Zone → Zone) : (s.setZone z f).life = s.life := rfl
@[simp] theorem State.setZone_lifeLog (s : State) (z : Nat) (f : Zone → Zone) : (s.setZone z f).lifeLog = s.lifeLog := rfl
@[simp] theorem State.setZone_mem (s : State) (z : Nat) (f : Zone → Zone) : (s.setZone z f).mem = s.mem := rfl
@[simp] theorem State.setZone_mig (s : State) (z : Nat) (f : Zone → Zone) : (s.setZone z f).mig = s.mig := rfl
@[simp] theorem State.setZone_ecc (s : State) (z : Nat) (f : Zone → Zone) : (s.setZone z f).ecc = s.ecc := rfl
@[simp] theorem State.setZone_cores (s : State) (z : Nat) (f : Zone → Zone) : (s.setZone z f).cores = s.cores := rfl
@[simp] theorem State.setZone_jobs (s : State) (z : Nat) (f : Zone → Zone) : (s.setZone z f).jobs = s.jobs := rfl
@[simp] theorem State.setZone_seqs (s : State) (z : Nat) (f : Zone → Zone) : (s.setZone z f).seqs = s.seqs := rfl
@[simp] theorem State.setZone_sf (s : State) (z : Nat) (f : Zone → Zone) : (s.setZone z f).sf = s.sf := rfl
@[simp] theorem State.setZone_wlk (s : State) (z : Nat) (f : Zone → Zone) : (s.setZone z f).wlk = s.wlk := rfl
@[simp] theorem State.setZone_idx (s : State) (z : Nat) (f : Zone → Zone) : (s.setZone z f).idx = s.idx := rfl
@[simp] theorem State.setZone_pwr (s : State) (z : Nat) (f : Zone → Zone) : (s.setZone z f).pwr = s.pwr := rfl
@[simp] theorem State.setZone_phys (s : State) (z : Nat) (f : Zone → Zone) : (s.setZone z f).phys = s.phys := rfl

/-! `dirty` -/
@[simp] theorem State.dirty_pending (s : State) (p : Nat) : (s.dirty p).pending = s.pending := rfl
@[simp] theorem State.dirty_time (s : State) (p : Nat) : (s.dirty p).time = s.time := rfl
@[simp] theorem State.dirty_freeCtr (s : State) (p : Nat) : (s.dirty p).freeCtr = s.freeCtr := rfl
@[simp] theorem State.dirty_hostOut (s : State) (p : Nat) : (s.dirty p).hostOut = s.hostOut := rfl
@[simp] theorem State.dirty_wlOut (s : State) (p : Nat) : (s.dirty p).wlOut = s.wlOut := rfl
@[simp] theorem State.dirty_gen (s : State) (p : Nat) : (s.dirty p).gen = s.gen := rfl
@[simp] theorem State.dirty_q (s : State) (p : Nat) : (s.dirty p).q = s.q := rfl
@[simp] theorem State.dirty_msix (s : State) (p : Nat) : (s.dirty p).msix = s.msix := rfl
@[simp] theorem State.dirty_pci (s : State) (p : Nat) : (s.dirty p).pci = s.pci := rfl
@[simp] theorem State.dirty_evc (s : State) (p : Nat) : (s.dirty p).evc = s.evc := rfl
@[simp] theorem State.dirty_sig (s : State) (p : Nat) : (s.dirty p).sig = s.sig := rfl
@[simp] theorem State.dirty_flt (s : State) (p : Nat) : (s.dirty p).flt = s.flt := rfl
@[simp] theorem State.dirty_life (s : State) (p : Nat) : (s.dirty p).life = s.life := rfl
@[simp] theorem State.dirty_lifeLog (s : State) (p : Nat) : (s.dirty p).lifeLog = s.lifeLog := rfl
@[simp] theorem State.dirty_mig (s : State) (p : Nat) : (s.dirty p).mig = s.mig := rfl
@[simp] theorem State.dirty_ecc (s : State) (p : Nat) : (s.dirty p).ecc = s.ecc := rfl
@[simp] theorem State.dirty_cores (s : State) (p : Nat) : (s.dirty p).cores = s.cores := rfl
@[simp] theorem State.dirty_jobs (s : State) (p : Nat) : (s.dirty p).jobs = s.jobs := rfl
@[simp] theorem State.dirty_seqs (s : State) (p : Nat) : (s.dirty p).seqs = s.seqs := rfl
@[simp] theorem State.dirty_fl (s : State) (p : Nat) : (s.dirty p).fl = s.fl := rfl
@[simp] theorem State.dirty_sf (s : State) (p : Nat) : (s.dirty p).sf = s.sf := rfl
@[simp] theorem State.dirty_wlk (s : State) (p : Nat) : (s.dirty p).wlk = s.wlk := rfl
@[simp] theorem State.dirty_idx (s : State) (p : Nat) : (s.dirty p).idx = s.idx := rfl
@[simp] theorem State.dirty_pwr (s : State) (p : Nat) : (s.dirty p).pwr = s.pwr := rfl
@[simp] theorem State.dirty_phys (s : State) (p : Nat) : (s.dirty p).phys = s.phys := rfl

/-! `storeBytes` -/
@[simp] theorem State.storeBytes_pending (s : State) (a : Nat) (bs : List Byte) : (s.storeBytes a bs).pending = s.pending := rfl
@[simp] theorem State.storeBytes_time (s : State) (a : Nat) (bs : List Byte) : (s.storeBytes a bs).time = s.time := rfl
@[simp] theorem State.storeBytes_freeCtr (s : State) (a : Nat) (bs : List Byte) : (s.storeBytes a bs).freeCtr = s.freeCtr := rfl
@[simp] theorem State.storeBytes_hostOut (s : State) (a : Nat) (bs : List Byte) : (s.storeBytes a bs).hostOut = s.hostOut := rfl
@[simp] theorem State.storeBytes_wlOut (s : State) (a : Nat) (bs : List Byte) : (s.storeBytes a bs).wlOut = s.wlOut := rfl
@[simp] theorem State.storeBytes_gen (s : State) (a : Nat) (bs : List Byte) : (s.storeBytes a bs).gen = s.gen := rfl
@[simp] theorem State.storeBytes_q (s : State) (a : Nat) (bs : List Byte) : (s.storeBytes a bs).q = s.q := rfl
@[simp] theorem State.storeBytes_msix (s : State) (a : Nat) (bs : List Byte) : (s.storeBytes a bs).msix = s.msix := rfl
@[simp] theorem State.storeBytes_pci (s : State) (a : Nat) (bs : List Byte) : (s.storeBytes a bs).pci = s.pci := rfl
@[simp] theorem State.storeBytes_evc (s : State) (a : Nat) (bs : List Byte) : (s.storeBytes a bs).evc = s.evc := rfl
@[simp] theorem State.storeBytes_sig (s : State) (a : Nat) (bs : List Byte) : (s.storeBytes a bs).sig = s.sig := rfl
@[simp] theorem State.storeBytes_flt (s : State) (a : Nat) (bs : List Byte) : (s.storeBytes a bs).flt = s.flt := rfl
@[simp] theorem State.storeBytes_life (s : State) (a : Nat) (bs : List Byte) : (s.storeBytes a bs).life = s.life := rfl
@[simp] theorem State.storeBytes_lifeLog (s : State) (a : Nat) (bs : List Byte) : (s.storeBytes a bs).lifeLog = s.lifeLog := rfl
@[simp] theorem State.storeBytes_mig (s : State) (a : Nat) (bs : List Byte) : (s.storeBytes a bs).mig = s.mig := rfl
@[simp] theorem State.storeBytes_ecc (s : State) (a : Nat) (bs : List Byte) : (s.storeBytes a bs).ecc = s.ecc := rfl
@[simp] theorem State.storeBytes_cores (s : State) (a : Nat) (bs : List Byte) : (s.storeBytes a bs).cores = s.cores := rfl
@[simp] theorem State.storeBytes_jobs (s : State) (a : Nat) (bs : List Byte) : (s.storeBytes a bs).jobs = s.jobs := rfl
@[simp] theorem State.storeBytes_seqs (s : State) (a : Nat) (bs : List Byte) : (s.storeBytes a bs).seqs = s.seqs := rfl
@[simp] theorem State.storeBytes_fl (s : State) (a : Nat) (bs : List Byte) : (s.storeBytes a bs).fl = s.fl := rfl
@[simp] theorem State.storeBytes_sf (s : State) (a : Nat) (bs : List Byte) : (s.storeBytes a bs).sf = s.sf := rfl
@[simp] theorem State.storeBytes_wlk (s : State) (a : Nat) (bs : List Byte) : (s.storeBytes a bs).wlk = s.wlk := rfl
@[simp] theorem State.storeBytes_idx (s : State) (a : Nat) (bs : List Byte) : (s.storeBytes a bs).idx = s.idx := rfl
@[simp] theorem State.storeBytes_pwr (s : State) (a : Nat) (bs : List Byte) : (s.storeBytes a bs).pwr = s.pwr := rfl
@[simp] theorem State.storeBytes_phys (s : State) (a : Nat) (bs : List Byte) : (s.storeBytes a bs).phys = s.phys := rfl

/-! `cleanKey` -/
@[simp] theorem State.cleanKey_pending (s : State) (k : Nat) : (s.cleanKey k).pending = s.pending := rfl
@[simp] theorem State.cleanKey_time (s : State) (k : Nat) : (s.cleanKey k).time = s.time := rfl
@[simp] theorem State.cleanKey_freeCtr (s : State) (k : Nat) : (s.cleanKey k).freeCtr = s.freeCtr := rfl
@[simp] theorem State.cleanKey_hostOut (s : State) (k : Nat) : (s.cleanKey k).hostOut = s.hostOut := rfl
@[simp] theorem State.cleanKey_wlOut (s : State) (k : Nat) : (s.cleanKey k).wlOut = s.wlOut := rfl
@[simp] theorem State.cleanKey_gen (s : State) (k : Nat) : (s.cleanKey k).gen = s.gen := rfl
@[simp] theorem State.cleanKey_q (s : State) (k : Nat) : (s.cleanKey k).q = s.q := rfl
@[simp] theorem State.cleanKey_msix (s : State) (k : Nat) : (s.cleanKey k).msix = s.msix := rfl
@[simp] theorem State.cleanKey_pci (s : State) (k : Nat) : (s.cleanKey k).pci = s.pci := rfl
@[simp] theorem State.cleanKey_evc (s : State) (k : Nat) : (s.cleanKey k).evc = s.evc := rfl
@[simp] theorem State.cleanKey_sig (s : State) (k : Nat) : (s.cleanKey k).sig = s.sig := rfl
@[simp] theorem State.cleanKey_flt (s : State) (k : Nat) : (s.cleanKey k).flt = s.flt := rfl
@[simp] theorem State.cleanKey_life (s : State) (k : Nat) : (s.cleanKey k).life = s.life := rfl
@[simp] theorem State.cleanKey_lifeLog (s : State) (k : Nat) : (s.cleanKey k).lifeLog = s.lifeLog := rfl
@[simp] theorem State.cleanKey_mig (s : State) (k : Nat) : (s.cleanKey k).mig = s.mig := rfl
@[simp] theorem State.cleanKey_ecc (s : State) (k : Nat) : (s.cleanKey k).ecc = s.ecc := rfl
@[simp] theorem State.cleanKey_cores (s : State) (k : Nat) : (s.cleanKey k).cores = s.cores := rfl
@[simp] theorem State.cleanKey_jobs (s : State) (k : Nat) : (s.cleanKey k).jobs = s.jobs := rfl
@[simp] theorem State.cleanKey_seqs (s : State) (k : Nat) : (s.cleanKey k).seqs = s.seqs := rfl
@[simp] theorem State.cleanKey_fl (s : State) (k : Nat) : (s.cleanKey k).fl = s.fl := rfl
@[simp] theorem State.cleanKey_sf (s : State) (k : Nat) : (s.cleanKey k).sf = s.sf := rfl
@[simp] theorem State.cleanKey_wlk (s : State) (k : Nat) : (s.cleanKey k).wlk = s.wlk := rfl
@[simp] theorem State.cleanKey_idx (s : State) (k : Nat) : (s.cleanKey k).idx = s.idx := rfl
@[simp] theorem State.cleanKey_pwr (s : State) (k : Nat) : (s.cleanKey k).pwr = s.pwr := rfl
@[simp] theorem State.cleanKey_phys (s : State) (k : Nat) : (s.cleanKey k).phys = s.phys := rfl

/-! `poisonKey` -/
@[simp] theorem State.poisonKey_pending (s : State) (k : Nat) : (s.poisonKey k).pending = s.pending := rfl
@[simp] theorem State.poisonKey_time (s : State) (k : Nat) : (s.poisonKey k).time = s.time := rfl
@[simp] theorem State.poisonKey_freeCtr (s : State) (k : Nat) : (s.poisonKey k).freeCtr = s.freeCtr := rfl
@[simp] theorem State.poisonKey_hostOut (s : State) (k : Nat) : (s.poisonKey k).hostOut = s.hostOut := rfl
@[simp] theorem State.poisonKey_wlOut (s : State) (k : Nat) : (s.poisonKey k).wlOut = s.wlOut := rfl
@[simp] theorem State.poisonKey_gen (s : State) (k : Nat) : (s.poisonKey k).gen = s.gen := rfl
@[simp] theorem State.poisonKey_q (s : State) (k : Nat) : (s.poisonKey k).q = s.q := rfl
@[simp] theorem State.poisonKey_msix (s : State) (k : Nat) : (s.poisonKey k).msix = s.msix := rfl
@[simp] theorem State.poisonKey_pci (s : State) (k : Nat) : (s.poisonKey k).pci = s.pci := rfl
@[simp] theorem State.poisonKey_evc (s : State) (k : Nat) : (s.poisonKey k).evc = s.evc := rfl
@[simp] theorem State.poisonKey_sig (s : State) (k : Nat) : (s.poisonKey k).sig = s.sig := rfl
@[simp] theorem State.poisonKey_flt (s : State) (k : Nat) : (s.poisonKey k).flt = s.flt := rfl
@[simp] theorem State.poisonKey_life (s : State) (k : Nat) : (s.poisonKey k).life = s.life := rfl
@[simp] theorem State.poisonKey_lifeLog (s : State) (k : Nat) : (s.poisonKey k).lifeLog = s.lifeLog := rfl
@[simp] theorem State.poisonKey_mig (s : State) (k : Nat) : (s.poisonKey k).mig = s.mig := rfl
@[simp] theorem State.poisonKey_ecc (s : State) (k : Nat) : (s.poisonKey k).ecc = s.ecc := rfl
@[simp] theorem State.poisonKey_cores (s : State) (k : Nat) : (s.poisonKey k).cores = s.cores := rfl
@[simp] theorem State.poisonKey_jobs (s : State) (k : Nat) : (s.poisonKey k).jobs = s.jobs := rfl
@[simp] theorem State.poisonKey_seqs (s : State) (k : Nat) : (s.poisonKey k).seqs = s.seqs := rfl
@[simp] theorem State.poisonKey_fl (s : State) (k : Nat) : (s.poisonKey k).fl = s.fl := rfl
@[simp] theorem State.poisonKey_sf (s : State) (k : Nat) : (s.poisonKey k).sf = s.sf := rfl
@[simp] theorem State.poisonKey_wlk (s : State) (k : Nat) : (s.poisonKey k).wlk = s.wlk := rfl
@[simp] theorem State.poisonKey_idx (s : State) (k : Nat) : (s.poisonKey k).idx = s.idx := rfl
@[simp] theorem State.poisonKey_pwr (s : State) (k : Nat) : (s.poisonKey k).pwr = s.pwr := rfl
@[simp] theorem State.poisonKey_phys (s : State) (k : Nat) : (s.poisonKey k).phys = s.phys := rfl

/-! `aerLog` -/
@[simp] theorem State.aerLog_pending (s : State) (e : AerEvent) : (s.aerLog e).pending = s.pending := rfl
@[simp] theorem State.aerLog_time (s : State) (e : AerEvent) : (s.aerLog e).time = s.time := rfl
@[simp] theorem State.aerLog_freeCtr (s : State) (e : AerEvent) : (s.aerLog e).freeCtr = s.freeCtr := rfl
@[simp] theorem State.aerLog_hostOut (s : State) (e : AerEvent) : (s.aerLog e).hostOut = s.hostOut := rfl
@[simp] theorem State.aerLog_wlOut (s : State) (e : AerEvent) : (s.aerLog e).wlOut = s.wlOut := rfl
@[simp] theorem State.aerLog_gen (s : State) (e : AerEvent) : (s.aerLog e).gen = s.gen := rfl
@[simp] theorem State.aerLog_q (s : State) (e : AerEvent) : (s.aerLog e).q = s.q := rfl
@[simp] theorem State.aerLog_msix (s : State) (e : AerEvent) : (s.aerLog e).msix = s.msix := rfl
@[simp] theorem State.aerLog_evc (s : State) (e : AerEvent) : (s.aerLog e).evc = s.evc := rfl
@[simp] theorem State.aerLog_sig (s : State) (e : AerEvent) : (s.aerLog e).sig = s.sig := rfl
@[simp] theorem State.aerLog_flt (s : State) (e : AerEvent) : (s.aerLog e).flt = s.flt := rfl
@[simp] theorem State.aerLog_life (s : State) (e : AerEvent) : (s.aerLog e).life = s.life := rfl
@[simp] theorem State.aerLog_lifeLog (s : State) (e : AerEvent) : (s.aerLog e).lifeLog = s.lifeLog := rfl
@[simp] theorem State.aerLog_mem (s : State) (e : AerEvent) : (s.aerLog e).mem = s.mem := rfl
@[simp] theorem State.aerLog_mig (s : State) (e : AerEvent) : (s.aerLog e).mig = s.mig := rfl
@[simp] theorem State.aerLog_ecc (s : State) (e : AerEvent) : (s.aerLog e).ecc = s.ecc := rfl
@[simp] theorem State.aerLog_cores (s : State) (e : AerEvent) : (s.aerLog e).cores = s.cores := rfl
@[simp] theorem State.aerLog_jobs (s : State) (e : AerEvent) : (s.aerLog e).jobs = s.jobs := rfl
@[simp] theorem State.aerLog_seqs (s : State) (e : AerEvent) : (s.aerLog e).seqs = s.seqs := rfl
@[simp] theorem State.aerLog_fl (s : State) (e : AerEvent) : (s.aerLog e).fl = s.fl := rfl
@[simp] theorem State.aerLog_sf (s : State) (e : AerEvent) : (s.aerLog e).sf = s.sf := rfl
@[simp] theorem State.aerLog_wlk (s : State) (e : AerEvent) : (s.aerLog e).wlk = s.wlk := rfl
@[simp] theorem State.aerLog_idx (s : State) (e : AerEvent) : (s.aerLog e).idx = s.idx := rfl
@[simp] theorem State.aerLog_pwr (s : State) (e : AerEvent) : (s.aerLog e).pwr = s.pwr := rfl
@[simp] theorem State.aerLog_phys (s : State) (e : AerEvent) : (s.aerLog e).phys = s.phys := rfl

/-! `setWord` -/
@[simp] theorem State.setWord_pending (s : State) (k v : Nat) : (s.setWord k v).pending = s.pending := rfl
@[simp] theorem State.setWord_time (s : State) (k v : Nat) : (s.setWord k v).time = s.time := rfl
@[simp] theorem State.setWord_freeCtr (s : State) (k v : Nat) : (s.setWord k v).freeCtr = s.freeCtr := rfl
@[simp] theorem State.setWord_hostOut (s : State) (k v : Nat) : (s.setWord k v).hostOut = s.hostOut := rfl
@[simp] theorem State.setWord_wlOut (s : State) (k v : Nat) : (s.setWord k v).wlOut = s.wlOut := rfl
@[simp] theorem State.setWord_gen (s : State) (k v : Nat) : (s.setWord k v).gen = s.gen := rfl
@[simp] theorem State.setWord_q (s : State) (k v : Nat) : (s.setWord k v).q = s.q := rfl
@[simp] theorem State.setWord_msix (s : State) (k v : Nat) : (s.setWord k v).msix = s.msix := rfl
@[simp] theorem State.setWord_pci (s : State) (k v : Nat) : (s.setWord k v).pci = s.pci := rfl
@[simp] theorem State.setWord_evc (s : State) (k v : Nat) : (s.setWord k v).evc = s.evc := rfl
@[simp] theorem State.setWord_sig (s : State) (k v : Nat) : (s.setWord k v).sig = s.sig := rfl
@[simp] theorem State.setWord_flt (s : State) (k v : Nat) : (s.setWord k v).flt = s.flt := rfl
@[simp] theorem State.setWord_life (s : State) (k v : Nat) : (s.setWord k v).life = s.life := rfl
@[simp] theorem State.setWord_lifeLog (s : State) (k v : Nat) : (s.setWord k v).lifeLog = s.lifeLog := rfl
@[simp] theorem State.setWord_mem (s : State) (k v : Nat) : (s.setWord k v).mem = s.mem := rfl
@[simp] theorem State.setWord_mig (s : State) (k v : Nat) : (s.setWord k v).mig = s.mig := rfl
@[simp] theorem State.setWord_ecc (s : State) (k v : Nat) : (s.setWord k v).ecc = s.ecc := rfl
@[simp] theorem State.setWord_cores (s : State) (k v : Nat) : (s.setWord k v).cores = s.cores := rfl
@[simp] theorem State.setWord_jobs (s : State) (k v : Nat) : (s.setWord k v).jobs = s.jobs := rfl
@[simp] theorem State.setWord_seqs (s : State) (k v : Nat) : (s.setWord k v).seqs = s.seqs := rfl
@[simp] theorem State.setWord_fl (s : State) (k v : Nat) : (s.setWord k v).fl = s.fl := rfl
@[simp] theorem State.setWord_wlk (s : State) (k v : Nat) : (s.setWord k v).wlk = s.wlk := rfl
@[simp] theorem State.setWord_idx (s : State) (k v : Nat) : (s.setWord k v).idx = s.idx := rfl
@[simp] theorem State.setWord_pwr (s : State) (k v : Nat) : (s.setWord k v).pwr = s.pwr := rfl
@[simp] theorem State.setWord_phys (s : State) (k v : Nat) : (s.setWord k v).phys = s.phys := rfl

/-! `setLifeAt` -/
@[simp] theorem State.setLifeAt_pending (s : State) (v : Nat × Nat) : (s.setLifeAt v).pending = s.pending := rfl
@[simp] theorem State.setLifeAt_time (s : State) (v : Nat × Nat) : (s.setLifeAt v).time = s.time := rfl
@[simp] theorem State.setLifeAt_freeCtr (s : State) (v : Nat × Nat) : (s.setLifeAt v).freeCtr = s.freeCtr := rfl
@[simp] theorem State.setLifeAt_hostOut (s : State) (v : Nat × Nat) : (s.setLifeAt v).hostOut = s.hostOut := rfl
@[simp] theorem State.setLifeAt_wlOut (s : State) (v : Nat × Nat) : (s.setLifeAt v).wlOut = s.wlOut := rfl
@[simp] theorem State.setLifeAt_gen (s : State) (v : Nat × Nat) : (s.setLifeAt v).gen = s.gen := rfl
@[simp] theorem State.setLifeAt_q (s : State) (v : Nat × Nat) : (s.setLifeAt v).q = s.q := rfl
@[simp] theorem State.setLifeAt_msix (s : State) (v : Nat × Nat) : (s.setLifeAt v).msix = s.msix := rfl
@[simp] theorem State.setLifeAt_pci (s : State) (v : Nat × Nat) : (s.setLifeAt v).pci = s.pci := rfl
@[simp] theorem State.setLifeAt_evc (s : State) (v : Nat × Nat) : (s.setLifeAt v).evc = s.evc := rfl
@[simp] theorem State.setLifeAt_sig (s : State) (v : Nat × Nat) : (s.setLifeAt v).sig = s.sig := rfl
@[simp] theorem State.setLifeAt_flt (s : State) (v : Nat × Nat) : (s.setLifeAt v).flt = s.flt := rfl
@[simp] theorem State.setLifeAt_life (s : State) (v : Nat × Nat) : (s.setLifeAt v).life = s.life := rfl
@[simp] theorem State.setLifeAt_lifeLog (s : State) (v : Nat × Nat) : (s.setLifeAt v).lifeLog = s.lifeLog := rfl
@[simp] theorem State.setLifeAt_mem (s : State) (v : Nat × Nat) : (s.setLifeAt v).mem = s.mem := rfl
@[simp] theorem State.setLifeAt_mig (s : State) (v : Nat × Nat) : (s.setLifeAt v).mig = s.mig := rfl
@[simp] theorem State.setLifeAt_ecc (s : State) (v : Nat × Nat) : (s.setLifeAt v).ecc = s.ecc := rfl
@[simp] theorem State.setLifeAt_cores (s : State) (v : Nat × Nat) : (s.setLifeAt v).cores = s.cores := rfl
@[simp] theorem State.setLifeAt_jobs (s : State) (v : Nat × Nat) : (s.setLifeAt v).jobs = s.jobs := rfl
@[simp] theorem State.setLifeAt_seqs (s : State) (v : Nat × Nat) : (s.setLifeAt v).seqs = s.seqs := rfl
@[simp] theorem State.setLifeAt_fl (s : State) (v : Nat × Nat) : (s.setLifeAt v).fl = s.fl := rfl
@[simp] theorem State.setLifeAt_wlk (s : State) (v : Nat × Nat) : (s.setLifeAt v).wlk = s.wlk := rfl
@[simp] theorem State.setLifeAt_idx (s : State) (v : Nat × Nat) : (s.setLifeAt v).idx = s.idx := rfl
@[simp] theorem State.setLifeAt_pwr (s : State) (v : Nat × Nat) : (s.setLifeAt v).pwr = s.pwr := rfl
@[simp] theorem State.setLifeAt_phys (s : State) (v : Nat × Nat) : (s.setLifeAt v).phys = s.phys := rfl

/-! `countCopied` -/
@[simp] theorem State.countCopied_pending (s : State) (n : Nat) : (s.countCopied n).pending = s.pending := rfl
@[simp] theorem State.countCopied_time (s : State) (n : Nat) : (s.countCopied n).time = s.time := rfl
@[simp] theorem State.countCopied_freeCtr (s : State) (n : Nat) : (s.countCopied n).freeCtr = s.freeCtr := rfl
@[simp] theorem State.countCopied_hostOut (s : State) (n : Nat) : (s.countCopied n).hostOut = s.hostOut := rfl
@[simp] theorem State.countCopied_wlOut (s : State) (n : Nat) : (s.countCopied n).wlOut = s.wlOut := rfl
@[simp] theorem State.countCopied_gen (s : State) (n : Nat) : (s.countCopied n).gen = s.gen := rfl
@[simp] theorem State.countCopied_q (s : State) (n : Nat) : (s.countCopied n).q = s.q := rfl
@[simp] theorem State.countCopied_msix (s : State) (n : Nat) : (s.countCopied n).msix = s.msix := rfl
@[simp] theorem State.countCopied_pci (s : State) (n : Nat) : (s.countCopied n).pci = s.pci := rfl
@[simp] theorem State.countCopied_evc (s : State) (n : Nat) : (s.countCopied n).evc = s.evc := rfl
@[simp] theorem State.countCopied_sig (s : State) (n : Nat) : (s.countCopied n).sig = s.sig := rfl
@[simp] theorem State.countCopied_flt (s : State) (n : Nat) : (s.countCopied n).flt = s.flt := rfl
@[simp] theorem State.countCopied_life (s : State) (n : Nat) : (s.countCopied n).life = s.life := rfl
@[simp] theorem State.countCopied_lifeLog (s : State) (n : Nat) : (s.countCopied n).lifeLog = s.lifeLog := rfl
@[simp] theorem State.countCopied_mem (s : State) (n : Nat) : (s.countCopied n).mem = s.mem := rfl
@[simp] theorem State.countCopied_ecc (s : State) (n : Nat) : (s.countCopied n).ecc = s.ecc := rfl
@[simp] theorem State.countCopied_cores (s : State) (n : Nat) : (s.countCopied n).cores = s.cores := rfl
@[simp] theorem State.countCopied_jobs (s : State) (n : Nat) : (s.countCopied n).jobs = s.jobs := rfl
@[simp] theorem State.countCopied_seqs (s : State) (n : Nat) : (s.countCopied n).seqs = s.seqs := rfl
@[simp] theorem State.countCopied_fl (s : State) (n : Nat) : (s.countCopied n).fl = s.fl := rfl
@[simp] theorem State.countCopied_sf (s : State) (n : Nat) : (s.countCopied n).sf = s.sf := rfl
@[simp] theorem State.countCopied_wlk (s : State) (n : Nat) : (s.countCopied n).wlk = s.wlk := rfl
@[simp] theorem State.countCopied_idx (s : State) (n : Nat) : (s.countCopied n).idx = s.idx := rfl
@[simp] theorem State.countCopied_pwr (s : State) (n : Nat) : (s.countCopied n).pwr = s.pwr := rfl
@[simp] theorem State.countCopied_phys (s : State) (n : Nat) : (s.countCopied n).phys = s.phys := rfl

/-! `zeroPages` -/
@[simp] theorem State.zeroPages_pending (s : State) (p n : Nat) : (s.zeroPages p n).pending = s.pending := rfl
@[simp] theorem State.zeroPages_time (s : State) (p n : Nat) : (s.zeroPages p n).time = s.time := rfl
@[simp] theorem State.zeroPages_freeCtr (s : State) (p n : Nat) : (s.zeroPages p n).freeCtr = s.freeCtr := rfl
@[simp] theorem State.zeroPages_hostOut (s : State) (p n : Nat) : (s.zeroPages p n).hostOut = s.hostOut := rfl
@[simp] theorem State.zeroPages_wlOut (s : State) (p n : Nat) : (s.zeroPages p n).wlOut = s.wlOut := rfl
@[simp] theorem State.zeroPages_gen (s : State) (p n : Nat) : (s.zeroPages p n).gen = s.gen := rfl
@[simp] theorem State.zeroPages_q (s : State) (p n : Nat) : (s.zeroPages p n).q = s.q := rfl
@[simp] theorem State.zeroPages_msix (s : State) (p n : Nat) : (s.zeroPages p n).msix = s.msix := rfl
@[simp] theorem State.zeroPages_pci (s : State) (p n : Nat) : (s.zeroPages p n).pci = s.pci := rfl
@[simp] theorem State.zeroPages_evc (s : State) (p n : Nat) : (s.zeroPages p n).evc = s.evc := rfl
@[simp] theorem State.zeroPages_sig (s : State) (p n : Nat) : (s.zeroPages p n).sig = s.sig := rfl
@[simp] theorem State.zeroPages_flt (s : State) (p n : Nat) : (s.zeroPages p n).flt = s.flt := rfl
@[simp] theorem State.zeroPages_life (s : State) (p n : Nat) : (s.zeroPages p n).life = s.life := rfl
@[simp] theorem State.zeroPages_lifeLog (s : State) (p n : Nat) : (s.zeroPages p n).lifeLog = s.lifeLog := rfl
@[simp] theorem State.zeroPages_mig (s : State) (p n : Nat) : (s.zeroPages p n).mig = s.mig := rfl
@[simp] theorem State.zeroPages_ecc (s : State) (p n : Nat) : (s.zeroPages p n).ecc = s.ecc := rfl
@[simp] theorem State.zeroPages_cores (s : State) (p n : Nat) : (s.zeroPages p n).cores = s.cores := rfl
@[simp] theorem State.zeroPages_jobs (s : State) (p n : Nat) : (s.zeroPages p n).jobs = s.jobs := rfl
@[simp] theorem State.zeroPages_seqs (s : State) (p n : Nat) : (s.zeroPages p n).seqs = s.seqs := rfl
@[simp] theorem State.zeroPages_fl (s : State) (p n : Nat) : (s.zeroPages p n).fl = s.fl := rfl
@[simp] theorem State.zeroPages_sf (s : State) (p n : Nat) : (s.zeroPages p n).sf = s.sf := rfl
@[simp] theorem State.zeroPages_wlk (s : State) (p n : Nat) : (s.zeroPages p n).wlk = s.wlk := rfl
@[simp] theorem State.zeroPages_idx (s : State) (p n : Nat) : (s.zeroPages p n).idx = s.idx := rfl
@[simp] theorem State.zeroPages_pwr (s : State) (p n : Nat) : (s.zeroPages p n).pwr = s.pwr := rfl
@[simp] theorem State.zeroPages_phys (s : State) (p n : Nat) : (s.zeroPages p n).phys = s.phys := rfl

/-! `storeGranule` -/
@[simp] theorem State.storeGranule_pending (s : State) (g : Nat) (bs : List Byte) : (s.storeGranule g bs).pending = s.pending := rfl
@[simp] theorem State.storeGranule_time (s : State) (g : Nat) (bs : List Byte) : (s.storeGranule g bs).time = s.time := rfl
@[simp] theorem State.storeGranule_freeCtr (s : State) (g : Nat) (bs : List Byte) : (s.storeGranule g bs).freeCtr = s.freeCtr := rfl
@[simp] theorem State.storeGranule_hostOut (s : State) (g : Nat) (bs : List Byte) : (s.storeGranule g bs).hostOut = s.hostOut := rfl
@[simp] theorem State.storeGranule_wlOut (s : State) (g : Nat) (bs : List Byte) : (s.storeGranule g bs).wlOut = s.wlOut := rfl
@[simp] theorem State.storeGranule_gen (s : State) (g : Nat) (bs : List Byte) : (s.storeGranule g bs).gen = s.gen := rfl
@[simp] theorem State.storeGranule_q (s : State) (g : Nat) (bs : List Byte) : (s.storeGranule g bs).q = s.q := rfl
@[simp] theorem State.storeGranule_msix (s : State) (g : Nat) (bs : List Byte) : (s.storeGranule g bs).msix = s.msix := rfl
@[simp] theorem State.storeGranule_pci (s : State) (g : Nat) (bs : List Byte) : (s.storeGranule g bs).pci = s.pci := rfl
@[simp] theorem State.storeGranule_evc (s : State) (g : Nat) (bs : List Byte) : (s.storeGranule g bs).evc = s.evc := rfl
@[simp] theorem State.storeGranule_sig (s : State) (g : Nat) (bs : List Byte) : (s.storeGranule g bs).sig = s.sig := rfl
@[simp] theorem State.storeGranule_flt (s : State) (g : Nat) (bs : List Byte) : (s.storeGranule g bs).flt = s.flt := rfl
@[simp] theorem State.storeGranule_life (s : State) (g : Nat) (bs : List Byte) : (s.storeGranule g bs).life = s.life := rfl
@[simp] theorem State.storeGranule_lifeLog (s : State) (g : Nat) (bs : List Byte) : (s.storeGranule g bs).lifeLog = s.lifeLog := rfl
@[simp] theorem State.storeGranule_mig (s : State) (g : Nat) (bs : List Byte) : (s.storeGranule g bs).mig = s.mig := rfl
@[simp] theorem State.storeGranule_ecc (s : State) (g : Nat) (bs : List Byte) : (s.storeGranule g bs).ecc = s.ecc := rfl
@[simp] theorem State.storeGranule_cores (s : State) (g : Nat) (bs : List Byte) : (s.storeGranule g bs).cores = s.cores := rfl
@[simp] theorem State.storeGranule_jobs (s : State) (g : Nat) (bs : List Byte) : (s.storeGranule g bs).jobs = s.jobs := rfl
@[simp] theorem State.storeGranule_seqs (s : State) (g : Nat) (bs : List Byte) : (s.storeGranule g bs).seqs = s.seqs := rfl
@[simp] theorem State.storeGranule_fl (s : State) (g : Nat) (bs : List Byte) : (s.storeGranule g bs).fl = s.fl := rfl
@[simp] theorem State.storeGranule_sf (s : State) (g : Nat) (bs : List Byte) : (s.storeGranule g bs).sf = s.sf := rfl
@[simp] theorem State.storeGranule_wlk (s : State) (g : Nat) (bs : List Byte) : (s.storeGranule g bs).wlk = s.wlk := rfl
@[simp] theorem State.storeGranule_idx (s : State) (g : Nat) (bs : List Byte) : (s.storeGranule g bs).idx = s.idx := rfl
@[simp] theorem State.storeGranule_pwr (s : State) (g : Nat) (bs : List Byte) : (s.storeGranule g bs).pwr = s.pwr := rfl
@[simp] theorem State.storeGranule_phys (s : State) (g : Nat) (bs : List Byte) : (s.storeGranule g bs).phys = s.phys := rfl

/-! The free value of a draw, and what a draw leaves. -/
@[simp] theorem State.draw_value (s : State) : s.draw.1 = Config.free s.freeCtr := rfl
@[simp] theorem State.draw_state (s : State) : s.draw.2 = { s with freeCtr := s.freeCtr + 1 } := rfl

end Sys2Proof.Machine
end

