-- ==== Sys2Proof/Laws/Ops.lean ====
section
/-!
SUPPORT. Laws/Ops.lean: what the shared operations can do, said once: an instruction that issues, a command that has begun, a reply,
the end of every command.
-/
namespace Sys2Proof.Machine

/-! ## Lists with one element changed -/

theorem getD_modifyAt {α : Type} (l : List α) (i j : Nat) (f : α → α) (d : α) :
    (modifyAt l i f).getD j d = if i = j ∧ j < l.length then f (l.getD j d) else l.getD j d := by
  induction l generalizing i j with
  | nil => simp [modifyAt]
  | cons a t ih =>
    rcases i with _ | i <;> rcases j with _ | j <;> simp [modifyAt]
    simpa using ih i j

@[simp] theorem length_modifyAt {α : Type} (l : List α) (i : Nat) (f : α → α) : (modifyAt l i f).length = l.length := by
  induction l generalizing i with
  | nil => rfl
  | cons a t ih => cases i <;> simp [modifyAt, ih]

theorem State.core_setCore (s : State) (n k : Nat) (f : Core → Core) :
    (s.setCore n f).core k = if n = k ∧ k < s.cores.length then f (s.core k) else s.core k := by
  simp only [State.core, State.setCore, getD_modifyAt]

theorem State.port_setPort (s : State) (p k : Nat) (f : Port → Port) :
    (s.setPort p f).port k = if p = k ∧ k < s.wlk.ports.length then f (s.port k) else s.port k := by
  simp only [State.port, State.setPort, getD_modifyAt]

theorem State.run_setRun (s : State) (p k : Nat) (f : Run → Run) :
    (s.setRun p f).run k = if p = k then (s.run k).map f else s.run k := by
  simp only [State.run, State.setRun, getD_modifyAt]
  by_cases h : p = k
  · by_cases hk : k < s.jobs.parts.length <;> simp [h, hk]
  · simp [h]

/-! ## The end of every command -/

@[simp] theorem settle_src (s : State) (n : Nat) : (settle s).src n = s.src n := rfl

/-- What the sources read of the event controller is what `settle` leaves. -/
theorem settle_evc (s : State) : (settle s).evc = { s.evc with
    active := s.evc.active.filter fun n => (s.src n).hostEn && (s.level n || !(s.src n).autoRearm)
    mgmtDone := s.evc.mgmtDone.filter fun e => s.level e.2 } := rfl

@[simp] theorem settle_entriesPer (s : State) : (settle s).entriesPer = s.entriesPer := rfl

@[simp] theorem settle_cause (s : State) (n : Nat) : (settle s).cause n = s.cause n := by
  simp only [State.cause, settle_evc, settle_q, settle_time, settle_flt, settle_mig, settle_wlk, settle_ecc, settle_pwr, settle_sig,
    settle_entriesPer]

theorem sourceMoves_of_pwr {s t : State} (h : s.pwr = t.pwr) (n : Nat) : s.sourceMoves n = t.sourceMoves n := by
  unfold State.sourceMoves
  rw [h]

@[simp] theorem settle_level (s : State) (n : Nat) : (settle s).level n = s.level n := by
  have hm : (settle s).sourceMoves n = s.sourceMoves n := sourceMoves_of_pwr (settle_pwr s) n
  simp only [State.level, settle_cause, hm, settle_evc]

/-- Every command ends in a state whose deliveries agree with its sources (18 R533, R537). -/
theorem settle_delivered (s : State) : (settle s).delivered := by
  constructor
  · intro n hn
    rw [settle_evc] at hn
    simpa using (List.mem_filter.mp hn).2
  · intro e he
    rw [settle_evc] at he
    simpa using (List.mem_filter.mp he).2

/-! ## Instructions and commands -/

/-- An instruction that issues acts on its job and its core. -/
theorem issue_of_issues {s : State} {n : Nat} {w : IWord} {op : Nat} {r : Run} (h : Issues s n w op r) (f : State → Run → Core → Out) :
    issue s n w op f = f s r (s.core n) := by
  obtain ⟨h1, h2, h3, h4, h5, h6, h7, h8, h9, h10, h11, h12, h13, h14⟩ := h
  have hm : mayIssue (s.core n) w op = true := by rw [mayIssue, h10, h11, h12]; simp
  simp only [issue, h1]
  rw [if_pos ⟨h2, h3, h4, h5, h6, h7, h8, h9⟩]
  rw [h13]
  simp only [hm, h14]
  rfl

/-- A begun command's row acts on the state in which the command is marked. -/
theorem withCmd_of_begun {s : State} {h : HostCmd} {op : Nat} {c : Cmd} (hb : Begun s h op c) (f : Cmd → State → State) :
    withCmd s h.ref op f = done (f c (s.mark h)) := by
  obtain ⟨h1, h2, h3⟩ := hb
  simp only [withCmd, h1]
  rw [if_pos ⟨h2, h3⟩]

/-- The row of a command that has not begun, or has executed, leaves the state as it is (DESIGN CHOICE, log 11). -/
theorem withCmd_of_none {s : State} {r : CmdRef} (h : s.cmd r = none) (op : Nat) (f : Cmd → State → State) :
    withCmd s r op f = done s := by simp only [withCmd, h]

/-- Whether a command's row acts or not, it answers a next state. -/
theorem withCmd_next (s : State) (r : CmdRef) (op : Nat) (f : Cmd → State → State) : ∃ t, withCmd s r op f = .next (settle t) := by
  simp only [withCmd, done]
  split
  · split
    · exact ⟨_, rfl⟩
    · exact ⟨_, rfl⟩
  · exact ⟨_, rfl⟩

/-! ## Replies: they touch the queues, the host's memory, the telemetry, the AER log and the idle timer, and nothing else (14
R400, R411-R429; 19 R552) -/

/-- `t` differs from `s` in what a reply may change at most. -/
abbrev State.RepliesTo (s t : State) : Prop :=
  t = { s with
    q := t.q, hostOut := t.hostOut, gen := { s.gen with telemetry := t.gen.telemetry }
    pci := { s.pci with aer := t.pci.aer }, pwr := { s.pwr with idleSince := t.pwr.idleSince } }

theorem RepliesTo.refl (s : State) : s.RepliesTo s := rfl

theorem RepliesTo.trans {s t u : State} (h : s.RepliesTo t) (k : t.RepliesTo u) : s.RepliesTo u := by
  rw [State.RepliesTo] at h k ⊢
  rw [k, h]

theorem setQueue_replies (s : State) (k : Nat) (f : Queue → Queue) : s.RepliesTo (s.setQueue k f) := rfl

theorem aerLog_replies (s : State) (e : AerEvent) : s.RepliesTo (s.aerLog e) := rfl

theorem histogram_replies (s : State) (h ns : Nat) : s.RepliesTo (s.histogram h ns) := rfl

theorem writeReply_replies (s : State) (qid cid st res : Nat) : s.RepliesTo (s.writeReply qid cid st res) := by
  unfold State.writeReply
  split <;> rfl

theorem commandTime_replies (s : State) (c : Cmd) : s.RepliesTo (s.commandTime c) := by
  unfold State.commandTime
  dsimp only
  repeat' split
  all_goals rfl

theorem replyTo_replies (s : State) (c : Cmd) (st res : Nat) (rec_ : Option Nat) : s.RepliesTo (s.replyTo c st res rec_) := by
  unfold State.replyTo
  dsimp only
  have h0 : s.RepliesTo { s with q := { s.q with cmds := s.q.cmds.erase c }, pwr := { s.pwr with idleSince := s.time } } := rfl
  have h1 := RepliesTo.trans h0 (commandTime_replies _ c)
  generalize State.commandTime _ c = u at h1
  have h2 : s.RepliesTo (if st = 0x0106 then u.aerLog (.read c.qid) else u) := by
    split
    · exact RepliesTo.trans h1 (aerLog_replies _ _)
    · exact h1
  generalize (if st = 0x0106 then u.aerLog (.read c.qid) else u) = v at h2
  split
  · exact h2
  · refine RepliesTo.trans h2 (RepliesTo.trans (t := State.writeReply _ c.qid c.cid st res) ?_ rfl)
    refine RepliesTo.trans ?_ (writeReply_replies _ _ _ _ _)
    repeat' split
    all_goals (unfold State.RepliesTo; simp [State.logError, State.freeze, State.setQueue])

theorem reply1_replies (s : State) (r : CmdRef) (st res : Nat) (rec_ : Option Nat) : s.RepliesTo (s.reply1 r st res rec_) := by
  unfold State.reply1
  split
  · rfl
  · exact replyTo_replies _ _ _ _ _

theorem discardLoop_replies (n : Nat) (p : PendingRestart) (tail : Nat) (s : State) : s.RepliesTo (discardLoop n p tail s).1 := by
  induction n generalizing s with
  | zero => rfl
  | succ n ih =>
    unfold discardLoop
    split
    · rfl
    · split
      · rfl
      · split
        · rfl
        · dsimp only
          refine RepliesTo.trans ?_ (ih _)
          refine RepliesTo.trans ?_ (writeReply_replies _ _ _ _ _)
          split
          · exact setQueue_replies _ _ _
          · exact RepliesTo.trans (aerLog_replies _ _) (setQueue_replies _ _ _)

theorem tryRestart_replies (s : State) (p : PendingRestart) : s.RepliesTo (s.tryRestart p) := by
  unfold State.tryRestart
  split
  · rfl
  · split
    · split
      · exact reply1_replies _ _ _ _ _
      · rfl
    · split
      · rfl
      · dsimp only
        repeat' split
        all_goals first
          | exact RepliesTo.trans (RepliesTo.trans (discardLoop_replies _ _ _ _) (setQueue_replies _ _ _))
              (reply1_replies _ _ _ _ _)
          | exact RepliesTo.trans (setQueue_replies s _ _) (reply1_replies _ _ _ _ _)
          | exact RepliesTo.trans (discardLoop_replies _ _ _ _) rfl
          | rfl

theorem restarts_replies (s : State) : s.RepliesTo s.restarts := by
  unfold State.restarts
  suffices h : ∀ (l : List PendingRestart) (u : State), s.RepliesTo u → s.RepliesTo (l.foldl State.tryRestart u) from h _ _ rfl
  intro l
  induction l with
  | nil => exact fun u h => h
  | cons p l ih => exact fun u h => ih _ (RepliesTo.trans h (tryRestart_replies u p))

/-- What a reply can change, whoever replies. -/
theorem replyRec_replies (s : State) (r : CmdRef) (st res : Nat) (rec_ : Option Nat) : s.RepliesTo (s.replyRec r st res rec_) := by
  unfold State.replyRec
  refine RepliesTo.trans ?_ (restarts_replies _)
  split
  · exact RepliesTo.trans (reply1_replies _ _ _ _ _) (reply1_replies _ _ _ _ _)
  · exact reply1_replies _ _ _ _ _

theorem reply_replies (s : State) (r : CmdRef) (st res : Nat) : s.RepliesTo (s.reply r st res) := replyRec_replies _ _ _ _ _

theorem ok_replies (s : State) (r : CmdRef) (res : Nat) : s.RepliesTo (s.ok r res) := replyRec_replies _ _ _ _ _

/-! ## Wakes (19 R554, R559) -/

/-- A wake changes the entry or the exit under way and the time of quiescence, and nothing else. -/
theorem wake_frame (s : State) (n : Nat) :
    s.wake n = { s with pwr := { s.pwr with
      entering := (s.wake n).pwr.entering, exiting := (s.wake n).pwr.exiting, quietSince := (s.wake n).pwr.quietSince } } := by
  unfold State.wake
  by_cases hn : n ≤ 1 <;> simp only [hn, ↓reduceIte] <;> split <;> split <;> rfl

/-- A module that is awake has nothing to wake from; work for a core ends its quiescence. -/
theorem wake_awake {s : State} (n : Nat) (h : s.awake = true) :
    s.wake n = if n ≤ 1 then { s with pwr := { s.pwr with quietSince := none } } else s := by
  unfold State.awake at h
  simp only [Bool.and_eq_true, beq_iff_eq, Option.isNone_iff_eq_none] at h
  by_cases hn : n ≤ 1 <;> simp [State.wake, h.1.1, h.1.2, hn]

/-! ## Faults latched (20 R566, R567) -/

/-- A fault latched for the job of a partition that is not faulted yet: the job becomes FAULTED and the detection waits. -/
theorem latch_job {s : State} {p : Nat} {r : Run} (info : FaultInfo) (h : s.run p = some r) (hr : r.state ≠ .faulted) :
    s.latch (.job p) info = (({ s with flt := { s.flt with
        nextRecord := s.flt.nextRecord + 1
        detections := s.flt.detections ++ [⟨s.flt.nextRecord, .job p, r.number, info, s.time, 0⟩] } } : State).wake 1).setRun p
      fun r => { r with state := .faulted } := by
  simp only [State.latch, h, if_neg hr]

/-- A latched fault touches the fault unit, the job and the power state, and nothing else. -/
theorem latch_frame (s : State) (scope : FaultScope) (info : FaultInfo) :
    s.latch scope info = { s with
      flt := (s.latch scope info).flt, jobs := (s.latch scope info).jobs, pwr := (s.latch scope info).pwr } := by
  unfold State.latch
  dsimp only
  split
  · split
    · rfl
    · split
      · rfl
      · rw [wake_frame]; rfl
  · rw [wake_frame]

end Sys2Proof.Machine
end

