-- ==== Sys2Proof/Laws/Memory.lean ====
section
/-!
SUPPORT. Laws/Memory.lean: the laws of sparse data (a read after a write), and that every operation on the device range keeps the
canonical form of its bytes.
-/
namespace Sys2Proof.Machine

/-! ## Reads after writes, whatever the map -/

variable {α : Type}

@[simp] theorem Sparse.get_nil (d : α) (i : Nat) : Sparse.get d [] i = d := rfl

@[simp] theorem Sparse.find_nil (i : Nat) : Sparse.find ([] : Sparse α) i = none := rfl

theorem Sparse.get_put_self (d : α) (m : Sparse α) (i : Nat) (v : α) : Sparse.get d (Sparse.put m i v) i = v := by
  induction m with
  | nil => simp [Sparse.put, Sparse.get]
  | cons e t ih =>
    obtain ⟨k, w⟩ := e
    unfold Sparse.put
    split
    · simp [Sparse.get]
    · split
      · simp [Sparse.get, *]
      · rename_i h1 h2
        simp only [Sparse.get, if_neg h2, if_neg h1, ih]

theorem Sparse.get_put_other (d : α) (m : Sparse α) {i j : Nat} (v : α) (h : j ≠ i) :
    Sparse.get d (Sparse.put m i v) j = Sparse.get d m j := by
  induction m with
  | nil => simp [Sparse.put, Sparse.get, h]
  | cons e t ih =>
    obtain ⟨k, w⟩ := e
    unfold Sparse.put
    split
    · rename_i h1
      by_cases hj : j < i
      · have h2 : j < k := by omega
        have h3 : j ≠ k := by omega
        simp [Sparse.get, h, hj, h2, h3]
      · simp [Sparse.get, h, hj]
    · split
      · rename_i h1 h2
        subst h2
        simp [Sparse.get, h]
      · by_cases h3 : j = k
        · simp [Sparse.get, h3]
        · by_cases h4 : j < k <;> simp [Sparse.get, h3, h4, ih]

theorem Sparse.find_put_self (m : Sparse α) (i : Nat) (v : α) : Sparse.find (Sparse.put m i v) i = some v := by
  induction m with
  | nil => simp [Sparse.put, Sparse.find]
  | cons e t ih =>
    obtain ⟨k, w⟩ := e
    unfold Sparse.put
    split
    · simp [Sparse.find]
    · split
      · simp [Sparse.find, *]
      · rename_i h1 h2
        simp only [Sparse.find, if_neg h2, if_neg h1, ih]

theorem Sparse.find_put_other (m : Sparse α) {i j : Nat} (v : α) (h : j ≠ i) :
    Sparse.find (Sparse.put m i v) j = Sparse.find m j := by
  induction m with
  | nil => simp [Sparse.put, Sparse.find, h]
  | cons e t ih =>
    obtain ⟨k, w⟩ := e
    unfold Sparse.put
    split
    · rename_i h1
      by_cases hj : j < i
      · have h2 : j < k := by omega
        have h3 : j ≠ k := by omega
        simp [Sparse.find, h, hj, h2, h3]
      · simp [Sparse.find, h, hj]
    · split
      · rename_i h1 h2
        subst h2
        simp [Sparse.find, h]
      · by_cases h3 : j = k
        · simp [Sparse.find, h3]
        · by_cases h4 : j < k <;> simp [Sparse.find, h3, h4, ih]

theorem Sparse.find_adjust_self (m : Sparse α) (i : Nat) (f : α → α) :
    Sparse.find (Sparse.adjust m i f) i = (Sparse.find m i).map f := by
  induction m with
  | nil => rfl
  | cons e t ih =>
    obtain ⟨k, w⟩ := e
    by_cases h : k = i
    · simp [Sparse.adjust, Sparse.find, h]
    · have h' : ¬ i = k := fun x => h x.symm
      simp only [Sparse.adjust, List.map_cons, if_neg h, Sparse.find, if_neg h']
      split
      · rfl
      · exact ih

theorem Sparse.find_adjust_other (m : Sparse α) {i j : Nat} (f : α → α) (h : j ≠ i) :
    Sparse.find (Sparse.adjust m i f) j = Sparse.find m j := by
  induction m with
  | nil => rfl
  | cons e t ih =>
    obtain ⟨k, w⟩ := e
    have hh : Sparse.adjust ((k, w) :: t) i f = (if k = i then (k, f w) else (k, w)) :: Sparse.adjust t i f := rfl
    rw [hh]
    by_cases hk : k = i
    · subst hk
      simp only [if_true, Sparse.find, if_neg h, ih]
    · simp only [if_neg hk, Sparse.find, ih]

/-! ## The canonical form -/

section wf
variable [DecidableEq α] {d : α}

/-- The bound lies below `k`, where there is one. -/
abbrev Sparse.above (lo : Option Nat) (k : Nat) : Prop := ∀ l, lo = some l → l < k

theorem Sparse.wfFrom_cons {lo : Option Nat} {k : Nat} {v : α} {t : Sparse α} :
    Sparse.wfFrom d lo ((k, v) :: t) = true ↔ Sparse.above lo k ∧ v ≠ d ∧ Sparse.wfFrom d (some k) t = true := by
  cases lo <;> simp [Sparse.wfFrom, Sparse.above, and_assoc]

theorem Sparse.wfFrom_weaken {lo lo' : Option Nat} {m : Sparse α} (hl : ∀ k, Sparse.above lo k → Sparse.above lo' k)
    (h : Sparse.wfFrom d lo m = true) : Sparse.wfFrom d lo' m = true := by
  cases m with
  | nil => rfl
  | cons e t =>
    rw [Sparse.wfFrom_cons] at h ⊢
    exact ⟨hl _ h.1, h.2⟩

theorem Sparse.wfFrom_put {lo : Option Nat} {m : Sparse α} {i : Nat} {v : α} (hi : Sparse.above lo i) (hv : v ≠ d)
    (h : Sparse.wfFrom d lo m = true) : Sparse.wfFrom d lo (Sparse.put m i v) = true := by
  induction m generalizing lo with
  | nil => exact Sparse.wfFrom_cons.mpr ⟨hi, hv, rfl⟩
  | cons e t ih =>
    obtain ⟨k, w⟩ := e
    obtain ⟨h1, h2, h3⟩ := Sparse.wfFrom_cons.mp h
    unfold Sparse.put
    split
    · rename_i hik
      refine Sparse.wfFrom_cons.mpr ⟨hi, hv, Sparse.wfFrom_cons.mpr ⟨?_, h2, h3⟩⟩
      intro l hl
      simpa using Option.some.inj hl ▸ hik
    · split
      · exact Sparse.wfFrom_cons.mpr ⟨h1, hv, h3⟩
      · refine Sparse.wfFrom_cons.mpr ⟨h1, h2, ih ?_ h3⟩
        intro l hl
        cases hl
        omega

theorem Sparse.wfFrom_drop {lo : Option Nat} {m : Sparse α} {i : Nat} (h : Sparse.wfFrom d lo m = true) :
    Sparse.wfFrom d lo (Sparse.drop m i) = true := by
  induction m generalizing lo with
  | nil => rfl
  | cons e t ih =>
    obtain ⟨k, w⟩ := e
    obtain ⟨h1, h2, h3⟩ := Sparse.wfFrom_cons.mp h
    unfold Sparse.drop
    split
    · exact h
    · split
      · refine Sparse.wfFrom_weaken (fun j hj l hl => ?_) h3
        exact Nat.lt_trans (h1 l hl) (hj k rfl)
      · exact Sparse.wfFrom_cons.mpr ⟨h1, h2, ih h3⟩

theorem Sparse.wfFrom_filter {lo : Option Nat} {m : Sparse α} (p : Nat × α → Bool) (h : Sparse.wfFrom d lo m = true) :
    Sparse.wfFrom d lo (m.filter p) = true := by
  induction m generalizing lo with
  | nil => rfl
  | cons e t ih =>
    obtain ⟨k, w⟩ := e
    obtain ⟨h1, h2, h3⟩ := Sparse.wfFrom_cons.mp h
    rw [List.filter_cons]
    split
    · exact Sparse.wfFrom_cons.mpr ⟨h1, h2, ih h3⟩
    · refine Sparse.wfFrom_weaken (fun j hj l hl => ?_) (ih h3)
      exact Nat.lt_trans (h1 l hl) (hj k rfl)

theorem Sparse.wf_set {m : Sparse α} (i : Nat) (v : α) (h : Sparse.wf d m = true) : Sparse.wf d (Sparse.set d m i v) = true := by
  unfold Sparse.set
  split
  · exact Sparse.wfFrom_drop h
  · rename_i hv
    exact Sparse.wfFrom_put (fun _ hl => nomatch hl) hv h

theorem Sparse.wf_clear {m : Sparse α} (lo hi : Nat) (h : Sparse.wf d m = true) : Sparse.wf d (Sparse.clear m lo hi) = true :=
  Sparse.wfFrom_filter _ h

theorem Sparse.wf_setList {m : Sparse α} (i : Nat) (vs : List α) (h : Sparse.wf d m = true) :
    Sparse.wf d (Sparse.setList d m i vs) = true := by
  induction vs generalizing m i with
  | nil => exact h
  | cons v vs ih => exact ih _ (Sparse.wf_set i v h)

/-- Below every key of a canonical map nothing is listed. -/
theorem Sparse.get_below {m : Sparse α} {i j : Nat} (h : Sparse.wfFrom d (some i) m = true) (hj : j ≤ i) :
    Sparse.get d m j = d := by
  cases m with
  | nil => rfl
  | cons e t =>
    obtain ⟨k, w⟩ := e
    have hk := (Sparse.wfFrom_cons.mp h).1 i rfl
    have h1 : j ≠ k := by omega
    have h2 : j < k := by omega
    simp [Sparse.get, h1, h2]

theorem Sparse.get_drop_self {lo : Option Nat} {m : Sparse α} (i : Nat) (h : Sparse.wfFrom d lo m = true) :
    Sparse.get d (Sparse.drop m i) i = d := by
  induction m generalizing lo with
  | nil => rfl
  | cons e t ih =>
    obtain ⟨k, w⟩ := e
    obtain ⟨h1, h2, h3⟩ := Sparse.wfFrom_cons.mp h
    unfold Sparse.drop
    split
    · rename_i hik
      have : i ≠ k := by omega
      simp [Sparse.get, hik, this]
    · split
      · rename_i hik
        subst hik
        exact Sparse.get_below h3 (Nat.le_refl _)
      · rename_i ha hb
        simp only [Sparse.get, if_neg hb, if_neg ha, ih h3]

theorem Sparse.get_drop_other {lo : Option Nat} {m : Sparse α} {i j : Nat} (hj : j ≠ i) (h : Sparse.wfFrom d lo m = true) :
    Sparse.get d (Sparse.drop m i) j = Sparse.get d m j := by
  induction m generalizing lo with
  | nil => rfl
  | cons e t ih =>
    obtain ⟨k, w⟩ := e
    obtain ⟨h1, h2, h3⟩ := Sparse.wfFrom_cons.mp h
    unfold Sparse.drop
    split
    · rfl
    · split
      · rename_i hik
        subst hik
        by_cases hl : j < i
        · rw [Sparse.get_below h3 (Nat.le_of_lt hl)]
          simp [Sparse.get, hj, hl]
        · simp [Sparse.get, hj, hl]
      · simp only [Sparse.get, ih h3]

/-- A read after a write gives the value written. -/
theorem Sparse.get_set_self {m : Sparse α} (i : Nat) (v : α) (h : Sparse.wf d m = true) :
    Sparse.get d (Sparse.set d m i v) i = v := by
  unfold Sparse.set
  split
  · rename_i hv
    rw [Sparse.get_drop_self i h, hv]
  · exact Sparse.get_put_self d m i v

/-- A write leaves every other place as it was. -/
theorem Sparse.get_set_other {m : Sparse α} {i j : Nat} (v : α) (hj : j ≠ i) (h : Sparse.wf d m = true) :
    Sparse.get d (Sparse.set d m i v) j = Sparse.get d m j := by
  unfold Sparse.set
  split
  · exact Sparse.get_drop_other hj h
  · exact Sparse.get_put_other d m v hj

theorem Sparse.get_setList_outside {m : Sparse α} {i j : Nat} (vs : List α) (hj : j < i ∨ i + vs.length ≤ j)
    (h : Sparse.wf d m = true) : Sparse.get d (Sparse.setList d m i vs) j = Sparse.get d m j := by
  induction vs generalizing m i with
  | nil => rfl
  | cons v vs ih =>
    have hl : (v :: vs).length = vs.length + 1 := rfl
    rw [hl] at hj
    unfold Sparse.setList
    rw [ih (by omega) (Sparse.wf_set i v h), Sparse.get_set_other v (by omega) h]

theorem Sparse.get_setList_inside {m : Sparse α} {i j : Nat} (vs : List α) (hj : j < vs.length) (h : Sparse.wf d m = true) :
    Sparse.get d (Sparse.setList d m i vs) (i + j) = vs.getD j d := by
  induction vs generalizing m i j with
  | nil => exact absurd hj (Nat.not_lt_zero _)
  | cons v vs ih =>
    unfold Sparse.setList
    cases j with
    | zero =>
      rw [Sparse.get_setList_outside vs (Or.inl (by omega)) (Sparse.wf_set i v h), Nat.add_zero, Sparse.get_set_self i v h]
      rfl
    | succ j =>
      have he : i + (j + 1) = (i + 1) + j := by omega
      rw [he, ih (Nat.lt_of_succ_lt_succ hj) (Sparse.wf_set i v h)]
      rfl

end wf

/-! ## The device range (09 R242; 10 R280-R286) -/

/-- The bytes of the device range are in canonical form. -/
abbrev State.memWf (s : State) : Prop := Memory.wf 0 s.mem.bytes = true

theorem reset_memWf : State.reset.memWf := rfl

theorem storeBytes_memWf {s : State} (a : Nat) (bs : List Byte) (h : s.memWf) : (s.storeBytes a bs).memWf :=
  Sparse.wf_setList _ _ h

theorem storeGranule_memWf {s : State} (g : Nat) (bs : List Byte) (h : s.memWf) : (s.storeGranule g bs).memWf :=
  Sparse.wf_setList _ _ h

theorem dirty_bytes (s : State) (p : Nat) : (s.dirty p).mem.bytes = s.mem.bytes := rfl

theorem zeroPages_memWf {s : State} (p n : Nat) (h : s.memWf) : (s.zeroPages p n).memWf := Sparse.wf_clear _ _ h

theorem poison_bytes (s : State) (g : Nat) : (s.poison g).mem.bytes = s.mem.bytes := rfl

theorem cleanKey_bytes (s : State) (k : Nat) : (s.cleanKey k).mem.bytes = s.mem.bytes := rfl

theorem readZoneGranule_bytes (s : State) (g : Nat) (found : List Finding) :
    (s.readZoneGranule g found).2.mem.bytes = s.mem.bytes := by
  unfold State.readZoneGranule
  dsimp only
  split
  · split <;> rfl
  · rfl

theorem readGranule_memWf {s : State} (g : Nat) (found : List Finding) (wb : Bool) (h : s.memWf) :
    (s.readGranule g found wb).2.memWf := by
  unfold State.readGranule
  split
  · rw [State.memWf, readZoneGranule_bytes]
    exact h
  · split
    · exact h
    · exact h
    · dsimp only
      split
      · exact h
      · split
        · exact storeGranule_memWf _ _ h
        · exact h
    · rw [State.memWf, poison_bytes]
      exact h

theorem writeGranule_memWf {s : State} (g off : Nat) (bs : List Byte) (found : List Finding) (h : s.memWf) :
    (s.writeGranule g off bs found).memWf := by
  unfold State.writeGranule
  dsimp only
  split
  · exact storeGranule_memWf _ _ h
  · split
    · exact readGranule_memWf _ _ _ h
    · exact storeBytes_memWf _ _ (readGranule_memWf _ _ _ h)

theorem devWrite_memWf {s : State} (a : Nat) (bs : List Byte) (found : List Finding) (h : s.memWf) :
    (s.devWrite a bs found).memWf := by
  unfold State.devWrite
  generalize granuleCuts a bs = l
  induction l generalizing s with
  | nil => exact h
  | cons c l ih => exact ih (writeGranule_memWf _ _ _ _ h)

theorem poke_memWf {s : State} (a : Nat) (bs : List Byte) (h : s.memWf) : (s.poke a bs).memWf := devWrite_memWf _ _ _ h

theorem readRun_memWf (n g : Nat) (found : List Finding) (wb : Bool) {s : State} (h : s.memWf) :
    (readRun n g found wb s).2.memWf := by
  induction n generalizing g s with
  | zero => exact h
  | succ n ih =>
    unfold readRun
    exact ih (g + 1) (readGranule_memWf g found wb h)

theorem devRead_memWf {s : State} (a n : Nat) (found : List Finding) (h : s.memWf) : (s.devRead a n found).2.memWf := by
  unfold State.devRead
  exact readRun_memWf _ _ _ _ h

theorem freeKvPages_memWf {s : State} (ks : List Nat) (h : s.memWf) : (s.freeKvPages ks).memWf := by
  unfold State.freeKvPages
  induction ks generalizing s with
  | nil => exact h
  | cons k ks ih => exact ih (Sparse.wf_clear _ _ h)

/-! ## What a read or a write of the device range can change (10 R280-R286; 13 R377) -/

/-- `t` differs from `s` at most in memory and its error counters, and in what an uncorrectable zone block marks. -/
abbrev State.AccessesTo (s t : State) : Prop :=
  t = { s with mem := t.mem, ecc := t.ecc, life := t.life, fl := t.fl, evc := t.evc }

theorem AccessesTo.trans {s t u : State} (h : s.AccessesTo t) (k : t.AccessesTo u) : s.AccessesTo u := by
  rw [State.AccessesTo] at h k ⊢
  rw [k, h]

theorem readGranule_accesses (s : State) (g : Nat) (found : List Finding) (wb : Bool) :
    s.AccessesTo (s.readGranule g found wb).2 := by
  unfold State.readGranule State.readZoneGranule
  dsimp only
  repeat' split
  all_goals rfl

theorem writeGranule_accesses (s : State) (g off : Nat) (bs : List Byte) (found : List Finding) :
    s.AccessesTo (s.writeGranule g off bs found) := by
  have h0 : s.AccessesTo (s.dirty (g * 64 / pageBytes)) := rfl
  unfold State.writeGranule
  dsimp only
  split
  · rfl
  · have h1 := AccessesTo.trans h0 (readGranule_accesses (s.dirty (g * 64 / pageBytes)) g found true)
    split
    · exact AccessesTo.trans h1 rfl
    · exact AccessesTo.trans h1 rfl

theorem devWrite_accesses (s : State) (a : Nat) (bs : List Byte) (found : List Finding) :
    s.AccessesTo (s.devWrite a bs found) := by
  unfold State.devWrite
  generalize granuleCuts a bs = l
  suffices h : ∀ t : State, s.AccessesTo t →
      s.AccessesTo (l.foldl (fun s c => s.writeGranule c.1 c.2.1 c.2.2 found) t) from h s rfl
  induction l with
  | nil => exact fun t h => h
  | cons c l ih => exact fun t h => ih _ (AccessesTo.trans h (writeGranule_accesses _ _ _ _ _))

theorem poke_accesses (s : State) (a : Nat) (bs : List Byte) : s.AccessesTo (s.poke a bs) := devWrite_accesses _ _ _ _

theorem readRun_accesses (n g : Nat) (found : List Finding) (wb : Bool) (s : State) :
    s.AccessesTo (readRun n g found wb s).2 := by
  induction n generalizing g s with
  | zero => rfl
  | succ n ih => exact AccessesTo.trans (readGranule_accesses s g found wb) (ih (g + 1) _)

theorem devRead_accesses (s : State) (a n : Nat) (found : List Finding) : s.AccessesTo (s.devRead a n found).2 :=
  readRun_accesses _ _ _ _ _

theorem reply_memWf {s : State} (r : CmdRef) (st res : Nat) (h : s.memWf) : (s.reply r st res).memWf := by
  rw [State.memWf, reply_replies s r st res]
  exact h

theorem freeOwner_memWf {s : State} (o : Owner) (h : s.memWf) : (s.freeOwner o).memWf := by
  unfold State.freeOwner
  dsimp only
  generalize s.mem.allocs.filter (fun a => a.owner == o) = l
  suffices hh : ∀ u : State, u.memWf → (l.foldl (fun s a => s.zeroPages a.page a.pages) u).memWf from hh _ h
  intro u hu
  induction l generalizing u with
  | nil => exact hu
  | cons a l ih => exact ih _ (zeroPages_memWf _ _ hu)

end Sys2Proof.Machine
end

