-- ==== Sys2Proof/WellFormed.lean ====
section
/-!
DEFINITION. WellFormed.lean: the ranges of the operands of the commands: the numbers of cores, partitions, ports, queues,
zones and dies, the widths of register values and of instruction words. It is a check of terms: the meanings are total.
-/
namespace Sys2Proof
open Machine

/-- A computing core: 96 on four dies (01 R21). -/
def okCore (n : Nat) : Bool := decide (n < 96)

/-- An instruction is eight dwords (06 R155). -/
def okWord (w : IWord) : Bool := decide (w.length = 8)

/-- One of four: a partition (01 R23), a port (17 R496), a management core (20 R568). -/
def okFour (p : Nat) : Bool := decide (p < 4)

/-- One of 32: a watch (18 R530), an aperture (17 R507). -/
def okThirtyTwo (n : Nat) : Bool := decide (n < 32)

/-- A queue (14 R403). -/
def okQueue (q : Nat) : Bool := decide (q < 256)

/-- A 16-bit identifier: a CID (14 R407), a message tag (17 R502). -/
def okId16 (i : Nat) : Bool := decide (i < 65536)

/-- A command by queue and CID. -/
def okRef (r : CmdRef) : Bool := okQueue r.qid && okId16 r.cid

/-- A command with what is read of its buffers. -/
def okCmd (h : HostCmd) : Bool := okRef h.ref

/-- A 32-bit value. -/
def okV32 (v : Nat) : Bool := decide (v < 2 ^ 32)

/-- A 64-bit value. -/
def okV64 (v : Nat) : Bool := decide (v < 2 ^ 64)

/-- A zone (13 R364). -/
def okZone (z : Nat) : Bool := decide (z < 368640)

/-- A program unit of a zone: 16 blocks (13 R362). -/
def okUnit (u : Nat) : Bool := decide (u < 32768)

/-- A flash die: 96 channels of 16 (13 R361). -/
def okDie (d : Nat) : Bool := decide (d < 1536)

/-- A temperature sensor: a compute die, or the hub as 4 (19 R546). -/
def okSensor (d : Nat) : Bool := decide (d < 5)

/-- An event source (18 R526). -/
def okSource (n : Nat) : Bool := decide (n < 512)

/-- A signal cell (16 R490). -/
def okCell (n : Nat) : Bool := decide (n < 4096)

/-- A read of a packet: sixteen dwords (14 R406). -/
def okPacket (r : PacketRead) : Bool :=
  okQueue r.qid && match r.packet with | some ws => decide (ws.length = 16) | none => true

/-- An upset lies in the array with its checksum lines (04 R96). -/
def okUpset (u : Upset) : Bool := decide (u.row ≤ 256 ∧ u.col ≤ 256)

/-- A link width of a port: 1, 2 or 4 lanes (17 R496). -/
def okPeer (p : PortPeer) : Bool := [1, 2, 4].contains p.width && okId16 p.id

/-- The size of a register access (00 R14), at most 96 bytes for the sideband's key data (22 R615); of the sideband a 7-bit address and
the byte of the packet error code too (22 R613). -/
def okSize (sp : RegSpace) (size : Nat) : Bool :=
  match sp with
  | .bar0 => size == 4 || size == 8
  | .bar0Read => size == 4 || size == 8
  | .sideband addr pec => decide (addr < 128 ∧ pec < 256) && [1, 2, 4, 8, 16, 32, 96].contains size
  | .config => size == 2 || size == 4
  | .devControl => size == 2 || size == 4
  | .header => size == 4
  | .poisoned => true

/-- A register's value fits 64 bits, the sideband's key data aside (22 R615). -/
def okValue (sp : RegSpace) (v : Nat) : Bool :=
  match sp with
  | .sideband _ _ => decide (v < 2 ^ 768)
  | .bar0 | .bar0Read | .config | .devControl | .header | .poisoned => okV64 v

/-- An index (11 R300). -/
def okIndex (n : Nat) : Bool := decide (n < 64)

/-- A page of the device range: of the general or the flash window (09 R242). -/
def okPage (p : Nat) : Bool := decide (p < 2 ^ 48 / 2097152)

/-- An access of the host window: 1 to 4,096 bytes (09 R244). -/
def okTlp (n : Nat) : Bool := decide (1 ≤ n ∧ n ≤ 4096)

/-- A check of what is given, if anything. -/
def okOpt {α : Type} (f : α → Bool) (o : Option α) : Bool := match o with | some a => f a | none => true

/-- The operands of a command lie in their ranges. -/
def Instr.wf (i : Instr) : Bool :=
  match i with
  | .nop n w => okCore n && okWord w
  | .loop n w => okCore n && okWord w
  | .addx n w => okCore n && okWord w
  | .mulx n w => okCore n && okWord w
  | .test n w _ => okCore n && okWord w
  | .jump n w => okCore n && okWord w
  | .fence n w => okCore n && okWord w
  | .stepEnd n w => okCore n && okWord w
  | .halt n w => okCore n && okWord w
  | .trap n w => okCore n && okWord w
  | .stream n w => okCore n && okWord w
  | .table n w => okCore n && okWord w
  | .pass n w _ => okCore n && okWord w
  | .drain n w _ => okCore n && okWord w.val
  | .redOpen n w _ => okCore n && okWord w
  | .redFeed n w _ => okCore n && okWord w
  | .redFinish n w => okCore n && okWord w.val
  | .redStore n w => okCore n && okWord w.val
  | .topkOpen n w _ => okCore n && okWord w
  | .topkFeed n w _ => okCore n && okWord w
  | .topkMerge n w _ => okCore n && okWord w
  | .topkStore n w => okCore n && okWord w.val
  | .dmaIn n w _ => okCore n && okWord w
  | .dmaOut n w _ => okCore n && okWord w
  | .dmaGather n w _ => okCore n && okWord w
  | .dmaScatter n w _ => okCore n && okWord w
  | .dmaZone n w _ => okCore n && okWord w
  | .dmaComplete n _ => okCore n
  | .coreSigWait n w => okCore n && okWord w
  | .coreSigWaitComplete n => okCore n
  | .coreSigAdd n w => okCore n && okWord w
  | .pfHintStage n w => okCore n && okWord w
  | .pfHintDone n w => okCore n && okWord w
  | .layerMark n w => okCore n && okWord w
  | .pageCopyDone page _ => okPage page
  | .tileComplete n upsets => okCore n && upsets.val.all okUpset
  | .tileCompare n => okCore n.val
  | .slotLeave n => okCore n.val.val
  | .atomicPass p _ _ _ => okFour p
  | .querySearchPhase p _ => okFour p
  | .queryPostPhase p => okFour p
  | .coreBorrow p _ => okFour p
  | .jobDispatch p => okFour p.val
  | .cocoonWritten p => okFour p.val.val
  | .jobEnded p _ _ => okFour p
  | .faultDetect _ => true
  | .writebackDone p _ => okFour p
  | .bar2Read _ n _ => okTlp n
  | .bar2Write _ bytes _ => okTlp bytes.length
  | .scrubComplete qid cid _ => okQueue qid && okId16 cid
  | .backgroundScrubFrame _ => true
  | .reservedMemorySweep _ _ => true
  | .writeRaw => true
  | .readRaw => true
  | .readChecked _ => true
  | .eccTestDisable => true
  | .indexFeedConsume n => okIndex n.val
  | .compactionBuilt qid cid => okQueue qid && okId16 cid.val
  | .reclaimReset qid cid => okQueue qid && okId16 cid
  | .zoneSequence qid cid => okQueue qid && okId16 cid
  | .zoneReplyPoint z => okZone z
  | .zoneEraseComplete z _ => okZone z
  | .unitProgramComplete z u _ => okZone z && okUnit u
  | .dieSuspend d => okDie d
  | .dieResume d => okDie d
  | .holdupCheck _ => true
  | .journalCheckpoint => true
  | .readLevelCalibration d => okDie d
  | .powerLoss _ _ => true
  | .sqTailDoorbell qid v => okQueue qid && okV32 v
  | .cqHeadDoorbell qid v => okQueue qid && okV32 v
  | .commandFetch reads => reads.all okPacket
  | .commandBegin qid _ => okQueue qid
  | .genAqAttrWrite v => okV32 v
  | .queue0Restart v reads => okV64 v && reads.all okPacket
  | .coalesceTimer qid => okQueue qid
  | .functionLevelReset => true
  | .hotReset _ _ => true
  | .identify h => okCmd h
  | .logRead h => okCmd h
  | .featureGet h => okCmd h
  | .featureSet h _ => okCmd h
  | .fwDownload h => okCmd h
  | .fwCommit h => okCmd h
  | .fwCommitComplete => true
  | .fwActivate h => okCmd h
  | .imagoRestart _ => true
  | .selfTest h => okCmd h
  | .selfTestComplete _ => true
  | .protectionSet h _ => okCmd h
  | .partitionSet h => okCmd h
  | .layoutChange => true
  | .tallyQuery h => okCmd h
  | .queueCreate h => okCmd h
  | .queueDelete h => okCmd h
  | .queueRestart h reads => okCmd h && reads.all okPacket
  | .abort h _ => okCmd h
  | .zoneRead h => okCmd h
  | .zoneWrite h => okCmd h
  | .zoneAppend h => okCmd h
  | .zoneReset h => okCmd h
  | .zoneFinish h => okCmd h
  | .zoneReport h => okCmd h
  | .sfRead h => okCmd h
  | .sfProgram h => okCmd h
  | .sfErase h => okCmd h
  | .sfInfo h => okCmd h
  | .memAlloc h => okCmd h
  | .memFree h => okCmd h
  | .memMapZone h => okCmd h
  | .memUnmap h => okCmd h
  | .memQuery h => okCmd h
  | .memScrub h => okCmd h
  | .bundleLoad h _ _ => okCmd h
  | .bundleUnload h => okCmd h
  | .jobStart h => okCmd h
  | .jobEnd h => okCmd h
  | .jobPark h => okCmd h
  | .jobAbort h _ => okCmd h
  | .cocoonDiscard h => okCmd h
  | .seqJoin h => okCmd h
  | .seqFeed h => okCmd h
  | .seqLeave h => okCmd h
  | .seqStep h => okCmd h
  | .seqQuery h => okCmd h
  | .seqPolicy h => okCmd h
  | .indexCreate h => okCmd h
  | .indexDestroy h => okCmd h
  | .indexInsert h => okCmd h
  | .indexDelete h => okCmd h
  | .indexCommit h => okCmd h
  | .indexRebalance h => okCmd h
  | .indexCompact h => okCmd h
  | .indexRebuild h => okCmd h
  | .indexAddZones h => okCmd h
  | .indexInfo h => okCmd h
  | .query h => okCmd h
  | .queryMerge h => okCmd h
  | .filterLoad h => okCmd h
  | .filterFree h => okCmd h
  | .sigRead h => okCmd h
  | .sigSet h => okCmd h
  | .sigAdd h => okCmd h
  | .sigWait h => okCmd h
  | .sigWaitTimeout qid cid => okQueue qid && okId16 cid
  | .sigCellWrite n v => okCell n && okV64 v
  | .portTrain p => okFour p
  | .portTrained p peer => okFour p && okOpt okPeer peer
  | .laneLockLoss p => okFour p
  | .fastRetrainDone p peer => okFour p && okOpt okPeer peer
  | .flitReceive p _ => okFour p
  | .wlRead _ => true
  | .wlWrite _ => true
  | .wlSigRead => true
  | .wlSigSet => true
  | .wlSigAdd => true
  | .wlSigWait => true
  | .readData => true
  | .writeAck => true
  | .sigData => true
  | .heartbeatSend => true
  | .heartbeat p => okFour p
  | .heartbeatLoss p => okFour p
  | .linkDown => true
  | .departing => true
  | .peerJobFault => true
  | .requestTimeout tag => okId16 tag
  | .watchRenew => true
  | .watchResend tag => okId16 tag
  | .routeWrite v => okV32 v
  | .portDisable p => okFour p
  | .retrain p => okFour p
  | .apertureEnable a v => okThirtyTwo a && okV32 v
  | .cablePresent p _ => okFour p
  | .evcEoi n => okSource n
  | .msixEmission => true
  | .mgmtVectorFetch c _ => okFour c
  | .watchCtrlWrite w v => okThirtyTwo w && okV32 v
  | .antennaWake _ => true
  | .sbWake => true
  | .idleTimerPs1 => true
  | .idleTimerPs2 => true
  | .idleTimerPs3 => true
  | .entryStepDone _ => true
  | .powerWake _ => true
  | .pwrCtrlWrite v => okV32 v
  | .dStateChange _ _ => true
  | .powerLimitTick _ _ vcore rate => decide (vcore.length = 4) && decide (rate.length = 4)
  | .thermalTick d _ => okSensor d
  | .thermalTrip d _ => okFour d
  | .hubThermalHold _ => true
  | .hubHoldEnd _ => true
  | .hubShutdown _ _ _ => true
  | .watchdogExpiry c begun => okFour c && begun.all okRef
  | .autoReset _ _ => true
  | .fltReset v _ _ => okV32 v
  | .perstAssert _ _ => true
  | .pwrenLow _ _ => true
  | .lifetimeSnapshot _ => true
  | .startupStage _ _ _ _ => true
  | .senseMake => true
  | .senseBreak _ _ => true
  | .inputRangeChange _ => true
  | .inputOvervoltage _ _ _ => true
  | .sbKeyInstall _ => true
  | .sbKeyRemove _ => true
  | .bypass => true
  | .idcode => true
  | .samplePreload _ _ => true
  | .extest _ _ => true
  | .clamp => true
  | .highz => true
  | .debugInstruction => true
  | .registerWrite space _ size v => okSize space size && okValue space v
  | .perstDeassert _ _ => true
  | .pwrenHigh => true
  | .flashReadComplete _ _ _ => true
  | .sfOperationComplete => true
  | .auxPowerChange _ _ => true

end Sys2Proof
end

