-- ==== Sys2Proof/Tests/Slice0.lean ====
section
/-!
SUPPORT. Slice0.lean: small tests. A term that each check of WellFormed refuses, and for each statement of Obligations.lean
states and operands that meet its hypotheses (a theorem's name ends in its statement's subject), with what the command
leaves where the spec gives it. Expected values are computed by hand from the rules named.
-/
namespace Sys2Proof.Tests
set_option Elab.async false
open Machine

/-- The command answers a next state, of which `f` holds. -/
def nextIs (o : Out) (f : State → Bool) : Bool := match o with | .next t => f t | _ => false

/-- An instruction word from its dwords (06 R155). -/
def iw (a b c d e f g h : Nat) : IWord := [a, b, c, d, e, f, g, h].map (BitVec.ofNat 32)

/-- A job of partition 0 whose cores are 0 and 1. -/
def job1 : Run :=
  { number := 5, bundle := 3, cmd := ⟨1, 7⟩, seq := 4, priority := 0, shadow := false, grants := [], binds := [], cores := [0, 1] }

/-- The module with job `r` in partition 0. -/
def withJob (r : Run) (s : State) : State :=
  { s with jobs := { s.jobs with parts := [{ job := some r }, {}, {}, {}] } }

/-- Core 0 of a running job stands at `w`, as `c` gives the core. -/
def at1 (w : IWord) (c : Core) : State :=
  withJob job1 { State.reset with cores := { c with store := [w], pc := 0, run := .running } :: List.replicate 95 {} }

/-- A result of which `f` holds, or the error `e`. -/
def excIs {α : Type} (x : Except Nat α) (f : α → Bool) (e : Nat) : Bool := match x with | .ok a => f a | .error k => k == e

/-! ## The checks of WellFormed -/

theorem test_wf_core : Instr.wf (.nop 95 (iw 0 0 0 0 0 0 0 0)) = true ∧ Instr.wf (.nop 96 (iw 0 0 0 0 0 0 0 0)) = false := by decide
theorem test_wf_word : Instr.wf (.nop 0 (List.replicate 7 0)) = false := by decide
theorem test_wf_four : Instr.wf (.jobDispatch ⟨3, []⟩) = true ∧ Instr.wf (.jobDispatch ⟨4, []⟩) = false := by decide
theorem test_wf_thirty_two : Instr.wf (.watchCtrlWrite 32 0) = false := by decide
theorem test_wf_queue : Instr.wf (.coalesceTimer 255) = true ∧ Instr.wf (.coalesceTimer 256) = false := by decide
theorem test_wf_id16 : Instr.wf (.requestTimeout 65536) = false := by decide
theorem test_wf_ref : Instr.wf (.watchdogExpiry 0 [⟨256, 0⟩]) = false := by decide
theorem test_wf_command : Instr.wf (.zoneRead ⟨0, 65535, [], []⟩) = true ∧ Instr.wf (.zoneRead ⟨0, 65536, [], []⟩) = false := by decide
theorem test_wf_value32 : Instr.wf (.routeWrite (2 ^ 32)) = false := by decide
theorem test_wf_value64 : Instr.wf (.sigCellWrite 0 (2 ^ 64)) = false := by decide
theorem test_wf_zone : Instr.wf (.zoneReplyPoint 368639) = true ∧ Instr.wf (.zoneReplyPoint 368640) = false := by decide
theorem test_wf_unit : Instr.wf (.unitProgramComplete 0 32768 true) = false := by decide
theorem test_wf_die : Instr.wf (.dieSuspend 1535) = true ∧ Instr.wf (.dieSuspend 1536) = false := by decide
theorem test_wf_sensor : Instr.wf (.thermalTick 4 0) = true ∧ Instr.wf (.thermalTick 5 0) = false := by decide
theorem test_wf_source : Instr.wf (.evcEoi 511) = true ∧ Instr.wf (.evcEoi 512) = false := by decide
theorem test_wf_cell : Instr.wf (.sigCellWrite 4095 0) = true ∧ Instr.wf (.sigCellWrite 4096 0) = false := by decide
theorem test_wf_packet : Instr.wf (.commandFetch [⟨0, 0, some (List.replicate 15 0)⟩]) = false := by decide
theorem test_wf_upset : Instr.wf (.tileComplete 0 ⟨[⟨256, 256, 0⟩], []⟩) = true ∧ Instr.wf (.tileComplete 0 ⟨[⟨257, 0, 0⟩], []⟩) = false := by
  decide
theorem test_wf_peer : Instr.wf (.portTrained 0 (some ⟨1, 0, 1, 4, 4⟩)) = true ∧
    Instr.wf (.portTrained 0 (some ⟨1, 0, 1, 4, 3⟩)) = false := by decide
theorem test_wf_size : Instr.wf (.registerWrite .bar0 0 8 0) = true ∧ Instr.wf (.registerWrite .bar0 0 2 0) = false := by decide
theorem test_wf_index : Instr.wf (.indexFeedConsume ⟨63, []⟩) = true ∧ Instr.wf (.indexFeedConsume ⟨64, []⟩) = false := by decide
theorem test_wf_page : Instr.wf (.pageCopyDone 134217727 []) = true ∧ Instr.wf (.pageCopyDone 134217728 []) = false := by decide
theorem test_wf_tlp : Instr.wf (.bar2Read 0 4096 []) = true ∧ Instr.wf (.bar2Read 0 0 []) = false := by decide
theorem test_wf_limit_readings : Instr.wf (.powerLimitTick 0 0 [0, 0, 0] [0, 0, 0, 0]) = false := by decide
theorem test_wf_absent_operand : Instr.wf (.portTrained 3 none) = true := by decide

/-! ## Control and slots (06 R152-R163, R182, R183) -/

theorem test_nop : Issues (at1 (iw 0 0 0 0 0 0 0 0) {}) 0 (iw 0 0 0 0 0 0 0 0) 0x00 job1 ∧
    nextIs (exec (.nop 0 (iw 0 0 0 0 0 0 0 0)) (at1 (iw 0 0 0 0 0 0 0 0) {})) (fun t => (t.core 0).pc == 1) = true := by decide

/-- X1 = 0xFFFFFFFF: ADDX X2 = X1 + 2 wraps to 1. -/
def addxW : IWord := iw 0x010202 0 2 0 0 0 0 0
def x1Core : Core := { x := [0, 0xFFFFFFFF, 0, 0, 0, 0, 0, 0, 0, 0, 0, 0, 0, 0, 0, 0] }
theorem test_addx_wraps : Issues (at1 addxW x1Core) 0 addxW 0x02 job1 ∧
    nextIs (exec (.addx 0 addxW) (at1 addxW x1Core)) (fun t => getX (t.core 0) 2 == 1 && (t.core 0).pc == 1) = true := by decide

/-- MULX X2 = X1 × 3: the low 32 bits of 0x2FFFFFFFD. -/
def mulxW : IWord := iw 0x010203 0 3 0 0 0 0 0
theorem test_mulx_low_half : Issues (at1 mulxW x1Core) 0 mulxW 0x03 job1 ∧
    nextIs (exec (.mulx 0 mulxW) (at1 mulxW x1Core)) (fun t => getX (t.core 0) 2 == 0xFFFFFFFD) = true := by decide

def jumpW : IWord := iw 0x05 0 0 4095 0 0 0 0
theorem test_jump_top : Issues (at1 jumpW {}) 0 jumpW 0x05 job1 ∧
    nextIs (exec (.jump 0 jumpW) (at1 jumpW {})) (fun t => (t.core 0).pc == 4095) = true := by decide

/-- LOOP with its count in X1. -/
def loopW : IWord := iw 0x1101 0x30000 0 0 0 0 0 0
def loopCore (k : Nat) : Core := { x := [0, k, 0, 0, 0, 0, 0, 0, 0, 0, 0, 0, 0, 0, 0, 0] }
theorem test_loop_count_bounds :
    Issues (at1 loopW (loopCore 16777216)) 0 loopW 0x01 job1 ∧ getX ((at1 loopW (loopCore 16777216)).core 0) 1 = 16777216 ∧
      nextIs (exec (.loop 0 loopW) (at1 loopW (loopCore 16777216))) (fun t => (t.core 0).run == .stopped) = true ∧
    Issues (at1 loopW (loopCore 16777215)) 0 loopW 0x01 job1 ∧
      nextIs (exec (.loop 0 loopW) (at1 loopW (loopCore 16777215)))
        (fun t => (t.core 0).pc == 1 && (t.core 0).loops == [⟨1, 4, 16777215, 0, 0⟩]) = true := by decide
theorem test_loop_zero_skips : Issues (at1 loopW (loopCore 0)) 0 loopW 0x01 job1 ∧ getX ((at1 loopW (loopCore 0)).core 0) 1 = 0 ∧
    nextIs (exec (.loop 0 loopW) (at1 loopW (loopCore 0))) (fun t => (t.core 0).pc == 4 && (t.core 0).loops == []) = true := by
  decide

theorem test_index_registers : 0 < 15 ∧ 15 < ({} : Core).x.length ∧ getX (setX {} 15 (2 ^ 32 + 9)) 15 = 9 ∧
    setX {} 0 7 = {} := by decide

/-- TEST of word 1 at offset 4 with mask 1, for SENSE and ACTION. -/
def testW (sense action off : Nat) : IWord := iw (0x04 + 0x2000 * sense + 0x1000 * action) off 1 77 0 0 0 0
def wordCore : Core := { spad := [(4, 3)] }
theorem test_test_branches :
    Issues (at1 (testW 0 0 4) wordCore) 0 (testW 0 0 4) 0x04 job1 ∧ effOff wordCore 4 0 4 = some 4 ∧
      nextIs (exec (.test 0 (testW 0 0 4) []) (at1 (testW 0 0 4) wordCore)) (fun t => (t.core 0).pc == 77) = true ∧
    Issues (at1 (testW 1 0 4) wordCore) 0 (testW 1 0 4) 0x04 job1 ∧
      nextIs (exec (.test 0 (testW 1 0 4) []) (at1 (testW 1 0 4) wordCore)) (fun t => (t.core 0).pc == 1) = true := by decide
theorem test_test_faults :
    Issues (at1 (testW 0 1 4) wordCore) 0 (testW 0 1 4) 0x04 job1 ∧
      nextIs (exec (.test 0 (testW 0 1 4) []) (at1 (testW 0 1 4) wordCore))
        (fun t => t.flt.detections.map (·.info.reason) == [reasonTrap]) = true ∧
    Issues (at1 (testW 0 0 2) wordCore) 0 (testW 0 0 2) 0x04 job1 ∧ effOff wordCore 2 0 4 = none ∧
      nextIs (exec (.test 0 (testW 0 0 2) []) (at1 (testW 0 0 2) wordCore))
        (fun t => t.flt.detections.map (·.info.reason) == [reasonAddress]) = true := by decide

/-- A DMA of one granule into the scratchpad at 0, which executes. -/
def dmaAt0 : Dma :=
  { kind := .into, rows := [⟨0, pageBytes, false⟩], grans := 1, data := [], bad := [], started := true, far := [], tags := [], got := [],
    pc := 0, instr := [] }
def waitCore : Core := { wordCore with dma := [dmaAt0] }
/-- TEST waits for the DMA that writes its word, and for a queued one that is to write it (R179). -/
theorem test_test_waits :
    Issues (at1 (testW 0 0 4) waitCore) 0 (testW 0 0 4) 0x04 job1 ∧ stalls waitCore [(4, 4)] = true ∧
      nextIs (exec (.test 0 (testW 0 0 4) []) (at1 (testW 0 0 4) waitCore)) (fun t => (t.core 0).pc == 0) = true := by decide
def laterCore : Core := { wordCore with queue := [⟨iw 0x60 0 pageBytes 0 1 1 0 0, 0, List.replicate 16 0, [], []⟩] }
theorem test_test_waits_queued :
    Issues (at1 (testW 0 0 4) laterCore) 0 (testW 0 0 4) 0x04 job1 ∧ stalls laterCore [(4, 4)] = false ∧
      (laterCore.queue.any fun e => meetAny (footOf none (e.on laterCore) e.instr).writes [(4, 4)]) = true ∧
      nextIs (exec (.test 0 (testW 0 0 4) []) (at1 (testW 0 0 4) laterCore)) (fun t => (t.core 0).pc == 0) = true := by decide

def fenceW : IWord := iw 0x06 0 0 0 0 0 0 0
def addCore : Core := { adds := [⟨9, 1, 1, 0, some 3⟩] }
theorem test_fence :
    Issues (at1 fenceW {}) 0 fenceW 0x06 job1 ∧ quiet {} = true ∧
      nextIs (exec (.fence 0 fenceW) (at1 fenceW {})) (fun t => (t.core 0).pc == 1) = true ∧
    Issues (at1 fenceW addCore) 0 fenceW 0x06 job1 ∧ quiet addCore = false ∧
      nextIs (exec (.fence 0 fenceW) (at1 fenceW addCore)) (fun t => (t.core 0).pc == 0) = true := by decide

def trapW : IWord := iw 0x09 0xABCD 0 0 0 0 0 0
theorem test_trap_code : Issues (at1 trapW {}) 0 trapW 0x09 job1 ∧
    nextIs (exec (.trap 0 trapW) (at1 trapW {})) (fun t => (t.core 0).run == .stopped &&
      t.flt.detections.map (fun d => (d.info.status, d.info.code)) == [(0x0510, 0xABCD)]) = true := by decide

/-- Core 1 of the job has arrived, as `m` says. -/
def with1 (m : CoreRun) (s : State) : State := s.setCore 1 fun c => { c with run := m }
def stepW : IWord := iw 0x07 0 0 0 0 0 0 0
def haltW : IWord := iw 0x08 0 0 0 0 0 0 0
/-- A tile without a drain. -/
def grp1 : Group :=
  { rows := 1, cols := 1, rowMask := [], colMask := [], fmtRow := 0, fmtCol := 0, passes := 1, gbase := 0, total := 1,
    rowL := [l2One], colL := [l2One], cells := [[⟨6, false⟩]], ckCol := [6], ckRow := [6], corner := 6, poison := false, own := false,
    recs := [] }
def tile1 : Tile :=
  { seq := 0, grp := grp1, phase := .completing, drain := none, retry := false, mm := none, skipped := false,
    pc := 0, instr := [] }
theorem test_step_end_waits :
    Issues (at1 stepW { tiles := [tile1] }) 0 stepW 0x07 job1 ∧ undrained { tiles := [tile1] } = true ∧
    Issues (at1 stepW addCore) 0 stepW 0x07 job1 ∧ undrained addCore = false ∧ quiet addCore = false ∧
    Issues (at1 stepW {}) 0 stepW 0x07 job1 ∧ undrained {} = false ∧ quiet {} = true ∧
      ((at1 stepW {}).core 1).run ≠ .atStepEnd ∧ ((at1 stepW {}).core 1).run ≠ .halted := by decide
theorem test_step_end_boundary :
    Issues (with1 .atStepEnd (at1 stepW {})) 0 stepW 0x07 job1 ∧
      nextIs (exec (.stepEnd 0 stepW) (with1 .atStepEnd (at1 stepW {}))) (fun t => (t.run 0).map (·.phase) == some .boundary) = true ∧
      nextIs (exec (.stepEnd 0 stepW) (with1 .halted (at1 stepW {})))
        (fun t => t.flt.detections.map (·.info.reason) == [reasonMismatch]) = true := by decide
theorem test_halt_ends :
    Issues (with1 .halted (at1 haltW {})) 0 haltW 0x08 job1 ∧
      nextIs (exec (.halt 0 haltW) (with1 .halted (at1 haltW {}))) (fun t => (t.run 0).map (·.state) == some .ending) = true ∧
    Issues (at1 haltW { tiles := [tile1] }) 0 haltW 0x08 job1 ∧
      nextIs (exec (.halt 0 haltW) (at1 haltW { tiles := [tile1] }))
        (fun t => t.flt.detections.map (·.info.reason) == [reasonGroup]) = true := by decide

/-- STREAM: slot 2, elements at 64, level-one codes at 8, level-two codes at 2; and one with an odd element offset. -/
def streamW (off : Nat) : IWord := iw 0x0210 off 64 8 0 2 0 0
theorem test_stream :
    Issues (at1 (streamW 64) {}) 0 (streamW 64) 0x10 job1 ∧ effOff {} 64 0 64 = some 64 ∧ effOff {} 8 0 8 = some 8 ∧
      effOff {} 2 0 2 = some 2 ∧
      nextIs (exec (.stream 0 (streamW 64)) (at1 (streamW 64) {}))
        (fun t => Sparse.find (t.core 0).slots 2 == some ⟨0, 0, 0, 64, 64, 8, 0, 2, 0⟩) = true ∧
    Issues (at1 (streamW 65) {}) 0 (streamW 65) 0x10 job1 ∧ effOff {} 65 0 64 = none := by decide
/-- Level-one codes at 9, level-two codes at 3: R157 refuses each. -/
def streamBad1 : IWord := iw 0x0210 64 64 9 0 2 0 0
def streamBad2 : IWord := iw 0x0210 64 64 8 0 3 0 0
theorem test_stream_levels :
    Issues (at1 streamBad1 {}) 0 streamBad1 0x10 job1 ∧ effOff {} 64 0 64 = some 64 ∧ effOff {} 9 0 8 = none ∧
      nextIs (exec (.stream 0 streamBad1) (at1 streamBad1 {}))
        (fun t => t.flt.detections.map (fun d => (d.info.reason, d.info.addr)) == [(reasonAddress, 9)]) = true ∧
    Issues (at1 streamBad2 {}) 0 streamBad2 0x10 job1 ∧ effOff {} 8 0 8 = some 8 ∧ effOff {} 3 0 2 = none ∧
      nextIs (exec (.stream 0 streamBad2) (at1 streamBad2 {}))
        (fun t => t.flt.detections.map (fun d => (d.info.reason, d.info.addr)) == [(reasonAddress, 3)]) = true := by decide

/-! ## Bundles, the array, reductions (06 R163-R170; 04; 05) -/

/-- A requantisation table at 0x1000 with 32 channels, to N4 rows without scales. -/
def table1 : ReqTable :=
  { addr := 0x1000, biasExp := 0, lutMask := 0, fmt := 0, layout := 2, clipRatio := 0, stochastic := false, clipThresh := 0,
    adapt := 0, tensor := 0, chans := List.replicate 32 ⟨1, 0, 0⟩ }

/-- A bundle of handle 3, of kind `kind`. -/
def bundle1 (kind : Nat) : Bundle :=
  { handle := 3, release := 0, listed := true, kind := kind, adapter := false, partSizes := 7, id := 0,
    res := ⟨0, 0, 0, 0, 0, 0, 0, 0, 0, 0⟩,
    view := { programs := [[iw 0x08 0 0 0 0 0 0 0]], stepEntry := 0, postEntry := 0xFFFF, rankMap := [], declared := [], placed := [],
              tableAddrs := [0x1000], scaleBase := 0, codes := [], operators := [], acyclic := true, tensors := [],
              kv := [], queryDim := 0, weights := [] },
    kv := some ⟨64, 100, 50, 0⟩,
    tables := [table1], luts := [], cals := [], refs := [],
    sched := { lead := 0, cyclic := false, lsw := 0, lswEn := false, stagePages := 0, layers := [], ranges := [] },
    hasShadow := false, shadowBase := none, live := [], maps := [] }
def withBundle (kind : Nat) (s : State) : State := { s with jobs := { s.jobs with bundles := [bundle1 kind] } }

def tableW (a : Nat) : IWord := iw 0x0511 a 0 0 0 0 0 0
theorem test_table :
    Issues (withBundle 0 (at1 (tableW 0x1000) {})) 0 (tableW 0x1000) 0x11 job1 ∧
      nextIs (exec (.table 0 (tableW 0x1000)) (withBundle 0 (at1 (tableW 0x1000) {})))
        (fun t => Sparse.find (t.core 0).tables 5 == some 0x1000) = true ∧
    Issues (withBundle 0 (at1 (tableW 0x1001) {})) 0 (tableW 0x1001) 0x11 job1 ∧
      nextIs (exec (.table 0 (tableW 0x1001)) (withBundle 0 (at1 (tableW 0x1001) {})))
        (fun t => t.flt.detections.map (·.info.reason) == [reasonDevice]) = true := by decide

/-- N4 rows without scales: the row of slot 0 holds 3, 2 and that of slot 1 holds 5, 4. -/
def slotAt (o : Nat) : Slot := ⟨0, 2, 0, o, 64, 0, 0, 0, 0⟩
def opCore : Core := { spad := [(0, 0x23), (64, 0x45)], slots := [(0, slotAt 0), (1, slotAt 64)] }
/-- PASS of 1 × 1 outputs over K = 2; `flags`: CONT 1, HOLD 2. -/
def passW (flags k : Nat) : IWord := iw (0x1020 + 0x10000 * flags) 0x0201 k 0 0 0 0 0
def passOp (flags k : Nat) : PassArgs := passArgs opCore (passW flags k) (slotAt 0) (slotAt 64)
theorem test_pass_accumulates :
    Issues (at1 (passW 2 2) opCore) 0 (passW 2 2) 0x20 job1 ∧ passReason (passW 2 2) (passOp 2 2) = none ∧
      (passOp 2 2).masks = none ∧ (passOp 2 2).chain = none ∧ fits (passRanges (passOp 2 2)) = true ∧
      stalls opCore (passRanges (passOp 2 2)) = false ∧ opCore.rawCheck = [] ∧ groupOk opCore (passOp 2 2) [] [] = true ∧
      nextIs (exec (.pass 0 (passW 2 2) []) (at1 (passW 2 2) opCore))
        (fun t => (t.core 0).group.map (·.cells) == some [[⟨3 * 5 + 2 * 4, false⟩]]) = true := by decide
theorem test_pass_delivers :
    Issues (at1 (passW 0 2) opCore) 0 (passW 0 2) 0x20 job1 ∧
      nextIs (exec (.pass 0 (passW 0 2) []) (at1 (passW 0 2) opCore))
        (fun t => (t.core 0).tiles.map (·.grp.cells) == [[[⟨23, false⟩]]] && (t.core 0).group.isNone) = true ∧
    Issues (at1 (passW 0 0) opCore) 0 (passW 0 0) 0x20 job1 ∧ passReason (passW 0 0) (passOp 0 0) = some reasonFieldRange ∧
    Issues (at1 (passW 1 2) opCore) 0 (passW 1 2) 0x20 job1 ∧ groupOk opCore (passOp 1 2) [] [] = false ∧
    Issues (at1 (passW 0 2) {}) 0 (passW 0 2) 0x20 job1 ∧ Sparse.find ({} : Core).slots 0 = none := by decide
/-- PASS with a chain-in frame at 128: kind 5, one value 7; and one whose header is all zero. -/
def chainW : IWord := iw 0x421020 0x0201 2 0 0 128 0 0
def frame1 : List Byte := hdrBytes ⟨5, false, false, 0, 0, 1, 1, 0⟩ ++ leBytes 8 7
def chainCore (good : Bool) : Core :=
  { opCore with spad := if good then Sparse.setList 0 opCore.spad 128 frame1 else opCore.spad }
theorem test_pass_chain_in :
    Issues (at1 chainW (chainCore true)) 0 chainW 0x20 job1 ∧
      excIs (chainIn (chainCore true) chainW (passArgs (chainCore true) chainW (slotAt 0) (slotAt 64)) 128) (· == [[7]]) 0 = true ∧
      nextIs (exec (.pass 0 chainW []) (at1 chainW (chainCore true)))
        (fun t => (t.core 0).group.map (·.cells) == some [[⟨30, false⟩]]) = true ∧
    Issues (at1 chainW (chainCore false)) 0 chainW 0x20 job1 ∧
      excIs (chainIn (chainCore false) chainW (passArgs (chainCore false) chainW (slotAt 0) (slotAt 64)) 128) (fun _ => false)
        reasonChainFormat = true := by decide

/-- A PASS whose slot's elements a DMA still writes waits in the array's queue; a later one waits behind it; it then executes with the
registers of its issue, and the sequencer's PC stays (R177-R179). -/
def waitPass : Core := { opCore with dma := [dmaAt0] }
def queuedPass (d : List Dma) : Core :=
  { opCore with dma := d, queue := [⟨passW 2 2, 0, List.replicate 16 0, opCore.slots, []⟩] }
theorem test_unit_queue_enters :
    Stands (at1 (passW 2 2) waitPass) 0 (passW 2 2) 0x20 job1 ∧ waitPass.queued (unitOf 0x20) = [] ∧
      hazard (lswOf (at1 (passW 2 2) waitPass) job1) waitPass waitPass.queue (passW 2 2) = true ∧
      nextIs (exec (.pass 0 (passW 2 2) []) (at1 (passW 2 2) waitPass))
        (fun t => (t.core 0).queue.length == 1 && (t.core 0).pc == 1 && (t.core 0).group.isNone) = true ∧
    Stands (at1 (passW 3 2) (queuedPass [])) 0 (passW 3 2) 0x20 job1 ∧
      (queuedPass []).queued (unitOf 0x20) = [⟨passW 2 2, 0, List.replicate 16 0, opCore.slots, []⟩] ∧ passW 2 2 ≠ passW 3 2 ∧
      nextIs (exec (.pass 0 (passW 3 2) []) (at1 (passW 3 2) (queuedPass [])))
        (fun t => (t.core 0).queue.length == 2 && (t.core 0).pc == 1) = true := by decide
def queuedAt1 : State := (at1 (passW 2 2) (queuedPass [])).setCore 0 fun c => { c with pc := 1 }
theorem test_unit_queue_runs :
    (queuedAt1.core 0).queued (unitOf 0x20) = [⟨passW 2 2, 0, List.replicate 16 0, opCore.slots, []⟩] ∧
      Issues (queuedAt1.setCore 0 fun c => { (⟨passW 2 2, 0, List.replicate 16 0, opCore.slots, []⟩ : Issued).on c with queue := [] }) 0
        (passW 2 2) 0x20 job1 ∧
      nextIs (exec (.pass 0 (passW 2 2) []) queuedAt1) (fun t => (t.core 0).queue == [] && (t.core 0).pc == 1 &&
        (t.core 0).group.map (·.cells) == some [[⟨23, false⟩]]) = true := by decide

theorem test_cells :
    cellRun true ⟨0, false⟩ 0 [(3, 5), (2, 4)] = ⟨23, false⟩ ∧ cellRun false ⟨9, true⟩ 0 [(1, 1)] = ⟨9, true⟩ ∧
      cellRun true ⟨2 ^ 39 - 2, false⟩ 0 [(1, 1)] = ⟨2 ^ 39 - 1, true⟩ ∧ compareTile grp1 = none ∧
      compareTile (upset grp1 ⟨0, 0, 0⟩) = some (0, 0) := by decide
theorem test_checksums : grp1.checked ∧ groupSat grp1 = false ∧ groupSat (addPass grp1 [[1]] [[2]] 0 1 true false false) = false ∧
    (addPass grp1 [[1]] [[2]] 0 1 true false false).cells = [[⟨8, false⟩]] ∧
    (addPass grp1 [[1]] [[2]] 0 1 true false false).checked := by
  unfold Group.checked; decide

/-- DRAIN of route `route`, status word at 256. -/
def drainW (route : Nat) : IWord := iw (0x30 + 0x100 * route + 0x8000000) 256 0 0 0 0 0 0
def tileCore : Core :=
  { tiles := [tile1], slots := [(8, slotAt 512)], tables := [(0, 0x1000)], ctxs := [(0, freshCtx .sum 0 0)] }
def drainS (w : IWord) (c : Core) : State := withBundle 0 (at1 w c)
/-- The entry of channel 0 gives rows of layout 2; in the empty memory it gives layout 0, which the slot's does not fit. -/
def entryS : State := { drainS (drainW 0) tileCore with mem := { State.reset.mem with bytes := [(0x1019, 2)] } }
theorem test_drain_requantise :
    Issues entryS 0 (drainW 0) 0x30 job1 ∧ effOff tileCore 256 0 4 = some 256 ∧
      requantArgs job1 (bundle1 0) tileCore (drainW 0) = some ⟨slotAt 512, table1, 0⟩ ∧
      fits (requantRanges (slotAt 512) 1 1 0) = true ∧
      nextIs (exec (.drain 0 ⟨(drainW 0), []⟩ []) entryS)
        (fun t => ((t.core 0).tiles.map fun t => t.drain.map fun d => d.table.map (·.layout)) == [some (some 2)]) = true ∧
      nextIs (exec (.drain 0 ⟨(drainW 0), []⟩ []) (drainS (drainW 0) tileCore))
        (fun t => t.flt.detections.map (·.info.reason) == [reasonFieldRange]) = true ∧
    Issues (drainS (drainW 0) {}) 0 (drainW 0) 0x30 job1 := by decide
theorem test_drain_routes :
    Issues (drainS (drainW 1) tileCore) 0 (drainW 1) 0x30 job1 ∧
      nextIs (exec (.drain 0 ⟨(drainW 1), []⟩ []) (drainS (drainW 1) tileCore))
        (fun t => ((t.core 0).tiles.map fun t => t.drain.map (·.route)) == [some 1]) = true ∧
    Issues (drainS (drainW 2) tileCore) 0 (drainW 2) 0x30 job1 ∧ effOff tileCore 0 0 64 = some 0 ∧
      nextIs (exec (.drain 0 ⟨(drainW 2), []⟩ []) (drainS (drainW 2) tileCore))
        (fun t => ((t.core 0).tiles.map fun t => t.drain.map (·.status)) == [some 256]) = true ∧
    Issues (drainS (drainW 3) tileCore) 0 (drainW 3) 0x30 job1 := by decide

/-- A raw drain attached to a tile in phase `ph`. -/
def drain1 : DrainInfo :=
  { route := 2, frame := false, dest := 0, status := 256, out := none, table := none, chans := [], ch0 := 0, rowMap := none, rho := none,
    aux := 0, rowBase := 0, gidx := 0, steps := [], predL := [], pc := 0, instr := [] }
def tileIn (ph : TilePhase) (retry : Bool) (g : Group) : Core :=
  { tiles := [{ tile1 with grp := g, phase := ph, drain := some drain1, retry := retry }] }
def busy (c : Core) : State := at1 (iw 0x06 0 0 0 0 0 0 0) c
theorem test_tile_complete :
    (busy (tileIn .completing false grp1)).coreWorks 0 = some job1 ∧
      (nextComplete (tileIn .completing false grp1)).isSome = true ∧
      nextIs (exec (.tileComplete 0 ⟨[⟨0, 0, 0⟩], []⟩) (busy (tileIn .completing false grp1)))
        (fun t => (t.core 0).tiles.map (fun u => (u.phase, u.grp.cells)) == [(.slot, [[⟨7, false⟩]])]) = true := by decide
theorem test_tile_compare :
    (busy (tileIn .slot false grp1)).coreWorks 0 = some job1 ∧ compareTile grp1 = none ∧
      nextIs (exec (.tileCompare ⟨0, []⟩) (busy (tileIn .slot false grp1)))
        (fun t => (t.core 0).tiles.map (·.phase) == [.passed]) = true ∧
      nextIs (exec (.tileCompare ⟨0, []⟩) (busy (tileIn .slot false (upset grp1 ⟨0, 0, 0⟩))))
        (fun t => (t.core 0).tiles.map (fun u => (u.phase, u.retry)) == [(.completing, true)]) = true := by decide
/-- The group of the pass above, its cell upset: the recompute streams it again from the scratchpad. -/
def grpUpset : Group := upset (passGroup opCore none (passOp 0 2) (passW 0 2) [] [] none false) ⟨0, 0, 0⟩
theorem test_tile_recompute :
    grpUpset.cells = [[⟨22, false⟩]] ∧
      nextIs (exec (.tileComplete 0 ⟨[], []⟩) (busy { opCore with tiles := (tileIn .completing true grpUpset).tiles }))
        (fun t => (t.core 0).tiles.map (fun u => (u.phase, u.grp.cells)) == [(.slot, [[⟨23, false⟩]])]) = true := by decide
theorem test_tile_compare_twice :
    nextIs (exec (.tileCompare ⟨0, []⟩) (busy (tileIn .slot true (upset grp1 ⟨0, 0, 0⟩))))
      (fun t => bit t.flt.coreFlags 0 && t.flt.detections.map (·.info.status) == [0x0F01]) = true := by decide
/-- A raw row stores 6 as a 64-bit value, and the status word 0. -/
theorem test_slot_leave :
    (busy (tileIn .passed false grp1)).coreWorks 0 = some job1 ∧
      nextIs (exec (.slotLeave ⟨⟨0, []⟩, []⟩) (busy (tileIn .passed false grp1)))
        (fun t => (t.core 0).tiles == [] && spadBytes (t.core 0) 0 8 == leBytes 8 6 && spadBytes (t.core 0) 256 4 == leBytes 4 0) = true := by
  decide

/-- A reduction instruction on context 4. `d0`: dword 0. -/
def redW (d0 off k : Nat) : IWord := iw d0 0x0104 9 2 off k 0 0
def sumCore : Core := { opCore with ctxs := [(4, freshCtx .sum 9 0)] }
def topCore : Core := { opCore with ctxs := [(4, freshCtx .topk 9 2)] }
theorem test_red_open :
    Issues (at1 (redW 0x0140 0 0) {}) 0 (redW 0x0140 0 0) 0x40 job1 ∧ ctxCount (redW 0x0140 0 0) = 1 ∧
      stallsCtx {} (ctxFirst (redW 0x0140 0 0)) 1 = false ∧
      nextIs (exec (.redOpen 0 (redW 0x0140 0 0) []) (at1 (redW 0x0140 0 0) {}))
        (fun t => (Sparse.find (t.core 0).ctxs 4).map (fun x => (x.kind, x.chainId)) == some (.sum, 9)) = true ∧
    Issues (at1 (redW 0x0040 0 0) {}) 0 (redW 0x0040 0 0) 0x40 job1 := by decide
theorem test_topk_open :
    Issues (at1 (redW 0x0050 0 0) {}) 0 (redW 0x0050 0 0) 0x50 job1 ∧
      nextIs (exec (.topkOpen 0 (redW 0x0050 0 0) []) (at1 (redW 0x0050 0 0) {}))
        (fun t => (Sparse.find (t.core 0).ctxs 4).map (fun x => (x.kind, x.kReq)) == some (.topk, 2)) = true := by decide
/-- RED_FEED of the row 3, 2 from slot 0: index 0, two elements. -/
theorem test_red_feed :
    Issues (at1 (redW 0x0041 0 2) sumCore) 0 (redW 0x0041 0 2) 0x41 job1 ∧ openReason sumCore (redW 0x0041 0 2) false = none ∧
      fits (readRanges (slotAt 0) 1 0 2 true) = true ∧ (feedElems sumCore (slotAt 0) 0 0 2 0).1.poison = false ∧
      nextIs (exec (.redFeed 0 (redW 0x0041 0 2) []) (at1 (redW 0x0041 0 2) sumCore))
        (fun t => (Sparse.find (t.core 0).ctxs 4).map (·.next) == some 2) = true := by decide
theorem test_topk_feed :
    Issues (at1 (redW 0x0151 0 2) topCore) 0 (redW 0x0151 0 2) 0x51 job1 ∧ openReason topCore (redW 0x0151 0 2) true = none ∧
      nextIs (exec (.topkFeed 0 (redW 0x0151 0 2) []) (at1 (redW 0x0151 0 2) topCore))
        (fun t => (Sparse.find (t.core 0).ctxs 4).map (fun x => x.entries.map (·.pos)) == some [0, 1]) = true ∧
    Issues (at1 (redW 0x0051 128 1) topCore) 0 (redW 0x0051 128 1) 0x51 job1 ∧
      nextIs (exec (.topkFeed 0 (redW 0x0051 128 1) []) (at1 (redW 0x0051 128 1) topCore))
        (fun t => (Sparse.find (t.core 0).ctxs 4).map (·.seen) == some 1) = true := by decide
/-- TOPK_MERGE of the frame that TOPK_STORE left of an empty list. -/
def topFrame : List Byte := ctxFrame (freshCtx .topk 9 2)
def mergeCore : Core := { topCore with spad := Sparse.setList 0 topCore.spad 128 topFrame }
theorem test_topk_merge :
    Issues (at1 (redW 0x0052 128 1) mergeCore) 0 (redW 0x0052 128 1) 0x52 job1 ∧ ctxOff mergeCore (redW 0x0052 128 1) = some 128 ∧
      fits [frameReads mergeCore .topk 128 2] = true ∧
      nextIs (exec (.topkMerge 0 (redW 0x0052 128 1) []) (at1 (redW 0x0052 128 1) mergeCore))
        (fun t => (Sparse.find (t.core 0).ctxs 4).map (·.entries) == some []) = true := by decide
theorem test_closing :
    Issues (at1 (redW 0x0042 128 0) sumCore) 0 (redW 0x0042 128 0) 0x42 job1 ∧ ctxOff sumCore (redW 0x0042 128 0) = some 128 ∧
      nextIs (exec (.redFinish 0 ⟨(redW 0x0042 128 0), []⟩) (at1 (redW 0x0042 128 0) sumCore)) (fun t => (t.core 0).ctxs == []) = true ∧
    Issues (at1 (redW 0x0053 128 0) topCore) 0 (redW 0x0053 128 0) 0x53 job1 ∧
      nextIs (exec (.topkStore 0 ⟨(redW 0x0053 128 0), []⟩) (at1 (redW 0x0053 128 0) topCore))
        (fun t => spadBytes (t.core 0) 128 32 == topFrame.take 32 && (t.core 0).ctxs == []) = true := by decide +kernel
theorem test_red_store :
    Issues (at1 (redW 0x0043 128 0) sumCore) 0 (redW 0x0043 128 0) 0x43 job1 ∧ openReason sumCore (redW 0x0043 128 0) false = none ∧
      (ctxFrame (freshCtx .sum 9 0)).length = 1568 ∧ stalls sumCore [(128, 1568)] = false := by decide +kernel

theorem test_drain_poisoned_entry :
    nextIs (exec (.drain 0 ⟨(drainW 0), []⟩ []) { drainS (drainW 0) tileCore with mem := { State.reset.mem with poison := [64] } })
      (fun t => t.flt.detections.map (·.info.status) == [0x0F03]) = true := by decide +kernel
/-- A passed tile stands before a tile whose group reads the scratchpad from 0 and is not checked yet: its writes are held back. -/
def heldCore : Core :=
  { opCore with tiles := (tileIn .passed false grp1).tiles ++ [{ tile1 with seq := 1, grp := grpUpset, drain := none }] }
theorem test_slot_held_back :
    heldBack heldCore (drainWrites drain1 1 1) = true ∧
      nextIs (exec (.slotLeave ⟨⟨0, []⟩, []⟩) (busy heldCore)) (fun t => (t.core 0).tiles.length == 2) = true := by decide
theorem test_tile_compare_flags :
    nextIs (exec (.tileCompare ⟨0, []⟩) { busy (tileIn .slot true grp1) with flt := { State.reset.flt with flagFirst := true } })
      (fun t => bit t.flt.coreFlags 0 && (t.core 0).tiles.map (·.phase) == [.passed]) = true := by decide +kernel

/-! ## DMA and signals of a core, prefetch, passes, jobs (06 R171-R176, R180, R182; 07; 08 R224; 09; 12 R334; 20 R566) -/

/-- The job may read and write page 1, through a grant, which the host has allocated; it may read zone 2. -/
def jobG : Run := { job1 with grants := [⟨0, true, 1, pageBytes⟩, ⟨1, false, 1, 2⟩], binds := [⟨0, 6, 0⟩, ⟨1, 7, 9⟩] }
def grantS (w : IWord) (c : Core) : State :=
  let s := withJob jobG (at1 w c)
  { s with mem := { s.mem with allocs := [⟨1, 1, .host⟩], bytes := [(pageBytes, 0xAA)] } }
/-- A DMA of opcode `op`: scratchpad `sp`, device address or list, one row of `g` granules. -/
def dmaW (op sp dev g : Nat) : IWord := iw op sp dev 0 1 g 0 0
def dmaS (op dev g : Nat) : State := grantS (dmaW op 0 dev g) {}
theorem test_dma_in :
    Issues (dmaS 0x60 pageBytes 1) 0 (dmaW 0x60 0 pageBytes 1) 0x60 jobG ∧
      dmaReason {} (dmaW 0x60 0 pageBytes 1) .into = none ∧
      dmaBad (dmaS 0x60 pageBytes 1) 0 jobG (dmaMake {} (dmaW 0x60 0 pageBytes 1) .into 0 pageBytes 0) = none ∧
      (dmaS 0x60 pageBytes 1).aperture pageBytes = none ∧
      nextIs (exec (.dmaIn 0 (dmaW 0x60 0 pageBytes 1) []) (dmaS 0x60 pageBytes 1))
        (fun t => (t.core 0).dma.map (·.rows) == [[⟨0, pageBytes, false⟩]]) = true := by decide
theorem test_dma_device_address :
    Issues (dmaS 0x61 (2 * pageBytes) 1) 0 (dmaW 0x61 0 (2 * pageBytes) 1) 0x61 jobG ∧
      dmaBad (dmaS 0x61 (2 * pageBytes) 1) 0 jobG (dmaMake {} (dmaW 0x61 0 (2 * pageBytes) 1) .out 0 (2 * pageBytes) 0) =
        some (2 * pageBytes) ∧
      nextIs (exec (.dmaOut 0 (dmaW 0x61 0 (2 * pageBytes) 1) []) (dmaS 0x61 (2 * pageBytes) 1))
        (fun t => t.flt.detections.map (·.info.reason) == [reasonDevice]) = true ∧
    Issues (grantS (dmaW 0x60 1 pageBytes 1) {}) 0 (dmaW 0x60 1 pageBytes 1) 0x60 jobG ∧ effOff {} 1 0 64 = none := by decide
/-- The list at 0 holds 0, so DMA_GATHER, DMA_SCATTER and DMA_ZONE address DEV itself. -/
theorem test_dma_listed :
    Issues (dmaS 0x62 pageBytes 1) 0 (dmaW 0x62 0 pageBytes 1) 0x62 jobG ∧
      nextIs (exec (.dmaGather 0 (dmaW 0x62 0 pageBytes 1) []) (dmaS 0x62 pageBytes 1))
        (fun t => (t.core 0).dma.map (·.kind) == [.gather]) = true ∧
    Issues (dmaS 0x63 pageBytes 1) 0 (dmaW 0x63 0 pageBytes 1) 0x63 jobG ∧
      nextIs (exec (.dmaScatter 0 (dmaW 0x63 0 pageBytes 1) []) (dmaS 0x63 pageBytes 1))
        (fun t => (t.core 0).dma.map (·.kind) == [.scatter]) = true ∧
    Issues (dmaS 0x61 pageBytes 1) 0 (dmaW 0x61 0 pageBytes 1) 0x61 jobG ∧
      nextIs (exec (.dmaOut 0 (dmaW 0x61 0 pageBytes 1) []) (dmaS 0x61 pageBytes 1))
        (fun t => (t.core 0).dma.map (·.kind) == [.out]) = true := by decide
/-- Zone 2 holds one block; block 2 * 524288 of the list. -/
def zoneCore : Core := { spad := Sparse.setList 0 [] 0 (leBytes 8 (2 * zoneBlocks)) }
def zoneS : State :=
  let s := grantS (dmaW 0x64 0 0 64) zoneCore
  { s with fl := { s.fl with zones := [(2, { state := .opened, wp := 16, seqPtr := 16 })] } }
theorem test_dma_zone :
    Issues zoneS 0 (dmaW 0x64 0 0 64) 0x64 jobG ∧
      dmaBad zoneS 0 jobG (dmaMake zoneCore (dmaW 0x64 0 0 64) .zone 0 0 0) = none ∧
      nextIs (exec (.dmaZone 0 (dmaW 0x64 0 0 64) []) zoneS)
        (fun t => t.fl.reads.map (·.waiting) == [[2 * zoneBlocks]]) = true := by decide
/-- A DMA of one granule at page 1, outstanding. -/
def dma1 (k : DmaKind) : Dma :=
  { kind := k, rows := [⟨0, pageBytes, false⟩], grans := 1, data := [List.replicate 64 7], bad := [[false]], started := true, far := [], tags := [],
    got := [], pc := 0,
    instr := [] }
def doneS (k : DmaKind) : State := grantS (iw 6 0 0 0 0 0 0 0) { dma := [dma1 k] }
theorem test_dma_complete_in :
    Memory.wf 0 (doneS .into).mem.bytes = true ∧ (doneS .into).coreWorks 0 = some jobG ∧
      nextIs (exec (.dmaComplete 0 []) (doneS .into))
        (fun t => (t.core 0).dma == [] && spadByte (t.core 0) 0 == 0xAA && t.mem.bytes == [(pageBytes, 0xAA)]) = true := by decide
theorem test_dma_complete_out :
    nextIs (exec (.dmaComplete 0 []) (doneS .out))
      (fun t => Sparse.get 0 t.mem.bytes (pageBytes + 63) == 7 && Sparse.get 0 t.mem.bytes (pageBytes + 64) == 0 &&
        (t.core 0).spad == []) = true := by decide

/-- A signal instruction of opcode `op` on slot `b` with value 5. -/
def sigW (op b : Nat) : IWord := iw op b 5 0 0 0 0 0
theorem test_core_sig_add :
    Issues (grantS (sigW 0x71 0) {}) 0 (sigW 0x71 0) 0x71 jobG ∧ jobG.binding 0 = some ⟨0, 6, 0⟩ ∧
      nextIs (exec (.coreSigAdd 0 (sigW 0x71 0)) (grantS (sigW 0x71 0) {})) (fun t => t.cell 6 == 5) = true ∧
    Issues (grantS (sigW 0x71 0) { dma := [dma1 .into] }) 0 (sigW 0x71 0) 0x71 jobG ∧
      nextIs (exec (.coreSigAdd 0 (sigW 0x71 0)) (grantS (sigW 0x71 0) { dma := [dma1 .into] }))
        (fun t => t.cell 6 == 0 && (t.core 0).adds.length == 1) = true := by decide
theorem test_core_sig_wait :
    Issues (grantS (sigW 0x70 0) {}) 0 (sigW 0x70 0) 0x70 jobG ∧
      nextIs (exec (.coreSigWait 0 (sigW 0x70 0)) (grantS (sigW 0x70 0) {}))
        (fun t => (t.core 0).wait == some ⟨0, 6, 5, true, none⟩) = true ∧
    Issues (grantS (sigW 0x70 2) {}) 0 (sigW 0x70 2) 0x70 jobG ∧ jobG.binding 2 = none ∧
      nextIs (exec (.coreSigWait 0 (sigW 0x70 2)) (grantS (sigW 0x70 2) {}))
        (fun t => t.flt.detections.map (·.info.reason) == [reasonSignal]) = true := by decide
def waitS (v : Nat) : State :=
  let s := grantS (iw 6 0 0 0 0 0 0 0) { wait := some ⟨0, 6, 5, true, none⟩ }
  { s with sig := { s.sig with cells := [(6, v)] } }
theorem test_core_sig_wait_complete :
    (waitS 5).coreWorks 0 = some jobG ∧
      nextIs (exec (.coreSigWaitComplete 0) (waitS 5)) (fun t => (t.core 0).wait == none) = true ∧
      nextIs (exec (.coreSigWaitComplete 0) (waitS 4)) (fun t => (t.core 0).wait.isSome) = true := by decide

/-- PF_HINT of kind `k` on page 1; a layer mark of layer `l`. -/
def hintW (k l : Nat) : IWord := iw (0x80 + 0x100 * k) pageBytes 0 (if k = 2 then l else 1) 0 0 0 0
/-- A schedule of one layer, whose range is page 1. -/
def withLayer (s : State) : State :=
  { s with jobs := { s.jobs with bundles := [{ bundle1 0 with
      sched := { (bundle1 0).sched with layers := [⟨0, 1⟩], ranges := [⟨pageBytes, 1, 0, 0, false, 0, 0⟩] } }] } }
theorem test_hints :
    Issues (grantS (hintW 0 0) {}) 0 (hintW 0 0) 0x80 jobG ∧
      hintPages (grantS (hintW 0 0) {}) 0 jobG {} (hintW 0 0) = [1] ∧
      nextIs (exec (.pfHintStage 0 (hintW 0 0)) (grantS (hintW 0 0) {})) (fun t => (t.core 0).pc == 1) = true ∧
    Issues (grantS (hintW 1 0) {}) 0 (hintW 1 0) 0x80 jobG ∧
      nextIs (exec (.pfHintDone 0 (hintW 1 0)) (grantS (hintW 1 0) {}))
        (fun t => (t.run 0).map (·.doneSeq) == some 1) = true := by decide
theorem test_layer_mark :
    Issues (withLayer (grantS (hintW 2 0) {})) 0 (hintW 2 0) 0x80 jobG ∧
      layerPages (withLayer (grantS (hintW 2 0) {})) 0
        { (bundle1 0).sched with layers := [⟨0, 1⟩], ranges := [⟨pageBytes, 1, 0, 0, false, 0, 0⟩] } 0 = [(1, 0)] ∧
      nextIs (exec (.layerMark 0 (hintW 2 0)) (withLayer (grantS (hintW 2 0) {})))
        (fun t => (t.core 0).mark == some 0 && t.mig.miss == [1, 0, 0, 0] && bit t.mig.evt 0) = true ∧
    Issues (withLayer (grantS (hintW 2 1) {})) 0 (hintW 2 1) 0x80 jobG ∧
      nextIs (exec (.layerMark 0 (hintW 2 1)) (withLayer (grantS (hintW 2 1) {}))) (fun t => (t.core 0).mark == none) = true := by
  decide
def flightS : State := let s := grantS [] {}; { s with mem := { s.mem with flights := [⟨1, 0, 2, some 2⟩] } }
theorem test_page_copy_done :
    nextIs (exec (.pageCopyDone 1 []) flightS)
      (fun t => t.mem.flights == [] && t.mem.resident == [(1, .stacked 2 false 0)] && t.mig.copied == 1) = true := by decide

/-- A batch job at its first boundary: step 1 comes to an end. -/
def boundaryS (kind : Nat) (ph : StepPhase) : State :=
  withBundle kind (withJob { job1 with phase := ph, step := 1, first := false }
    ((with1 .atStepEnd (at1 [] {})).setCore 0 fun c => { c with run := .atStepEnd }))
theorem test_atomic_pass_batch :
    (boundaryS 0 .boundary).run 0 = some { job1 with phase := .boundary, step := 1, first := false } ∧
      ((boundaryS 0 .boundary).bundle 3).map (·.kind) = some 0 ∧
      nextIs (exec (.atomicPass 0 [] false []) (boundaryS 0 .boundary))
        (fun t => (t.core 1).run == .running && getX (t.core 1) 1 == 1 &&
          (t.run 0).map (fun r => (r.phase, r.step, r.steps)) == some (.run, 2, 1)) = true := by decide
theorem test_atomic_pass_generation :
    ((boundaryS 1 .boundary).bundle 3).bind (·.kv) = some ⟨64, 100, 50, 0⟩ ∧
      nextIs (exec (.atomicPass 0 [] false []) (boundaryS 1 .boundary)) (fun t => (t.run 0).map (·.phase) == some .held) = true ∧
      nextIs (exec (.atomicPass 0 [] false []) (boundaryS 2 .held)) (fun t => (t.run 0).isSome) = true := by decide
theorem test_query_phases :
    ((boundaryS 2 .search).run 0).map (·.phase) = some .search ∧
      nextIs (exec (.querySearchPhase 0 []) (boundaryS 2 .search)) (fun t => (t.run 0).map (·.phase) == some .boundary) = true ∧
      nextIs (exec (.queryPostPhase 0) (boundaryS 2 .post))
        (fun t => (t.run 0).map (fun r => (r.phase, r.posted)) == some (.run, true)) = true := by decide

/-- A job of bundle 3 that waits for partition 0. -/
def queued : QueuedJob :=
  { number := 5, cmd := ⟨1, 7⟩, seq := 4, handle := 3, resume := false, partition := 0, priority := 0, shadow := false, grants := [],
    binds := [] }
def queuedS : State := withBundle 0 { State.reset with jobs := { State.reset.jobs with queue := [queued] } }
def queuedFenced : State :=
  { queuedS with gen := { queuedS.gen with features := { queuedS.gen.features with fenced := 2 ^ 96 - 1 } } }
theorem test_job_dispatch :
    mayDispatch queuedS 0 = true ∧ queuedS.awake = true ∧ nextJob queuedS 0 = some queued ∧
      dispatchCheck queuedS queued (bundle1 0) none (activeCores queuedS 0) = none ∧
      nextIs (exec (.jobDispatch ⟨0, []⟩) queuedS) (fun t => (t.run 0).map (·.number) == some 5 && t.jobs.queue == [] &&
        getX (t.core 95) 6 == 95 && getX (t.core 95) 7 == 96) = true := by decide +kernel
theorem test_job_dispatch_no_cores :
    dispatchCheck queuedFenced queued (bundle1 0) none (activeCores queuedFenced 0) = some 0x0525 ∧
      nextIs (exec (.jobDispatch ⟨0, []⟩) queuedFenced) (fun t => t.jobs.queue == [] && (t.run 0).isNone) = true := by decide +kernel

/-- Job 5 in a state. -/
def jobIn (st : JobState) : State := withBundle 0 (withJob { job1 with state := st } (at1 [] {}))
theorem test_job_ended :
    (jobIn .ending).run 0 = some { job1 with state := .ending } ∧ ((jobIn .ending).core 0).run ≠ .halted ∧
      nextIs (exec (.jobEnded 0 [] []) (jobIn .ending)) (fun t => (t.run 0).isNone && (t.core 0).run == .idle &&
        (t.evc.part.getD 0 {}).jobEnd && (t.evc.part.getD 0 {}).job == 5) = true := by decide +kernel
theorem test_cocoon_written :
    nextIs (exec (.cocoonWritten ⟨⟨0, []⟩, []⟩) (jobIn .parking))
      (fun t => (t.run 0).isNone && t.jobs.cocoons.map (·.bundle) == [3] && (t.evc.part.getD 0 {}).jobEnd) = true := by decide +kernel
def writebackS : State :=
  { State.reset with
    jobs := { State.reset.jobs with parts := [{ writeback := true }, {}, {}, {}] }
    mem := { State.reset.mem with resident := [(1, .stacked 0 true 0)], flights := [⟨1, 0, 0, none⟩] } }
theorem test_writeback_done :
    nextIs (exec (.writebackDone 0 []) writebackS)
      (fun t => t.mem.resident == [] && t.mem.flights == [] && bit t.mig.evt 8 && !(t.jobs.parts.getD 0 {}).writeback) = true := by
  decide

/-- A latched fault. -/
def det (scope : FaultScope) : Detection := ⟨1, scope, 5, { status := 0x0F02 }, 0, 0⟩
def faultS (scope : FaultScope) : State :=
  let s := jobIn .faulted
  { s with flt := { s.flt with detections := [det scope] } }
theorem test_fault_detect_job :
    nextIs (exec (.faultDetect []) (faultS (.job 0))) (fun t => (t.run 0).isNone && (t.evc.part.getD 0 {}).jobFault &&
      t.flt.records.map (·.number) == [1] && bit t.flt.evt 0 && bit t.phys.sbAlert 1) = true := by decide +kernel
theorem test_fault_detect_others :
    nextIs (exec (.faultDetect []) (faultS .nothing)) (fun t => t.flt.records.map (·.jobValid) == [false] && (t.run 0).isSome) = true ∧
      nextIs (exec (.faultDetect []) (faultS (.command ⟨1, 9⟩))) (fun t => t.flt.records.map (·.cmd) == [some ⟨1, 9⟩]) = true := by
  decide +kernel

/-- A DMA behind an outstanding one; one that has not begun; one whose answer is outstanding. -/
theorem test_dma_queue :
    nextIs (exec (.dmaIn 0 (dmaW 0x60 0 pageBytes 1) []) (grantS (dmaW 0x60 0 pageBytes 1) { dma := [dma1 .out] }))
      (fun t => (t.core 0).dma.map (·.started) == [true, false]) = true ∧
    nextIs (exec (.dmaComplete 0 []) (grantS (iw 6 0 0 0 0 0 0 0) { dma := [{ dma1 .into with started := false }] }))
      (fun t => (t.core 0).dma.map (·.started) == [true] && (t.core 0).spad == []) = true ∧
    dmaWaits (grantS [] { dma := [{ dma1 .into with tags := [(5, 0, pageBytes)] }] }) 0 { dma1 .into with tags := [(5, 0, pageBytes)] } = true ∧
    nextIs (exec (.dmaComplete 0 []) (grantS (iw 6 0 0 0 0 0 0 0) { dma := [{ dma1 .into with tags := [(5, 0, pageBytes)] }] }))
      (fun t => (t.core 0).dma.length == 1 && (t.core 0).spad == []) = true := by decide +kernel
/-- The wait stands behind an add that a DMA holds. -/
theorem test_core_sig_wait_behind_add :
    nextIs (exec (.coreSigWaitComplete 0) { grantS (iw 6 0 0 0 0 0 0 0)
        { dma := [dma1 .into], adds := [⟨0, 6, 1, 1, none⟩], wait := some ⟨0, 6, 0, true, none⟩ } with time := 3 })
      (fun t => (t.core 0).wait.isSome && (t.core 0).adds.length == 1) = true := by decide +kernel

/-! ## The device range and its commands (09; 10; 16 R471, R472) -/

/-- Command 7 of queue 1 has begun: opcode `op`, the dwords of `l`, buffers of the lengths `lens`. -/
def packet (op : Nat) (l : List (Nat × Nat)) : List Word :=
  BitVec.ofNat 32 op :: (List.range 15).map fun i => BitVec.ofNat 32 (((l.find? fun e => e.1 == i + 1).map (·.2)).getD 0)
def cmd7 (op : Nat) (l lens : List (Nat × Nat)) : Cmd :=
  { qid := 1, cid := 7, index := 0, dwords := packet op l, descs := lens.map fun e => ⟨e.1, 0, e.2⟩, begun := true, job := some 4 }
def queues : Sparse Queue := [(0, { sqDepth := 16, cqDepth := 16 }), (1, { sqDepth := 16, cqDepth := 16 })]
def cmdS (op : Nat) (l lens : List (Nat × Nat)) (s : State) : State :=
  { s with q := { s.q with queues := queues, cmds := [cmd7 op l lens] } }
/-- What the module reads of its buffers. -/
def bufs (l : List (List Byte)) : HostCmd := ⟨1, 7, l.zipIdx.map fun e => (e.2, some e.1), []⟩
def noBuf : HostCmd := ⟨1, 7, [], []⟩
/-- The status and result of the last reply. -/
def replied (t : State) : Option (Nat × Nat) :=
  match t.hostOut.getLast? with | some (.reply _ _ res _ _ st _ _) => some (st, res) | _ => none
/-- The first write of data to the host: buffer, address, bytes. -/
def sentData (t : State) : Option (Nat × Nat × List Byte) :=
  match t.hostOut.head? with | some (.data _ b a _ bs) => some (b, a, bs) | _ => none
/-- The command has begun, and answers a reply. -/
def answers (i : Instr) (op : Nat) (l lens : List (Nat × Nat)) (s : State) (st res : Nat) : Bool :=
  decide (Begun (cmdS op l lens s) noBuf op (cmd7 op l lens)) &&
    nextIs (exec i (cmdS op l lens s)) fun t => replied t == some (st, res)

def memS : State := { State.reset with mem := { State.reset.mem with allocs := [⟨1, 1, .host⟩], bytes := [(pageBytes + 1, 9)] } }
theorem test_bar2_read :
    bar2Fits pageBytes 4096 = true ∧ bar2Fits (pageBytes + 4095) 2 = false ∧ memS.exists_ pageBytes = true ∧
      memS.exists_ 0 = false ∧ memS.aperture pageBytes = none ∧
      nextIs (exec (.bar2Read pageBytes 2 []) memS) (fun t => t.mem.completion == some ⟨[0, 9], false⟩) = true ∧
      nextIs (exec (.bar2Read 0 2 []) memS)
        (fun t => t.mem.completion == some ⟨[0xFF, 0xFF], false⟩ && t.mig.bar2Drop == 1 && bit t.mig.evt 12) = true := by
  decide +kernel
theorem test_bar2_write :
    (memS.allocated pageBytes && !memS.inRegion pageBytes) = true ∧
      nextIs (exec (.bar2Write pageBytes (List.replicate 64 5) []) memS)
        (fun t => Sparse.get 0 t.mem.bytes (pageBytes + 1) == 5 && Sparse.get 0 t.mem.bytes (pageBytes + 63) == 5 &&
          Sparse.get 0 t.mem.bytes (pageBytes + 64) == 0) = true ∧
      nextIs (exec (.bar2Write 0 (List.replicate 64 5) []) memS)
        (fun t => t.mem.bytes == [(pageBytes + 1, 9)] && t.mig.bar2Drop == 1) = true := by decide +kernel

theorem test_mem_alloc :
    answers (.memAlloc noBuf) 0x40 [(4, 0), (6, 1)] [] memS 0 0 = true ∧
      answers (.memAlloc noBuf) 0x40 [(4, 5), (6, 1)] [] memS 0x0402 0 = true ∧ generalRange 5 1 = false ∧
      answers (.memAlloc noBuf) 0x40 [(4, 0x200000), (5, 1), (6, boardPages)] [] memS 0x0401 0 = true ∧
      nextIs (exec (.memAlloc noBuf) (cmdS 0x40 [(4, 0), (6, 1)] [] memS))
        (fun t => t.mem.allocs == [⟨1, 1, .host⟩, ⟨0, 1, .host⟩]) = true := by decide +kernel
theorem test_mem_free :
    answers (.memFree noBuf) 0x41 [(4, pageBytes), (6, 1)] [] memS 0 0 = true ∧
      memS.pagesInUse 1 1 = false ∧
      nextIs (exec (.memFree noBuf) (cmdS 0x41 [(4, pageBytes), (6, 1)] [] memS)) (fun t => t.mem.allocs == []) = true := by
  decide +kernel
theorem test_mem_free_in_use :
    (grantS [] {}).pagesInUse 1 1 = true ∧
      answers (.memFree noBuf) 0x41 [(4, pageBytes), (6, 1)] [] (grantS [] {}) 0x0404 0 = true := by decide +kernel

/-- Zone 0 is full; mapping 0 holds its first 512 blocks. -/
def mapS : State :=
  { State.reset with
    fl := { State.reset.fl with zones := [(0, { state := .full, wp := zoneBlocks, seqPtr := zoneBlocks })] }
    mem := { State.reset.mem with maps := [(0, ⟨flashBase / pageBytes, 1, 0, none⟩)] } }
def mapAt (lba : Nat) : List (Nat × Nat) := [(4, pageBytes), (5, 0x4000), (6, 1), (7, lba)]
theorem test_mem_map_zone :
    answers (.memMapZone noBuf) 0x42 (mapAt 512) [] mapS 0 1 = true ∧
      answers (.memMapZone noBuf) 0x42 (mapAt zoneBlocks) [] mapS 0x0405 0 = true ∧ mapBlocks mapS zoneBlocks 512 = false := by
  decide +kernel
theorem test_mem_unmap :
    answers (.memUnmap noBuf) 0x43 [(1, 0)] [] mapS 0 0 = true ∧ answers (.memUnmap noBuf) 0x43 [(1, 4095)] [] mapS 0x0403 0 = true ∧
      mapInUse mapS 0 ⟨flashBase / pageBytes, 1, 0, none⟩ = false := by decide +kernel
theorem test_mem_unmap_in_use :
    answers (.memUnmap noBuf) 0x43 [(1, 0)] []
      (withJob { job1 with grants := [⟨0, false, 1, flashBase⟩] } { mapS with cores := State.reset.cores }) 0x0404 0 = true := by
  decide +kernel
theorem test_mem_query :
    answers (.memQuery noBuf) 0x44 [(4, pageBytes), (6, 1)] [(0, 4)] memS 0 1 = true := by decide +kernel

/-- A range scrub of page 1 that runs. -/
def scrubS : State :=
  { memS with ecc := { memS.ecc with scrubs := [⟨⟨1, 7⟩, pageBytes, 1, pageBytes, true, true, false⟩] } }
theorem test_mem_scrub :
    decide (Begun (cmdS 0x45 [(4, pageBytes), (6, 1)] [] memS) noBuf 0x45 (cmd7 0x45 [(4, pageBytes), (6, 1)] [])) = true ∧
      nextIs (exec (.memScrub noBuf) (cmdS 0x45 [(4, pageBytes), (6, 1)] [] memS))
        (fun t => t.ecc.scrubs.map (·.running) == [true] && t.hostOut == []) = true := by decide
theorem test_scrub_complete :
    answers (.scrubComplete 1 7 []) 0x45 [] [] scrubS 0 0 = true ∧
      nextIs (exec (.scrubComplete 1 7 [⟨pageBytes / 64, true⟩]) (cmdS 0x45 [] [] scrubS))
        (fun t => replied t == some (0, 2 ^ 32) && t.ecc.scrubs == []) = true := by decide +kernel
def scbS : State := { memS with ecc := { memS.ecc with scbEn := true } }
theorem test_background_scrub :
    (scbNext scbS).isSome = true ∧
      nextIs (exec (.backgroundScrubFrame []) scbS) (fun t => t.ecc.scbAt == some (4, pageBytes)) = true ∧
      nextIs (exec (.backgroundScrubFrame []) memS) (fun t => t.ecc.scbAt == none) = true := by decide +kernel
theorem test_reserved_memory_sweep :
    nextIs (exec (.reservedMemorySweep [] [(5, [0])]) (jobIn .running)) (fun t => t.mem.reservedBad == [0] &&
      (t.run 0).map (·.state) == some .faulted && t.flt.detections.map (·.info.status) == [0x0F02]) = true := by decide

/-- Checker test mode: EN, tier board, COUNT 1, target page 1. -/
def testS : State :=
  { memS with ecc := { memS.ecc with testCtrl := 1 + 8 + 0x10000, testTarget := pageBytes, testData := [(0, 3)] } }
theorem test_write_raw :
    testError testS = 0 ∧ testError memS = 4 ∧ testError { testS with gen := { testS.gen with pl := 1 } } = 1 ∧
      nextIs (exec .writeRaw testS) (fun t => bits t.ecc.testResult 0 2 == 2 && Sparse.get 0 t.mem.bytes pageBytes == 3) = true := by
  decide
theorem test_read_raw :
    nextIs (exec .readRaw testS) (fun t => bits t.ecc.testResult 0 2 == 2 && bit t.ecc.evt 14) = true ∧
      nextIs (exec .readRaw memS) (fun t => t.ecc.testResult == 16) = true := by decide
theorem test_read_checked :
    nextIs (exec (.readChecked []) testS) (fun t => bits t.ecc.testResult 0 2 == 2 && Sparse.get 0 t.ecc.testData 1 == 9) = true ∧
      nextIs (exec .eccTestDisable testS) (fun t => !bit t.ecc.testCtrl 0) = true := by decide

theorem test_sweep_corrected :
    nextIs (exec (.reservedMemorySweep [] [(3, [0])]) (jobIn .running)) (fun t => t.mem.reservedBad == [] &&
      t.ecc.ce == [0, 0, 0, 0, 1, 0] && (t.run 0).map (·.state) == some .running) = true ∧
    nextIs (exec (.reservedMemorySweep [] [(4, [0])]) (jobIn .running)) (fun t => t.flt.detections == []) = true := by decide +kernel
/-- The example of 09 R274: 24 cores of die 0, two of die 1, one of die 3 and the host port, in two windows of 256 grants. -/
def busyHub : List (Nat × Nat) := [(0, 24), (1, 2), (2, 0), (3, 1), (68, 1)]
def grantCounts (l : List Nat) : List Nat := [0, 1, 2, 3, 68].map fun n => l.count n
theorem test_arbiter_example :
    grantCounts (Arb.grants busyHub [] 256 {}).2 = [220, 18, 0, 9, 9] ∧
      grantCounts ((Arb.grants busyHub [] 512 {}).2.take 256) = [219, 19, 0, 9, 9] := by decide +kernel
/-- Core 0 of die 0 reads page 1: board memory is granted to its die, the flash path to no one. -/
theorem test_arbiter_step :
    ((doneS .into).weights 0).any (fun e => e.2 != 0) = true ∧
      nextIs (step (doneS .into)) (fun t => (t.mig.arbs.getD 0 {}).source == some 0 && (t.mig.arbs.getD 0 {}).core == some 0 &&
        (t.mig.arbs.getD 1 {}).source == none && t.mig.arbWeight == 1) = true ∧
      (Arb.grant { credits := [(3, 7)] } [(3, 0)] []).credits = [] ∧
      nextCore [1, 5] (some 5) = some 1 ∧ nextCore [1, 5] (some 1) = some 5 := by decide +kernel
/-- The page of mapping 0 is being staged; a block of it has not been read. -/
def stagingS : State :=
  { mapS with
    mem := { mapS.mem with flights := [⟨flashBase / pageBytes, 0, 0, some 0⟩] }
    fl := { mapS.fl with reads := [{ by_ := .stage (flashBase / pageBytes), waiting := [0] }] } }
theorem test_page_copy_waits :
    nextIs (exec (.pageCopyDone 1 []) { flightS with flt := { flightS.flt with hubHold := true } })
      (fun t => t.mem.flights.length == 1) = true ∧
    (stagingS).stageWaits (flashBase / pageBytes) = true ∧
      nextIs (exec (.pageCopyDone (flashBase / pageBytes) []) stagingS) (fun t => t.mem.flights.length == 1) = true := by decide +kernel

/-! ## Queues and administrative commands (14; 15; 21) -/

/-- Queue 1 with depth 16, tail `t` and head `h` of its submission ring; it has `n` replies unconsumed. -/
def queue1 (t h n : Nat) : Queue := { sqDepth := 16, cqDepth := 16, sqTail := t, sqHead := h, cqTail := n, cqTimes := List.replicate n 0 }
def queueS (q : Queue) : State :=
  { State.reset with q := { State.reset.q with queues := [(1, q)] }, gen := { State.reset.gen with boot := 0x80, eclosed := true } }
theorem test_sq_tail_doorbell :
    (queueS (queue1 0 0 0)).queue 1 = some (queue1 0 0 0) ∧
      nextIs (exec (.sqTailDoorbell 1 15) (queueS (queue1 0 0 0))) (fun t => (t.queue 1).map (·.sqTail) == some 15) = true ∧
      nextIs (exec (.sqTailDoorbell 1 16) (queueS (queue1 0 0 0))) (fun t => (t.queue 1).map (·.frozen) == some true &&
        t.q.errLog.map (fun e => (e.status, e.opcode)) == [(0x0208, 0xFF)]) = true := by decide
theorem test_cq_head_doorbell :
    nextIs (exec (.cqHeadDoorbell 1 2) (queueS (queue1 0 0 2)))
      (fun t => (t.queue 1).map (fun q => (q.cqHead, q.cqTimes)) == some (2, [])) = true ∧
      nextIs (exec (.cqHeadDoorbell 1 16) (queueS (queue1 0 0 2)))
        (fun t => t.q.errLog.map (·.opcode) == [0xFE] && (t.queue 1).map (·.failIndex) == some 16) = true := by decide

/-- A packet of SIG_READ with CID 9. -/
def sigPacket : List Word := packet (0xA0 + 0x90000) []
theorem test_command_fetch :
    (queueS (queue1 1 0 0)).fetchPaused = false ∧ (queueS (queue1 1 0 0)).inUse 1 (queue1 1 0 0) < 15 ∧
      nextIs (exec (.commandFetch [⟨1, 0, some sigPacket⟩]) (queueS (queue1 1 0 0)))
        (fun t => t.q.cmds.map (fun c => (c.qid, c.cid, c.begun)) == [(1, 9, false)] && (t.queue 1).map (·.sqHead) == some 1) = true ∧
      nextIs (exec (.commandFetch []) (queueS (queue1 0 0 0))) (fun t => t.q.cmds == []) = true := by decide
/-- Command 9 of queue 1 is fetched and has not begun. -/
def fetched (w0 : Nat) (fence : Bool) : State :=
  let s := queueS (queue1 1 1 0)
  { s with q := { s.q with cmds := (if fence then [{ cmd7 0xA3 [] [] with started := true }] else []) ++
    [{ seq := 1, qid := 1, cid := 9, index := 0, dwords := packet w0 [] }] } }
theorem test_command_begin :
    (fetched 0xA0 false).q.cmds.any (fetched 0xA0 false).wantsLock = false ∧
      nextIs (exec (.commandBegin 1 []) (fetched 0xA0 false)) (fun t => t.q.cmds.map (·.begun) == [true]) = true ∧
      nextIs (exec (.commandBegin 1 []) (fetched 0x1A0 true)) (fun t => t.q.cmds.map (·.begun) == [true, false]) = true := by decide
theorem test_command_begin_checks :
    nextIs (exec (.commandBegin 1 []) (fetched 0xFF false)) (fun t => replied t == some (0x0101, 0)) = true ∧
      nextIs (exec (.commandBegin 1 []) (fetched 0x2A0 false))
        (fun t => replied t == some (0x0102, 0) && (t.queue 1).map (·.frozen) == some true) = true ∧
      nextIs (exec (.commandBegin 1 []) { fetched 0xA0 false with gen := { (fetched 0xA0 false).gen with eclosed := false } })
        (fun t => replied t == some (0x0107, 0)) = true := by decide
theorem test_reply_point :
    freezing 0x83FE 0x0102 = true ∧ freezing 0x83FE 0 = false ∧
      ((fetched 0xA0 false).replyTo { qid := 1, cid := 9, index := 0, dwords := packet 0xA0 [] } 0 5 none).hostOut =
        [.reply 0 0 5 1 9 0 1 true] := by decide

theorem test_gen_aq_attr :
    nextIs (exec (.genAqAttrWrite (2 ^ 32 + 15 * 2 ^ 16 + 31)) State.reset)
      (fun t => (t.queue 0).map (fun q => (q.sqDepth, q.cqDepth)) == some (32, 16) && bit t.gen.aqAttr 32) = true ∧
      nextIs (exec (.genAqAttrWrite 0)
        { queueS (queue1 0 0 0) with gen := { State.reset.gen with aqAttr := 2 ^ 32 }, q := { State.reset.q with queues := [(0, {})] } })
        (fun t => (t.queue 0).isNone && !bit t.gen.aqAttr 32) = true := by decide +kernel
def createL : List (Nat × Nat) := [(1, 2), (8, 0x000F000F), (9, 0x00010000)]
theorem test_queue_create :
    answers (.queueCreate noBuf) 0x10 createL [] State.reset 0 0 = true ∧
      answers (.queueCreate noBuf) 0x10 [(1, 1)] [] State.reset 0x0202 0 = true ∧
      nextIs (exec (.queueCreate noBuf) (cmdS 0x10 createL [] State.reset))
        (fun t => (t.queue 2).map (fun q => (q.sqDepth, q.weight, q.freezeMask)) == some (16, 1, 6)) = true := by decide +kernel
theorem test_queue_delete :
    answers (.queueDelete noBuf) 0x11 [(1, 1)] [] State.reset 0x0204 0 = true ∧
      nextIs (exec (.queueDelete noBuf) { cmdS 0x11 [(1, 1)] [] State.reset with
        q := { (cmdS 0x11 [(1, 1)] [] State.reset).q with queues := queues ++ [(2, {})], cmds := [cmd7 0x11 [(1, 2)] []] } })
        (fun t => (t.queue 2).isNone && replied t == some (0, 0)) = true := by decide +kernel
/-- Command 7 of queue 0 restarts queue 1, which is frozen and drained. -/
def restartS : State :=
  let s := queueS { queue1 3 1 0 with frozen := true, drained := true }
  { s with q := { s.q with queues := (0, { sqDepth := 16, cqDepth := 16 }) :: s.q.queues, cmds := [{ cmd7 0x12 [(1, 1)] [] with qid := 0 }] } }
theorem test_queue_restart :
    Begun restartS ⟨0, 7, [], []⟩ 0x12 { cmd7 0x12 [(1, 1)] [] with qid := 0 } ∧
      nextIs (exec (.queueRestart ⟨0, 7, [], []⟩ []) restartS)
        (fun t => (t.queue 1).map (fun q => (q.frozen, q.sqHead, q.sqTail)) == some (false, 1, 3) && replied t == some (0, 0)) = true ∧
      answers (.queueRestart noBuf []) 0x12 [(1, 1)] [] State.reset 0x0205 0 = true := by decide
theorem test_queue0_restart :
    nextIs (exec (.queue0Restart 0xFFFF []) { queueS {} with q := { State.reset.q with queues := [(0, {})] } })
      (fun t => (t.queue 0).map (·.freezeMask) == some 0x83FE) = true := by decide
theorem test_coalesce_timer :
    nextIs (exec (.coalesceTimer 1) (queueS { queue1 0 0 1 with coalUs := 2 })) (fun t => t.time == 2000) = true ∧
      nextIs (exec (.coalesceTimer 1) (queueS (queue1 0 0 1))) (fun t => t.time == 0) = true := by decide

/-- ABORT of command 9 of queue 1, which is `d`. -/
def abortS (d : Cmd) : State :=
  let s := cmdS 0x13 [(1, 1), (4, 9)] [] State.reset
  { s with q := { s.q with cmds := s.q.cmds ++ [{ d with cid := 9 }] } }
theorem test_abort :
    nextIs (exec (.abort noBuf []) (abortS { cmd7 0xA3 [] [] with begun := false }))
      (fun t => t.hostOut.map (fun w => match w with | .reply _ _ _ _ cid st _ _ => (cid, st) | _ => (0, 1)) == [(9, 0x0103), (7, 0)]) = true ∧
      nextIs (exec (.abort noBuf []) (abortS { cmd7 0xA3 [] [] with started := true }))
        (fun t => t.hostOut.length == 2 && t.q.cmds == []) = true ∧
      nextIs (exec (.abort noBuf []) (abortS { cmd7 0x32 [] [] with started := true, pnr := true }))
        (fun t => t.hostOut == [] && t.q.cmds.map (·.abortBy) == [none, some ⟨1, 7⟩]) = true := by decide +kernel
theorem test_abort_not_live :
    answers (.abort noBuf []) 0x13 [(1, 1), (4, 9)] [] State.reset 0x0104 0 = true ∧
      answers (.abort noBuf []) 0x13 [(1, 3), (4, 9)] [] State.reset 0x0201 0 = true := by decide +kernel

theorem test_identify :
    answers (.identify noBuf) 0x00 [] [(0, 4096)] State.reset 0 0 = true ∧
      answers (.identify noBuf) 0x00 [(4, 2)] [(0, 4096)] State.reset 0x0102 0 = true := by decide +kernel
theorem test_log_read :
    answers (.logRead noBuf) 0x01 [(4, 1)] [(0, 64)] { queueS {} with q := { State.reset.q with errLog :=
      [⟨0, 1, 0xA0, 9, 0x0102, 0, 0, none, true, none, 0⟩] } } 0 (64 + 2 ^ 32 * 64) = true ∧
      answers (.logRead noBuf) 0x01 [(4, 0x101)] [(0, 64)] State.reset 0x0102 0 = true ∧
      nextIs (exec (.logRead noBuf) (cmdS 0x01 [(4, 0x103)] [(0, 64)] { State.reset with time := 9 }))
        (fun t => t.gen.telClear == 9) = true := by decide +kernel
/-- FID 3 is the thermal ceiling: 95 by default. -/
theorem test_feature_get :
    answers (.featureGet noBuf) 0x02 [(4, 0x003)] [(0, 16)] State.reset 0 95 = true ∧
      answers (.featureGet noBuf) 0x02 [(4, 0x103)] [(0, 16)] State.reset 0 95 = true ∧
      answers (.featureGet noBuf) 0x02 [(4, 0x203)] [(0, 16)] State.reset 0 95 = true := by decide +kernel
theorem test_feature_set :
    answers (.featureSet noBuf true) 0x03 [(4, 2), (6, 3)] [] State.reset 0 0 = true ∧
      answers (.featureSet noBuf true) 0x03 [(4, 2), (6, 4)] [] State.reset 0x010A 0 = true ∧ featureOk 2 4 = false ∧
      consumes State.reset.gen.features 2 3 = none ∧
      nextIs (exec (.featureSet noBuf true) (cmdS 0x03 [(4, 2), (6, 1)] [] State.reset))
        (fun t => t.gen.features.opCeiling == 1) = true := by decide +kernel
theorem test_tally_query :
    answers (.tallyQuery noBuf) 0x0A [] [] State.reset 0 (32 + 8 * 256 + 16 * 65536) = true := by decide +kernel

theorem test_fw_download :
    answers (.fwDownload noBuf) 0x04 [(5, 4)] [(0, 4)] State.reset 0x0106 0 = true ∧
      nextIs (exec (.fwDownload (bufs [[1, 2, 3, 4]])) (cmdS 0x04 [(5, 4)] [(0, 4)] State.reset))
        (fun t => t.gen.fwStage == [(0, 1), (1, 2), (2, 3), (3, 4)] && replied t == some (0, 0)) = true := by decide +kernel
/-- An image of 4,096 bytes whose header names both steppings. -/
def imageHdr : List Byte := leBytes 4 0x4F47414D ++ leBytes 4 1 ++ leBytes 4 0x02000000 ++ leBytes 4 0x03000000 ++ leBytes 4 4096
theorem test_image_ok : imageOk (imageHdr ++ List.replicate 76 0) 4096 = true ∧ imageOk [] 4096 = false := by
  unfold imageOk
  generalize Config.stepping = k
  revert k
  decide +kernel
/-- Beynath's key is opaque (log 6): that an image bears its signature is the one premise no state can show. -/
theorem test_fw_commit :
    answers (.fwCommit noBuf) 0x05 [(4, 1), (5, 4092)] [] State.reset 0x0903 0 = true ∧
      (imageSlot imageHdr).svn = 0 ∧ ((imageSlot imageHdr).svn < State.reset.gen.minSvn) = False ∧
      answers (.fwCommit noBuf) 0x05 [(4, 0), (5, 4092)] [] State.reset 0x0904 0 = true := by decide +kernel
def committing (w : Bool) : State :=
  let s := cmdS 0x05 [] [] State.reset
  { s with gen := { s.gen with fwOp := some (.commit (some ⟨1, 7⟩) 1 { valid := true, version := 0x02000000 } w) } }
theorem test_fw_commit_complete :
    nextIs (exec .fwCommitComplete (committing true))
      (fun t => replied t == some (0, 0x02000000) && (t.sf.slots.getD 1 {}).valid && t.gen.fwOp.isNone) = true := by decide
theorem test_fw_activate :
    answers (.fwActivate noBuf) 0x06 [(4, 0)] [] State.reset 0 0 = true ∧
      answers (.fwActivate noBuf) 0x06 [(4, 1)] [] State.reset 0x0904 0 = true ∧
      nextIs (exec (.fwActivate noBuf) (cmdS 0x06 [(4, 1)] []
        { State.reset with sf := { State.reset.sf with slots := [{}, { valid := true }] } })) (fun t => t.selectedSlot == 1) = true := by
  decide +kernel

def testing : SelfTest := { cmd := ⟨1, 7⟩, extended := false, start := 0 }
def selfTestS (t : SelfTest) (s : State) : State :=
  let s := cmdS 0x07 [] [] s
  { s with gen := { s.gen with selfTest := some t } }
theorem test_self_test :
    nextIs (exec (.selfTest noBuf) (cmdS 0x07 [(4, 1)] [] State.reset))
      (fun t => t.gen.selfTest.map (·.extended) == some true && t.hostOut == []) = true ∧
      answers (.selfTest noBuf) 0x07 [] [] (selfTestS testing State.reset) 0x010C 0 = true := by decide +kernel
/-- The last tests of an idle module; tests before them; the last ones while a core of a job is not yet tested, and once both are. -/
theorem test_self_test_complete :
    nextIs (exec (.selfTestComplete ⟨{ coresFailed := 2 }, true, []⟩) (selfTestS testing State.reset))
      (fun t => t.gen.selfTest.isNone && bit t.flt.coreFlags 1 && replied t == some (0, 1)) = true ∧
      nextIs (exec (.selfTestComplete ⟨{ coresTested := 6, coresFailed := 2 }, false, []⟩) (selfTestS testing State.reset))
        (fun t => t.gen.selfTest.map (·.masks.coresTested) == some 6 && bit t.flt.coreFlags 1 && t.hostOut == []) = true ∧
      nextIs (exec (.selfTestComplete ⟨{}, true, []⟩) (selfTestS testing (jobIn .running))) (fun t => t.gen.selfTest.isSome) = true ∧
      nextIs (exec (.selfTestComplete ⟨{}, true, []⟩) (selfTestS { testing with masks := { coresTested := 1 }, untested := [1] }
          (jobIn .running)))
        (fun t => t.gen.lastSelfTest.map (fun l => (l.drop 4).take 1) == some [0xFD] && replied t == some (0, 0)) = true := by
  decide +kernel
/-- Core 0 is lent, returned with a failure; within 10 ms no second one is lent; then the next core. -/
def lentS : State := { boundaryS 0 .held with jobs := { (boundaryS 0 .held).jobs with
  parts := [{ job := some { job1 with phase := .held, step := 1, first := false, borrow := some 0 } }, {}, {}, {}] } }
theorem test_core_borrow :
    nextIs (exec (.coreBorrow 0 true) (selfTestS testing (boundaryS 0 .held)))
      (fun t => (t.run 0).map (·.borrow) == some (some 0) && t.gen.selfTest.map (·.masks.coresTested) == some 0 &&
        t.flt.coreFlags == 0) = true ∧
      nextIs (exec (.coreBorrow 0 true) (selfTestS testing lentS))
        (fun t => (t.run 0).map (·.borrow) == some none && t.gen.selfTest.map (·.masks.coresFailed) == some 1 &&
          bit t.flt.coreFlags 0) = true ∧
      nextIs (exec (.coreBorrow 0 true) (selfTestS { testing with lastBorrow := [(0, 0)] } { boundaryS 0 .held with time := 9999999 }))
        (fun t => (t.run 0).map (·.borrow) == some none) = true ∧
      nextIs (exec (.coreBorrow 0 false) (selfTestS { testing with masks := { coresTested := 1 }, lastBorrow := [(0, 0)] }
          { boundaryS 0 .held with time := 10000000 })) (fun t => (t.run 0).map (·.borrow) == some (some 1)) = true ∧
      nextIs (exec (.coreBorrow 0 false) (selfTestS testing (boundaryS 0 .boundary)))
        (fun t => (t.run 0).map (·.borrow) == some none) = true ∧
      nextIs (exec (.coreBorrow 0 false) (selfTestS { testing with masks := { coresTested := 3 } } (boundaryS 0 .held)))
        (fun t => (t.run 0).map (·.borrow) == some none) = true := by decide +kernel

def plS (pl : Nat) : State := { State.reset with gen := { State.reset.gen with pl := pl } }
theorem test_protection_set :
    answers (.protectionSet noBuf true) 0x08 [(4, 1)] [] (plS 0) 0 (1 + 32 * 256) = true ∧
      answers (.protectionSet noBuf true) 0x08 [(4, 0)] [] (plS 1) 0x090E 0 = true ∧
      answers (.protectionSet noBuf true) 0x08 [(4, 0), (5, 0x4C4F5745)] [] (plS 2) 0x090A 0 = true := by decide +kernel
theorem test_protection_lowered :
    ((cmdS 0x08 [(4, 0), (5, 0x4C4F5745)] [] (plS 1)).mark noBuf).canLower = true ∧
      nextIs (exec (.protectionSet noBuf true) (cmdS 0x08 [(4, 0), (5, 0x4C4F5745)] [] (plS 1)))
        (fun t => t.gen.pl == 1 && t.remaining 1 == 31 && t.sf.ops.length == 3 && t.hostOut == []) = true := by decide +kernel
theorem test_partition_set :
    answers (.partitionSet noBuf) 0x09 [(4, 3)] [] State.reset 0x0531 0 = true ∧
      answers (.partitionSet noBuf) 0x09 [(4, 0)] [] State.reset 0 0 = true ∧
      answers (.partitionSet noBuf) 0x09 [(4, 2)] [] (jobIn .running) 0x0530 0 = true ∧
      nextIs (exec (.partitionSet noBuf) (cmdS 0x09 [(4, 2)] [] State.reset))
        (fun t => t.gen.layoutReq == some ⟨⟨1, 7⟩, 2, false⟩) = true := by decide +kernel
/-- Layout 2, in force once no write-back runs. -/
def layoutS (s : State) : State :=
  let s := cmdS 0x09 [] [] s
  { s with gen := { s.gen with layoutReq := some ⟨⟨1, 7⟩, 2, false⟩ } }
theorem test_layout_change :
    nextIs (exec .layoutChange (layoutS State.reset)) (fun t => t.gen.layout == 2 && t.gen.layoutReq.isNone && replied t == some (0, 0)) = true ∧
      nextIs (exec .layoutChange (layoutS writebackS)) (fun t => t.gen.layout == 0) = true := by decide +kernel

def replies (t : State) : List (Nat × Nat) :=
  t.hostOut.map fun w => match w with | .reply _ _ _ _ cid st _ _ => (cid, st) | _ => (0, 1)
theorem test_abort_job_start :
    nextIs (exec (.abort noBuf []) (abortS { cmd7 0x60 [] [] with begun := false })) (fun t => replies t == [(9, 0x0527), (7, 0)]) = true ∧
    nextIs (exec (.abort noBuf []) { abortS { cmd7 0x60 [(4, 5 * 2 ^ 8)] [] with started := true } with
        jobs := { State.reset.jobs with queue := [{ queued with cmd := ⟨1, 9⟩, seq := 4 }] } })
      (fun t => t.jobs.queue == [] && replies t == [(9, 0x0527), (7, 0)]) = true := by decide +kernel
theorem test_feature_set_tally :
    consumes State.reset.gen.features 3 96 = some 3 ∧ consumes State.reset.gen.features 3 95 = none ∧
      consumes State.reset.gen.features 4 1 = some 2 ∧
      nextIs (exec (.featureSet noBuf true) (cmdS 0x03 [(4, 3), (6, 96)] [] State.reset))
        (fun t => t.gen.features.thermalCeiling == 96 && t.remaining 3 + 1 == State.reset.remaining 3) = true ∧
      answers (.featureSet noBuf false) 0x03 [(4, 3), (6, 96)] [] State.reset 0x090D 0 = true ∧
      nextIs (exec (.featureSet noBuf true) (cmdS 0x03 [(4, 2), (5, 1), (6, 1)] [] State.reset))
        (fun t => t.gen.features.opCeiling == 3 && t.sf.ops.length == 2 && t.hostOut == []) = true := by decide +kernel
theorem test_image_unsigned : imageSigned (imageHdr ++ List.replicate 4076 0) 4096 = false := by
  have h : ecdsaVerify (slice (imageHdr ++ List.replicate 4076 0) 32 96) ((imageHdr ++ List.replicate 4076 0).take 4000)
      (slice (imageHdr ++ List.replicate 4076 0) 4000 48) (slice (imageHdr ++ List.replicate 4076 0) 4048 48) = false := by
    decide +kernel
  exact (congrArg (_ && ·) h).trans (Bool.and_false _)

/-! ## Flash and system flash (13; 16 R468-R470) -/

/-- The host area holds 1 at byte 3. -/
def sfS : State := { State.reset with sf := { State.reset.sf with host := [(3, 1)] } }
theorem test_sf_read :
    hostRange 0 65536 false = 0 ∧ answers (.sfRead noBuf) 0x30 [(6, 4)] [(0, 4)] sfS 0 4 = true ∧
      answers (.sfRead noBuf) 0x30 [(6, 65537)] [(0, 65540)] sfS 0x0321 0 = true ∧
      nextIs (exec (.sfRead noBuf) (cmdS 0x30 [(6, 4)] [(0, 4)] sfS))
        (fun t => sentData t == some (0, 0, [0xFF, 0xFF, 0xFF, 1])) = true := by decide +kernel
theorem test_sf_program :
    nextIs (exec (.sfProgram (bufs [[7]])) (cmdS 0x31 [(6, 1)] [(0, 4)] sfS))
      (fun t => t.sf.ops == [.program 0 [7] (some ⟨1, 7⟩)] && t.q.cmds.map (·.pnr) == [true]) = true ∧
      nextIs (exec (.sfProgram (bufs [[7, 7, 7, 7]])) (cmdS 0x31 [(6, 4)] [(0, 4)] sfS)) (fun t => replied t == some (0x0320, 3)) = true := by
  decide +kernel
theorem test_sf_erase :
    nextIs (exec (.sfErase noBuf) (cmdS 0x32 [(1, 1023)] [] sfS)) (fun t => t.sf.ops == [.erase 1023 (some ⟨1, 7⟩)]) = true := by decide
theorem test_sf_info : answers (.sfInfo noBuf) 0x33 [] [(0, 16504)] sfS 0 4126 = true := by decide +kernel
def sfOp (o : SfOp) : State := { cmdS 0x31 [] [] sfS with sf := { sfS.sf with ops := [o] } }
theorem test_sf_operation_complete :
    nextIs (exec .sfOperationComplete (sfOp (.erase 0 (some ⟨1, 7⟩)))) (fun t => t.sf.host == [] && replied t == some (0, 0)) = true ∧
      nextIs (exec .sfOperationComplete (sfOp (.program 4 [5] (some ⟨1, 7⟩))))
        (fun t => t.sf.host == [(3, 1), (4, 5)] && replied t == some (0, 1) && t.sf.ops == []) = true := by decide +kernel

/-- Zone 2 is open with 16 blocks. -/
def openS : State := { State.reset with fl := { State.reset.fl with zones := [(2, { state := .opened, wp := 16, seqPtr := 16 })] } }
def block1 : List Byte := 1 :: List.replicate 4095 0
def zlba (z off : Nat) : List (Nat × Nat) := [(4, (z * zoneBlocks + off) % 2 ^ 32), (5, (z * zoneBlocks + off) / 2 ^ 32), (6, 1)]
theorem test_zone_write :
    nextIs (exec (.zoneWrite (bufs [block1])) (cmdS 0x21 (zlba 2 16) [(0, 4096)] openS))
      (fun t => t.fl.arrived.map (fun o => (o.zone, o.first, o.blocks)) == [(2, 16, 1)]) = true ∧
      answers (.zoneWrite noBuf) 0x21 (zlba 368640 0) [(0, 4096)] openS 0x030A 0 = true ∧
      answers (.zoneWrite noBuf) 0x21 [(6, 0)] [] openS 0x0303 0 = true := by decide +kernel
theorem test_zone_append :
    nextIs (exec (.zoneAppend (bufs [block1])) (cmdS 0x22 [(1, 2), (6, 1)] [(0, 4096)] openS))
      (fun t => t.fl.arrived.map (·.op) == [.write true]) = true ∧
      answers (.zoneAppend noBuf) 0x22 [(1, 368640), (6, 1)] [(0, 4096)] openS 0x030A 0 = true := by decide +kernel
theorem test_zone_read :
    (cmdS 0x20 (zlba 2 15) [(0, 4096)] openS).pageReads (2 * zoneBlocks + 15) 1 = [2 * zoneBlocks + 15] ∧
      nextIs (exec (.zoneRead noBuf) (cmdS 0x20 (zlba 2 15) [(0, 4096)] openS)) (fun t => t.fl.reads.length == 1 && t.hostOut == []) = true ∧
      answers (.zoneRead noBuf) 0x20 (zlba 2 16) [(0, 4096)] openS 0x0304 0 = true ∧
      answers (.zoneRead noBuf) 0x20 (zlba 2 0) [(0, 4096)]
        { State.reset with fl := { State.reset.fl with zones := [(2, { state := .offline })] } } 0x0309 0 = true := by decide +kernel
theorem test_zone_read_buffered :
    answers (.zoneRead noBuf) 0x20 (zlba 2 15) [(0, 4096)] { openS with fl := { openS.fl with buffered := [(2, 0)] } } 0 0 = true := by
  decide +kernel
theorem test_zone_management :
    nextIs (exec (.zoneReset noBuf) (cmdS 0x23 [(1, 2)] [] openS)) (fun t => t.fl.arrived.map (·.op) == [.reset]) = true ∧
      nextIs (exec (.zoneFinish noBuf) (cmdS 0x24 [(1, 368639)] [] openS)) (fun t => t.fl.arrived.map (·.zone) == [368639]) = true ∧
      answers (.zoneReset noBuf) 0x23 [(1, 368640)] [] openS 0x030A 0 = true := by decide
theorem test_zone_report :
    answers (.zoneReport noBuf) 0x25 [(1, 368639), (6, 2)] [(0, 128)] openS 0 1 = true ∧
      answers (.zoneReport noBuf) 0x25 [(1, 368640), (6, 1)] [(0, 64)] openS 0x030A 0 = true := by decide +kernel

/-- Command 7 stands before the sequencer of zone 2 with one block at `first`. -/
def arrivedS (op : SeqOp) (first : Nat) : State :=
  let s := cmdS 0x21 (zlba 2 16) [] openS
  { s with fl := { s.fl with arrived := [⟨some ⟨1, 7⟩, 2, op, first, 1, block1⟩] } }
theorem test_zone_sequence :
    Sparse.wf ({} : Zone) (arrivedS (.write false) 16).fl.zones = true ∧
      nextIs (exec (.zoneSequence 1 7) (arrivedS (.write false) 16))
        (fun t => t.fl.seqd.map (·.first) == [16] && (t.zone 2).seqPtr == 17 && (t.zone 2).wp == 16) = true ∧
      nextIs (exec (.zoneSequence 1 7) (arrivedS (.write false) 17)) (fun t => replied t == some (0x0301, 0)) = true := by decide +kernel
/-- The write is sequenced at block 16. -/
def seqdS : State :=
  let s := cmdS 0x21 (zlba 2 16) [] openS
  { s with fl := { s.fl with seqd := [⟨some ⟨1, 7⟩, 2, .write false, 16, 1, [1]⟩] } }
theorem test_zone_reply_point :
    seqdS.durable ⟨some ⟨1, 7⟩, 2, .write false, 16, 1, [1]⟩ = true ∧
      nextIs (exec (.zoneReplyPoint 2) seqdS) (fun t => (t.zone 2).wp == 17 && replied t == some (0, 17) &&
        t.fl.seqd == []) = true := by decide +kernel
/-- The die of unit 1 of zone 2 programs it. -/
def programS : State := openS.setDie (openS.dieAt 2 1) fun x => { x with op := some (.program 2 1) }
theorem test_unit_program_complete :
    Sparse.wf ({} : Die) programS.fl.dies = true ∧
      nextIs (exec (.unitProgramComplete 2 1 true) { programS with fl := { programS.fl with buffered := [(2, 1)] } })
        (fun t => t.fl.buffered == [] && (t.die (t.dieAt 2 1)).op.isNone) = true ∧
      nextIs (exec (.unitProgramComplete 2 0 true) programS) (fun t => t.fl.dies == programS.fl.dies) = true := by decide +kernel
def eraseS : State :=
  (List.range 16).foldl (fun s p => s.setDie (s.dieAt 2 p) fun x => { x with op := some (.erase 2 p) })
    { State.reset with fl := { State.reset.fl with zones := [(2, { erasing := true })], eraseQ := [2] } }
theorem test_zone_erase_complete :
    nextIs (exec (.zoneEraseComplete 2 []) eraseS) (fun t => !(t.zone 2).erasing && t.fl.eraseQ == [] &&
      t.erasesOf (t.blockAt 2 15) == 1) = true := by decide +kernel

/-- A ZONE_READ of one block of zone 2 waits for its page, and so does a DMA of core 0. -/
def readS (by_ : ReadFor) (s : State) : State :=
  let s := cmdS 0x20 (zlba 2 15) [(0, 4096)] s
  { s with fl := { openS.fl with reads := [{ by_ := by_, waiting := [2 * zoneBlocks + 15] }] } }
theorem test_flash_read_complete :
    nextIs (exec (.flashReadComplete (2 * zoneBlocks + 15) 1 { lost := [] }) (readS (.zoneRead ⟨1, 7⟩) openS))
      (fun t => t.fl.reads == [] && replied t == some (0, 0)) = true ∧
      nextIs (exec (.flashReadComplete (2 * zoneBlocks + 15) 1 { lost := [2 * zoneBlocks + 15] }) (readS (.dma 0) (jobIn .running)))
        (fun t => t.flt.detections.map (fun d => (d.info.status, d.info.addr)) == [(0x0F04, 2 * zoneBlocks + 15)]) = true := by
  decide +kernel
/-- The die of that page programs. -/
def dieNo : Nat := openS.dieAt 2 0
def busyDie (x : Die) : State := (readS (.zoneRead ⟨1, 7⟩) openS).setDie dieNo fun _ => { x with op := some (.program 2 0) }
theorem test_die_suspend :
    (busyDie {}).readsOn dieNo = 1 ∧
      nextIs (exec (.dieSuspend dieNo) { busyDie {} with time := 50000 }) (fun t => (t.die dieNo).suspended && (t.die dieNo).suspends == 1) = true ∧
      nextIs (exec (.dieSuspend dieNo) { busyDie {} with time := 49999 }) (fun t => !(t.die dieNo).suspended) = true ∧
      nextIs (exec (.dieSuspend dieNo) { busyDie { suspends := 8 } with time := 50000 }) (fun t => !(t.die dieNo).suspended) = true := by
  decide +kernel
theorem test_die_resume :
    nextIs (exec (.dieResume dieNo) (busyDie { suspended := true, served := 16 })) (fun t => !(t.die dieNo).suspended) = true ∧
      nextIs (exec (.dieResume dieNo) (busyDie { suspended := true, served := 15 })) (fun t => (t.die dieNo).suspended) = true := by
  decide +kernel
theorem test_read_level_calibration :
    (openS.die 1535).serves = true ∧ openS.readsOn 1535 = 0 ∧
      nextIs (exec (.readLevelCalibration 1535) (openS.setDie 1535 fun x => { x with erasesSince := 9 }))
        (fun t => (t.die 1535).erasesSince == 0) = true := by decide
theorem test_holdup_check :
    nextIs (exec (.holdupCheck false) State.reset) (fun t => t.flt.holdupFail && bit t.flt.evt 2) = true ∧
      nextIs (exec (.holdupCheck true) State.reset) (fun t => t.fl.holdupOk && t.flt.evt == 0) = true := by decide
/-- `n` records follow the newest checkpoint; the oldest sector in use holds the record of number 0. -/
def longJournal (n : Nat) : State :=
  { State.reset with fl := { State.reset.fl with journalSeq := n, journal := [⟨1040, [JournalRec.bytes 0 (.finish 0 0)]⟩] } }
theorem test_journal_checkpoint : 32 * 2 ^ 20 < (longJournal 1048577).unreplayed ∧
    nextIs (exec .journalCheckpoint (longJournal 1048577)) (fun t => t.fl.checkpoint.number == 1 &&
      t.fl.journal.map (fun j => (j.sector, j.records.length)) == [(1041, 1)] && t.sectorWord 1040 == wordErased) = true ∧
    (longJournal 1048576).unreplayed ≤ 32 * 2 ^ 20 ∧
    nextIs (exec .journalCheckpoint (longJournal 1048576)) (fun t => t.fl.checkpoint.number == 0) = true := by decide +kernel
/-- TYPE, SEQ, OBJECT and WP of a FINISH record, dword by dword (13 R384); a changed byte fails its CRC (13 R386). -/
theorem test_journal_record :
    (JournalRec.bytes 7 (.finish 9 32)).take 28 =
      leBytes 4 3 ++ leBytes 4 7 ++ leBytes 4 0 ++ leBytes 4 9 ++ leBytes 4 32 ++ leBytes 4 0 ++ leBytes 4 0 ∧
      recordOf (JournalRec.bytes 7 (.finish 9 32)) = some (.finish 9 32) ∧
      recordOf ((JournalRec.bytes 7 (.finish 9 32)).set 12 8) = none := by decide +kernel

/-- A lowering from PL1 stands at operation `o`. -/
def lowering (o : SfOp) : State :=
  { State.reset with
    gen := { State.reset.gen with pl := 1 }
    sf := { State.reset.sf with ops := [o] }
    fl := { openS.fl with zones := openS.fl.zones ++ [(3, { state := .offline })] } }
theorem test_lowering_steps :
    State.reset.sf.keyRecs.length = 2 ∧
    nextIs (exec .sfOperationComplete (lowering (.lowerKey 1 none))) (fun t => t.sf.ops == [] && t.gen.pl == 1 && t.fl.keyGen == 0 &&
      t.sf.keyRecs.getD State.reset.spareKey none == some { generation := 1 }) = true ∧
    nextIs (exec .sfOperationComplete (lowering (.lowerCommit 1 none))) (fun t => t.gen.pl == 1 && t.fl.keyGen == 1 &&
      (t.zone 2).state == .empty && (t.zone 3).state == .offline) = true ∧
    nextIs (exec .sfOperationComplete (lowering (.lowerRest none))) (fun t => t.gen.pl == 0 && t.sf.ops == []) = true := by decide +kernel

/-! ## Resets, power loss, recovery (14 R435; 20 R566-R581; 21 R589) -/

def flrS : State :=
  let s := cmdS 0xA3 [] [] State.reset
  { s with sig := { s.sig with cells := [(1, 2)], waits := [⟨⟨1, 7⟩, 1, 9, 0, 0⟩] } }
theorem test_function_level_reset :
    flrS.sized ∧ flrS.wlk.requests = [] ∧
      nextIs (exec .functionLevelReset flrS)
        (fun t => t.q.queues == [] && t.q.cmds == [] && t.sig.waits == [] && t.sig.cells == [(1, 2)]) = true := by
  unfold State.sized
  decide +kernel
theorem test_hot_reset :
    nextIs (exec (.hotReset 5 16) flrS) (fun t => t.pci.up && t.pci.width == 16 && t.q.queues == []) = true := by decide +kernel
/-- Zone 2 is open with 17 blocks: a device reset pads it to 32. -/
def resetS : State :=
  { jobIn .running with fl := { State.reset.fl with zones := [(2, { state := .opened, wp := 17, seqPtr := 17 })] }, time := 5 }
theorem test_flt_reset :
    nextIs (exec (.fltReset 0x44455652 [] true) resetS) (fun t => t.flt.resetCause == 1 && (t.run 0).isNone && t.time == 5 &&
      (t.zone 2).wp == 32 && t.gen.boot == 0) = true ∧
      nextIs (exec (.fltReset 0 [] true) resetS) (fun t => (t.run 0).isSome) = true := by decide +kernel
theorem test_perst_assert :
    nextIs (exec (.perstAssert [] true) resetS) (fun t => t.flt.resetCause == 2 && t.phys.perst && (t.run 0).isNone) = true := by
  decide +kernel
def autoS (req : Bool) : State := { resetS with flt := { resetS.flt with resetReq := req, autoReset := true } }
theorem test_auto_reset :
    nextIs (exec (.autoReset [] true) (autoS true)) (fun t => t.flt.resetCause == 3 && (t.run 0).isNone) = true ∧
      nextIs (exec (.autoReset [] true) (autoS false)) (fun t => (t.run 0).isSome) = true := by decide +kernel
theorem test_power_loss :
    nextIs (exec (.powerLoss [] true) resetS) (fun t => !t.phys.on && !t.phys.inputIn && t.time == 0 && (t.zone 2).wp == 32) = true ∧
      nextIs (exec (.pwrenLow [] true) resetS) (fun t => !t.phys.on && !t.phys.pwren) = true := by decide +kernel
theorem test_sense_break :
    nextIs (exec (.senseBreak [] true) resetS) (fun t => !t.phys.on && !t.phys.sense) = true ∧
      nextIs (exec (.inputOvervoltage 63001 [] true) resetS) (fun t => !t.phys.on) = true ∧
      nextIs (exec (.inputOvervoltage 63000 [] true) resetS) (fun t => t.phys.on) = true := by decide +kernel
def holdS (t : Nat) : State := { resetS with flt := { resetS.flt with hubHold := true, hubHoldSince := 0 }, time := t }
theorem test_hub_shutdown :
    nextIs (exec (.hubShutdown 120 [] true) (holdS 0)) (fun t => !t.phys.on && t.phys.shutdown) = true ∧
      nextIs (exec (.hubShutdown 119 [] true) (holdS 60000000000)) (fun t => !t.phys.on) = true ∧
      nextIs (exec (.hubShutdown 119 [] true) (holdS 59999999999)) (fun t => t.phys.on) = true := by decide +kernel
/-- The four management cores run; the last expiry was 10 s ago, or a nanosecond more. -/
def dogS (t : Nat) : State := { State.reset with flt := { State.reset.flt with mgmtUp := 15, lastWatchdog := some 0 }, time := t }
theorem test_watchdog_expiry :
    nextIs (exec (.watchdogExpiry 1 []) (dogS 10000000001))
      (fun t => t.flt.mgmtUp == 13 && bit t.flt.evt 1 && !t.flt.resetReq) = true ∧
      nextIs (exec (.watchdogExpiry 1 []) (dogS 10000000000)) (fun t => t.flt.resetReq && bit t.flt.evt 4) = true := by decide +kernel
theorem test_lifetime_snapshot :
    nextIs (exec (.lifetimeSnapshot true) { State.reset with time := 9 }) (fun t => t.lifeLog.poweredNs == 9) = true ∧
      nextIs (exec (.lifetimeSnapshot false) { State.reset with time := 9 }) (fun t => bit t.flt.evt 5 && t.lifeLog == {}) = true := by
  decide +kernel
def restarting : State :=
  { State.reset with gen := { State.reset.gen with fwOp := some (.restart none 0), restarting := true } }
theorem test_imago_restart :
    restarting.mgmtBusy none = false ∧
      nextIs (exec (.imagoRestart true) restarting)
        (fun t => t.flt.mgmtUp == 15 && t.gen.version == 0x01000000 && !t.gen.restarting) = true ∧
      nextIs (exec (.imagoRestart false) restarting) (fun t => t.flt.mgmtUp == 0 && t.flt.resetReq) = true := by decide +kernel

/-! ## Bundles, jobs and sequences (07; 08; 16 R473-R483) -/

/-- A bundle image of four sections: its dwords that are not zero, each with the zero bytes behind it. -/
def image1 : List Byte :=
  [(0x4E415352, 0), (0x1, 0), (0x1000000, 0), (0x8, 0), (0x20C0, 4), (0x4, 36), (0x1, 4), (0x1000, 20), (0x2, 4), (0x1000, 20),
   (0x9, 0), (0x1, 0), (0x1000, 4), (0x40, 12), (0x8, 0), (0x1, 0), (0x2000, 4), (0x28, 3916), (0x1, 4092), (0x1, 76),
   (0xD13DB1CD, 108)].flatMap
    fun e : Nat × Nat => leBytes 4 e.1 ++ List.replicate e.2 0
theorem test_image_format : formatOk image1 = true := by decide +kernel
/-- The check value of CRC-32C over the ASCII digits 1 to 9. -/
theorem test_crc : crc32c [49, 50, 51, 52, 53, 54, 55, 56, 57] = 0xE3069283 := by decide +kernel
theorem test_bundle_load_refused :
    answers (.bundleLoad noBuf (bundle1 0).view []) 0x48 [] [] State.reset 0x0105 0 = true ∧
      formatOk [0] = false ∧ answers (.bundleLoad (bufs [[0]]) (bundle1 0).view []) 0x48 [] [(0, 1)] State.reset 0x0501 0 = true := by
  decide +kernel
/-- The image with another CRC in its trailer: of two images with one body, at most one matches. -/
def image2 : List Byte := image1.set 8272 0
theorem test_image_crc :
    ∃ bs ∈ [image1, image2], formatOk bs = true ∧ crc32c (bs.take 8272) ≠ dwordAt (bs.drop 8272) 0 := by
  have h1 : image2.take 8272 = image1.take 8272 := List.take_set_of_le (Nat.le_refl 8272)
  have h2 : formatOk image2 = true ∧ dwordAt (image1.drop 8272) 0 = 0xD13DB1CD ∧ dwordAt (image2.drop 8272) 0 = 0xD13DB100 := by
    decide +kernel
  by_cases h : crc32c (image1.take 8272) = 0xD13DB1CD
  · exact ⟨image2, by simp, h2.1, by rw [h1, h, h2.2.2]; decide⟩
  · exact ⟨image1, by simp, test_image_format, by rw [h2.2.1]; exact h⟩
/-- What an accepted image meets; the CRC of its trailer was worked out by hand. The releases of an imago are opaque (log 8): that the
imago knows major version 1 is the one premise no state can show. -/
theorem test_bundle_load_accepted :
    signatureOf [] image1 = .absent ∧ State.reset.gen.pl ≠ 2 ∧ tablesOk image1 false = true ∧
      programsBad 4096 [0] (bundle1 0).view.programs.zipIdx = none ∧
      (scheduleOf (sectionBytes image1 0x08)).map (·.layers) = some [⟨0, 0⟩] ∧ resourcesOk image1 0 1 = true ∧
      refsOf image1 = [] ∧ addressesOk image1 { (bundle1 0).view with tableAddrs := [] } [] 1024 = true ∧
      excIs (placeBundle (cmdS 0x48 [] [(0, 8384)] State.reset) 0 image1 (bundle1 0).view [])
        (fun r => r.2 == [] && r.1.mem.maps == []) 0 = true := by decide +kernel
theorem test_bundle_unload :
    answers (.bundleUnload noBuf) 0x49 [(1, 3)] [] (withBundle 0 State.reset) 0 0 = true ∧
      nextIs (exec (.bundleUnload noBuf) (cmdS 0x49 [(1, 3)] [] (withBundle 0 State.reset))) (fun t => t.jobs.bundles == []) = true ∧
      answers (.bundleUnload noBuf) 0x49 [(1, 4)] [] (withBundle 0 State.reset) 0x050B 0 = true ∧
      answers (.bundleUnload noBuf) 0x49 [(1, 3)] [] (jobIn .running) 0x050A 0 = true := by decide +kernel

/-- One grant of general page 1, one binding of slot 2 to cell 9. -/
def grantB : List Byte := leBytes 4 0 ++ leBytes 4 1 ++ leBytes 8 pageBytes ++ leBytes 4 (2 + 2 ^ 8 * 9) ++ leBytes 4 0
def startS : State :=
  { memS with jobs := { memS.jobs with bundles := [{ bundle1 0 with res := ⟨0, 1, 1, 0, 0, 0, 0, 0, 0, 0⟩ }] } }
theorem test_job_start :
    nextIs (exec (.jobStart (bufs [grantB])) (cmdS 0x60 [(1, 3), (4, 255 * 2 ^ 8), (5, 2 ^ 16 + 1)] [(0, 24)] startS))
      (fun t => t.jobs.queue.map (fun q => (q.number, q.partition, q.grants, q.binds)) ==
        [(255, 0, [⟨0, false, 1, pageBytes⟩], [⟨2, 9, 0⟩])] && t.hostOut == []) = true ∧
      answers (.jobStart noBuf) 0x60 [(1, 4), (4, 0)] [] startS 0x050B 0 = true ∧
      answers (.jobStart noBuf) 0x60 [(1, 0), (4, 2 ^ 24)] [] startS 0x052C 0 = true := by decide +kernel
theorem test_job_start_refused :
    answers (.jobStart noBuf) 0x60 [(1, 3), (4, 5 * 2 ^ 8)] [] (jobIn .running) 0x0521 0 = true ∧
      answers (.jobStart noBuf) 0x60 [(1, 3), (4, 3)] [] { startS with gen := { startS.gen with layout := 1 } } 0x0522 0 = true := by
  decide +kernel
/-- Command 7 has begun when no job bore the number that it names. -/
def noJobS (op : Nat) (l : List (Nat × Nat)) : State :=
  let s := cmdS op l [] (jobIn .running)
  { s with q := { s.q with cmds := [{ cmd7 op l [] with job := none }] } }
theorem test_job_not_found :
    (noJobS 0x62 [(1, 6)]).jobSeq 6 = none ∧ Begun (noJobS 0x62 [(1, 6)]) noBuf 0x62 { cmd7 0x62 [(1, 6)] [] with job := none } ∧
      nextIs (exec (.jobPark noBuf) (noJobS 0x62 [(1, 6)])) (fun t => replied t == some (0x0528, 0)) = true ∧
      nextIs (exec (.jobAbort noBuf []) (noJobS 0x63 [(1, 6)])) (fun t => replied t == some (0x0528, 0)) = true ∧
      answers (.jobEnd noBuf) 0x61 [(1, 5)] [] State.reset 0x052A 0 = true := by decide +kernel
theorem test_job_end_park :
    nextIs (exec (.jobEnd noBuf) (cmdS 0x61 [(1, 5)] [] (jobIn .running)))
      (fun t => (t.run 0).map (·.pendings) == some [⟨false, ⟨1, 7⟩⟩] && t.hostOut == []) = true ∧
      nextIs (exec (.jobPark noBuf) (cmdS 0x62 [(1, 5)] [] (jobIn .running)))
        (fun t => (t.run 0).map (·.pendings) == some [⟨true, ⟨1, 7⟩⟩]) = true ∧
      answers (.jobEnd noBuf) 0x61 [(1, 5)] [] { queuedS with jobs := { queuedS.jobs with queue := [{ queued with seq := 4 }] } } 0x0529 0 = true := by
  decide +kernel
theorem test_job_park_twice :
    answers (.jobPark noBuf) 0x62 [(1, 5)] [] (withJob { job1 with pendings := [⟨true, ⟨1, 9⟩⟩] } State.reset) 0x052D 0 = true := by
  decide +kernel
theorem test_job_abort :
    answers (.jobAbort noBuf []) 0x63 [(1, 5)] []
        { queuedS with jobs := { queuedS.jobs with queue := [{ queued with cmd := ⟨1, 9⟩, seq := 4 }] } } 0 0 = true ∧
      (jobIn .running).sized ∧
      nextIs (exec (.jobAbort noBuf []) (cmdS 0x63 [(1, 5)] [] (jobIn .running)))
        (fun t => (t.run 0).isNone && (t.core 95).run == .idle) = true ∧
      nextIs (exec (.jobAbort noBuf []) (cmdS 0x63 [(1, 5)] [] (jobIn .faulted)))
        (fun t => (t.run 0).map (·.pendings) == some [⟨false, ⟨1, 7⟩⟩] && t.hostOut == []) = true := by
  unfold State.sized
  decide +kernel
def cocoon1 : Cocoon :=
  { handle := 63, bundle := 3, step := 1, ranks := [], entries := [], base := 0, privPages := 0, samplePages := 0, pinPages := 0 }
def cocoonS (q : List QueuedJob) : State :=
  { State.reset with jobs := { State.reset.jobs with cocoons := [cocoon1], queue := q } }
theorem test_cocoon_discard :
    nextIs (exec (.cocoonDiscard noBuf) (cmdS 0x64 [(1, 63)] [] (cocoonS []))) (fun t => t.jobs.cocoons == []) = true ∧
      answers (.cocoonDiscard noBuf) 0x64 [(1, 63)] [] (cocoonS [{ queued with resume := true, handle := 63 }]) 0x0529 0 = true ∧
      answers (.cocoonDiscard noBuf) 0x64 [(1, 62)] [] (cocoonS []) 0x052C 0 = true := by decide +kernel

/-- A generation job runs in partition 0. -/
def genS : State := withBundle 1 (jobIn .running)
/-- A join record: dword 0 `d0`, one kind-0 segment of buffer 1. -/
def joinRec (d0 : Nat) : List Byte :=
  leBytes 4 (d0 + 2 ^ 16) ++ leBytes 4 1 ++ leBytes 4 0 ++ leBytes 4 0x3F800000 ++ leBytes 8 0 ++ leBytes 4 1 ++ List.replicate 24 0 ++
    leBytes 4 6 ++ List.replicate 72 0 ++ leBytes 4 0x10 ++ List.replicate 12 0
def joinBuf (d0 : Nat) : HostCmd := bufs [joinRec d0, leBytes 4 49]
def seqLens : List (Nat × Nat) := [(0, 144), (1, 4)]
theorem test_seq_join :
    (joinRec 0).length = 144 ∧ (genS.genJob 0).map (·.2) = some ⟨64, 100, 50, 0⟩ ∧ joinRing job1 (joinRec 0) = true ∧
      (recReserved (joinRec 0) && recSampling (joinRec 0)) = true ∧
      nextIs (exec (.seqJoin (joinBuf 0)) (cmdS 0x68 [(1, 9)] seqLens genS))
        (fun t => (t.entry 0).map (fun e => (e.handle, e.state, e.arrival, e.pending)) == some (9, .waiting, 0, 1) &&
          replied t == some (0, 0) && t.seqs.arrival == [1, 0, 0, 0]) = true ∧
      answers (.seqJoin (joinBuf 0)) 0x68 [(1, 9)] seqLens State.reset 0x0606 0 = true := by decide +kernel
theorem test_seq_join_refused :
    answers (.seqJoin (joinBuf 0x200)) 0x68 [(1, 9)] seqLens genS 0x0609 0 = true ∧
      answers (.seqJoin (bufs [joinRec 0, leBytes 4 50])) 0x68 [(1, 9)] seqLens genS 0x060A 0 = true := by decide +kernel
/-- Entry 0 of partition 0 bears handle 9. -/
def entry1 : SeqEntry := { newEntry 9 0 (joinRec 0) [] with state := .idle, position := 98 }
/-- The record of entry place 1 and adaptive tensor 2 of 4 lies in the private board memory of its job (03 R89). -/
theorem test_scale_record :
    let b := { bundle1 1 with res := { (bundle1 1).res with adaptiveT := 4 }, view := { (bundle1 1).view with scaleBase := 4096 } }
    scaleAddr State.reset { job1 with privBase := pageBytes } b 1 2 = pageBytes + 4096 + 16 * 6 ∧
      ScalePair.bytes ⟨0x3F80, true, 3, 5, 7⟩ = leBytes 4 0x13F80 ++ leBytes 4 3 ++ leBytes 4 5 ++ leBytes 4 7 := by decide +kernel
def seqS (f : SeqEntry → SeqEntry) : State := { genS with seqs := { genS.seqs with entries := [(0, f entry1)], arrival := [1, 0, 0, 0] } }
theorem test_seq_feed :
    (seqS id).seqOf 0 9 = some (0, entry1) ∧
      nextIs (exec (.seqFeed (joinBuf 0x400)) (cmdS 0x69 [(1, 9)] seqLens (seqS id)))
        (fun t => (t.entry 0).map (fun e => (e.state, e.position, e.pending, e.arrival)) == some (.waiting, 98, 1, 1)) = true ∧
      answers (.seqFeed (joinBuf 0)) 0x69 [(1, 8)] seqLens (seqS id) 0x0603 0 = true ∧
      answers (.seqFeed (joinBuf 0)) 0x69 [(1, 9)] seqLens (seqS fun e => { e with state := .dropped }) 0x0608 0 = true ∧
      answers (.seqFeed (joinBuf 0)) 0x69 [(1, 9)] seqLens (seqS fun e => { e with state := .running }) 0x0604 0 = true := by
  decide +kernel
theorem test_seq_join_exists :
    answers (.seqJoin (joinBuf 0)) 0x68 [(1, 9)] seqLens (seqS id) 0x0602 0 = true ∧
      answers (.seqFeed (joinBuf 0)) 0x69 [(1, 9)] seqLens (seqS fun e => { e with leaving := true }) 0x0603 0 = true ∧
      answers (.seqFeed (joinBuf 0)) 0x69 [(1, 9)] seqLens (seqS fun e => { e with position := 99 }) 0x0605 0 = true := by
  decide +kernel
theorem test_seq_leave :
    nextIs (exec (.seqLeave noBuf) (cmdS 0x6A [(1, 9)] [] (seqS id)))
      (fun t => (t.entry 0).map (·.leaving) == some true && t.seqs.leaves == [⟨⟨1, 7⟩, 0, 0⟩] && t.hostOut == []) = true ∧
      answers (.seqLeave noBuf) 0x6A [(1, 8)] [] (seqS id) 0x0603 0 = true := by decide +kernel
def stepped : State :=
  let s := seqS id
  { s with seqs := { s.seqs with policy := s.seqs.policy.set 0 { hostStepped := true } } }
theorem test_seq_step :
    nextIs (exec (.seqStep noBuf) (cmdS 0x6B [] [] stepped)) (fun t => t.seqs.steps == [(⟨1, 7⟩, 0)] && t.hostOut == []) = true ∧
      answers (.seqStep noBuf) 0x6B [] [] (seqS id) 0 (2 ^ 32) = true := by decide +kernel
theorem test_seq_query :
    answers (.seqQuery noBuf) 0x6C [(1, 9)] [(0, 128)] (seqS id) 0 (3 + 98 * 2 ^ 32) = true := by decide +kernel
theorem test_seq_policy :
    nextIs (exec (.seqPolicy noBuf) (cmdS 0x6D [(5, 1024), (6, 65536), (7, 1)] [] State.reset))
      (fun t => t.seqs.next == [some ⟨1024, 65536, true⟩, none, none, none] && t.seqs.policy == State.reset.seqs.policy) = true ∧
      answers (.seqPolicy noBuf) 0x6D [(5, 1025), (6, 1)] [] State.reset 0x0102 0 = true ∧
      answers (.seqPolicy noBuf) 0x6D [(4, 3), (5, 1), (6, 1)] [] { State.reset with gen := { State.reset.gen with layout := 1 } }
        0x0522 0 = true := by decide +kernel

theorem test_required :
    requiredOk (bundle1 0).view image1 = true ∧
      requiredOk { (bundle1 0).view with programs := [[iw 0x30 0 0 0 0 0 0 0]] } image1 = false := by decide +kernel

/-! ## Vector indexes, queries, signal cells (11; 12; 16 R484-R494) -/

/-- Index 2: 64 dimensions, two centroids of which one exists at first, one item, in pages 1 to 8. -/
def defBytes : List Byte :=
  leBytes 4 (2 + 6 * 2 ^ 12) ++ leBytes 4 64 ++ leBytes 4 2 ++ leBytes 4 1 ++ leBytes 8 1 ++ leBytes 4 3 ++ leBytes 4 0 ++ leBytes 8 0 ++
    leBytes 8 pageBytes ++ leBytes 4 8 ++ List.replicate 76 0
def defn2 : IndexDef := defOf (defBytes.take 64)
def roomS : State := { State.reset with mem := { State.reset.mem with allocs := [⟨1, 8, .host⟩] } }
theorem test_index_create :
    defn2.ok = true ∧ defReserved (defBytes.take 64) defn2 = true ∧ defn2.pagesAll = 8 ∧ createBytes defn2 = 128 ∧
      createStatus defn2 defBytes = 0 ∧
      nextIs (exec (.indexCreate (bufs [defBytes])) (cmdS 0x80 [] [(0, 128)] roomS))
        (fun t => replied t == some (0, 2) && (t.index 2).map (·.cur) == some 1 && t.liveCents defn2 1 == [0]) = true ∧
      answers (.indexCreate (bufs [List.replicate 64 0])) 0x80 [] [(0, 64)] roomS 0x0703 0 = true := by decide +kernel
/-- The index exists, as `f` gives it. -/
def idxS (f : Index → Index) : State := (roomS.createIndex defn2 defBytes).setIndex 2 f
theorem test_index_exists :
    answers (.indexCreate (bufs [defBytes])) 0x80 [] [(0, 128)] (idxS id) 0x0701 0 = true ∧
      answers (.indexInfo noBuf) 0x89 [(1, 3)] [(0, 64)] (idxS id) 0x0702 0 = true := by decide +kernel
theorem test_index_destroy :
    (idxS id).indexGranted 2 defn2 = false ∧ ((idxS id).idx.indexes.Pairwise fun a b => a.1 < b.1) ∧
      nextIs (exec (.indexDestroy noBuf) (cmdS 0x81 [(1, 2)] [] (idxS id))) (fun t => (t.index 2).isNone) = true ∧
      answers (.indexDestroy noBuf) 0x81 [(1, 2)] []
        { idxS id with jobs := (withJob { job1 with grants := [⟨2, false, 0, 2⟩] } State.reset).jobs } 0x0705 0 = true := by
  decide +kernel
def insertRec : List Byte := leBytes 8 77 ++ List.replicate 120 0
/-- One insert, and one more of the same identifier: RSTAT 0 and 1. -/
theorem test_index_insert :
    defn2.fr = 128 ∧
      nextIs (exec (.indexInsert (bufs [insertRec ++ insertRec])) (cmdS 0x82 [(1, 2), (4, 2)] [(0, 256), (1, 2)] (idxS id)))
        (fun t => replied t == some (0x0707, 2 ^ 32 + 1) && sentData t == some (1, 0, [0, 1]) &&
          (t.item defn2 0) == ⟨77, 0, 2, none32, 1⟩) = true := by decide +kernel
theorem test_index_delete :
    nextIs (exec (.indexDelete (bufs [leBytes 8 78 ++ List.replicate 3 0 ++ [0x80] ++ List.replicate 20 0]))
      (cmdS 0x83 [(1, 2), (4, 1)] [(0, 32)] (idxS id))) (fun t => replied t == some (0x0707, 2 ^ 32)) = true := by decide +kernel
theorem test_index_commit :
    nextIs (exec (.indexCommit noBuf) (cmdS 0x84 [(1, 2)] [] (idxS fun x => { x with rebuild := true })))
      (fun t => (t.index 2).map (fun x => (x.cur, x.vCur, x.vFrom, x.rebuild)) == some (2, 1, 2, false)) = true ∧
      answers (.indexCommit noBuf) 0x84 [(1, 2)] [] (idxS fun x => { x with cur := 0xFFFFFFFE }) 0x0709 0 = true := by
  decide +kernel
/-- Centroid 0 gives way to centroid 1. -/
def rebal : List Byte := leBytes 4 0 ++ List.replicate 108 0 ++ leBytes 4 1 ++ List.replicate 12 0
theorem test_index_rebalance :
    (rebalanceParts defn2 1 1 0).2.2.2 = 128 ∧ rebalanceStatus (idxS id) { defn := defn2 } (rebalanceOf defn2 1 1 0 rebal) = 0 ∧
      nextIs (exec (.indexRebalance (bufs [rebal])) (cmdS 0x85 [(1, 2), (4, 1), (5, 1)] [(0, 128)] (idxS id)))
        (fun t => (t.index 2).map (·.rebalance) == some true && t.liveCents defn2 2 == [1]) = true ∧
      answers (.indexRebalance (bufs [List.replicate 128 0])) 0x85 [(1, 2), (4, 1), (5, 1)] [(0, 128)] (idxS id) 0x070A 0 = true ∧
      answers (.indexRebalance noBuf) 0x85 [(1, 2), (5, 1)] [] (idxS id) 0x0102 0 = true := by decide +kernel
theorem test_index_compact :
    nextIs (exec (.indexCompact noBuf) (cmdS 0x86 [(1, 2), (5, 4194304)] [] (idxS id)))
      (fun t => (t.index 2).map (fun x => x.compactions.map (fun k => (k.lists, k.built))) == some [([0], false)] &&
        t.hostOut == []) = true ∧
      answers (.indexCompact noBuf) 0x86 [(1, 2), (5, 1), (6, 1), (7, 5)] [] (idxS id) 0x0706 0 = true := by decide +kernel
theorem test_index_rebuild :
    answers (.indexRebuild noBuf) 0x87 [(1, 2)] [] (idxS id) 0 0 = true ∧
      answers (.indexRebuild noBuf) 0x87 [(1, 2)] [] (idxS fun x => { x with rebalance := true }) 0x070E 0 = true ∧
      answers (.indexRebuild noBuf) 0x87 [(1, 2)] [] (idxS fun x => { x with freeAt := some 3 }) 0x070D 0 = true := by decide +kernel
theorem test_index_add_zones :
    nextIs (exec (.indexAddZones (bufs [leBytes 4 368639])) (cmdS 0x88 [(1, 2), (4, 1)] [(0, 4)] (idxS id)))
      (fun t => replied t == some (0, 1) && (t.zone 368639).owner == some 2) = true ∧
      answers (.indexAddZones (bufs [leBytes 4 368640])) 0x88 [(1, 2), (4, 1)] [(0, 4)] (idxS id) 0x0706 0 = true := by decide +kernel
theorem test_index_info : answers (.indexInfo noBuf) 0x89 [(1, 2)] [(0, 64)] (idxS id) 0 1 = true := by decide +kernel

/-- An INDEX_COMPACT of no list is pending. -/
def compS (built : Bool) (z : Option Nat) : State := idxS fun x => { x with compactions := [⟨⟨1, 7⟩, [], 0, built, z, []⟩] }
theorem test_compaction_built :
    ((compS false none).compaction ⟨1, 7⟩).map (·.1) = some 2 ∧
      nextIs (exec (.compactionBuilt 1 ⟨7, []⟩) (cmdS 0x86 [] [] (compS false none)))
        (fun t => replied t == some (0, 0) && (t.index 2).map (·.compactions) == some []) = true ∧
      nextIs (exec (.compactionBuilt 1 ⟨7, []⟩) (compS true none)) (fun t => (t.index 2).map (·.compactions.length) == some 1) = true := by
  decide +kernel
theorem test_reclaim_reset :
    nextIs (exec (.reclaimReset 1 7) (cmdS 0x86 [] [] (compS true (some 5)))) (fun t => replied t == some (0, 0)) = true ∧
      nextIs (exec (.reclaimReset 1 7) (compS false (some 5))) (fun t => (t.index 2).map (·.compactions.length) == some 1) = true := by
  decide +kernel
/-- A producer has announced one record at page 10, an insert of identifier 0. -/
def feedS : State :=
  let s := idxS fun x => { x with defn := { x.defn with feedEn := true, feedLog2 := 6, feedCell := 1, doneCell := 2, feedBase := 10 * pageBytes } }
  { s with sig := { s.sig with cells := [(1, 1)] } }
theorem test_index_feed_consume :
    Sparse.wf 0 feedS.sig.cells = true ∧
      nextIs (exec (.indexFeedConsume ⟨2, []⟩) feedS)
        (fun t => (t.index 2).map (·.feedDone) == some 1 && t.cell 2 == 1 && (t.item defn2 0).ins == 2) = true ∧
      nextIs (exec (.indexFeedConsume ⟨2, []⟩) (idxS id)) (fun t => (t.index 2).map (·.feedDone) == some 0) = true := by decide +kernel

/-- Job 5 serves index 2. -/
def serveS : State :=
  let s := withJob { job1 with grants := [⟨2, false, 0, 2⟩] } (idxS id)
  withBundle 2 s
/-- A query of one token; `k` hits. -/
def queryRec (k : Nat) : List Byte :=
  leBytes 4 2 ++ leBytes 4 1 ++ leBytes 4 k ++ leBytes 4 1 ++ leBytes 8 0 ++ leBytes 4 1 ++ List.replicate 68 0
theorem test_query :
    (queryRec 1).length = 96 ∧ serveS.serverFor 2 = some 5 ∧ queryHeaderOk defn2 (queryRec 1) = true ∧
      (queryParts defn2 (queryRec 1)).2.2.2 = 96 ∧
      nextIs (exec (.query (bufs [queryRec 1])) (cmdS 0x90 [] [(0, 96)] serveS))
        (fun t => t.idx.queries.map (fun q => (q.job, q.epoch, q.serial, q.rec_.toks)) == [(5, 1, 0, [0])] &&
          t.hostOut == []) = true := by decide +kernel
theorem test_query_refused :
    answers (.query (bufs [queryRec 1])) 0x90 [] [(0, 96)] State.reset 0x0702 0 = true ∧
      answers (.query (bufs [queryRec 1])) 0x90 [] [(0, 96)] (idxS id) 0x0711 0 = true ∧
      answers (.query (bufs [queryRec 0])) 0x90 [] [(0, 96)] serveS 0x0712 0 = true ∧
      answers (.query (bufs [(queryRec 1).set 29 1])) 0x90 [] [(0, 96)] serveS 0x0714 0 = true := by decide +kernel
def hits (n : Nat) : HitList :=
  { epoch := 1, index := 2, capped := false, timing := false, lists := 1, candidates := n, survivors := 0, thresh := 0, scanned := 0,
    chainId := 0, kReq := 1, seen := 0, entries := [] }
def mergeB : List Byte := (hits 3).bytes ++ List.replicate 16 0 ++ (hits 4).bytes ++ List.replicate 16 0
theorem test_query_merge :
    mergeB.length = 160 ∧
      nextIs (exec (.queryMerge (bufs [mergeB])) (cmdS 0x91 [(4, 2), (5, 1)] [(0, 160), (1, 80)] State.reset))
        (fun t => replied t == some (0, 1) && sentData t == some (1, 0, { hits 7 with lists := 2 }.bytes)) = true ∧
      answers (.queryMerge (bufs [List.replicate 160 0])) 0x91 [(4, 2), (5, 1)] [(0, 160), (1, 80)] State.reset 0x0719 0 = true := by
  decide +kernel
/-- A filter form of one chunk that allows slot 0 only, in runs; and one that allows every slot, beyond MAX_ITEMS. -/
def form1 : List Byte := leBytes 4 2 ++ leBytes 4 1 ++ leBytes 8 0 ++ leBytes 4 0 ++ leBytes 4 (2 + 2 ^ 16) ++ leBytes 8 0
def form2 : List Byte := leBytes 4 2 ++ leBytes 4 1 ++ leBytes 8 0 ++ leBytes 4 0 ++ leBytes 4 1
theorem test_filter_load :
    nextIs (exec (.filterLoad (bufs [form1])) (cmdS 0x92 [] [(0, 32)] (idxS id)))
      (fun t => replied t == some (0, 0) &&
        (Sparse.find t.idx.filters 0).map (fun f => (f.chunks, f.pages)) == some ([(0, .runs [(0, 1)])], 1)) = true ∧
      answers (.filterLoad (bufs [form2])) 0x92 [] [(0, 24)] (idxS id) 0x0715 0 = true := by decide +kernel
theorem test_filter_load_full :
    answers (.filterLoad (bufs [form1])) 0x92 [] [(0, 32)]
      { idxS id with mem := { (idxS id).mem with allocs := [⟨1, boardPages, .host⟩] } } 0x0401 0 = true := by decide +kernel
def filtS : State := { serveS with idx := { serveS.idx with filters := [(255, ⟨2, [], 20, 1⟩)] } }
def queryOn (k : Nat) : Query := { cmd := ⟨1, 9⟩, job := 5, epoch := 1, serial := 0, rec_ := queryOf defn2 ((queryRec 1).set 28 k |>.set 29 1) }
theorem test_filter_free :
    (filtS.idx.filters.Pairwise fun a b => a.1 < b.1) ∧
      nextIs (exec (.filterFree noBuf) (cmdS 0x93 [(1, 255)] [] filtS)) (fun t => t.idx.filters == []) = true ∧
      answers (.filterFree noBuf) 0x93 [(1, 254)] [] filtS 0x0714 0 = true ∧
      answers (.filterFree noBuf) 0x93 [(1, 255)] [] { filtS with idx := { filtS.idx with queries := [queryOn 255] } } 0x0716 0 = true := by
  decide +kernel

/-- Cell 4095 holds its largest value. -/
def sigS : State := { State.reset with sig := { State.reset.sig with cells := [(4095, 2 ^ 64 - 1)] } }
theorem test_sig_commands :
    Sparse.wf 0 sigS.sig.cells = true ∧ answers (.sigRead noBuf) 0xA0 [(4, 4095)] [] sigS 0 (2 ^ 64 - 1) = true ∧
      answers (.sigSet noBuf) 0xA1 [(4, 4095), (6, 5)] [] sigS 0 (2 ^ 64 - 1) = true ∧
      answers (.sigAdd noBuf) 0xA2 [(4, 4095), (6, 1)] [] sigS 0 0 = true ∧
      answers (.sigWait noBuf) 0xA3 [(4, 4095), (6, 1)] [] sigS 0 (2 ^ 64 - 1) = true ∧
      answers (.sigWait noBuf) 0xA3 [(5, 2 ^ 16)] [] sigS 0x0102 0 = true := by decide
theorem test_sig_set_wakes :
    nextIs (exec (.sigSet noBuf) (cmdS 0xA1 [(4, 1), (6, 5)] []
      { sigS with sig := { sigS.sig with waits := [⟨⟨1, 8⟩, 1, 5, 0, 0⟩, ⟨⟨1, 9⟩, 1, 6, 0, 0⟩] } }))
      (fun t => t.sig.waits.map (·.cmd) == [⟨1, 9⟩] && t.cell 1 == 5) = true := by decide
def cellWaitS : State := { cmdS 0xA3 [(4, 1), (6, 9), (8, 3)] [] sigS with time := 10 }
theorem test_sig_wait :
    nextIs (exec (.sigWait noBuf) cellWaitS) (fun t => t.sig.waits == [⟨⟨1, 7⟩, 1, 9, 3, 10⟩] && t.hostOut == []) = true ∧
      nextIs (exec (.sigWaitTimeout 1 7) { cellWaitS with sig := { cellWaitS.sig with waits := [⟨⟨1, 7⟩, 1, 9, 3, 10⟩] } })
        (fun t => t.sig.waits == [] && replied t == some (0x010D, 0) && t.time == 3010) = true := by decide
theorem test_sig_cell_write :
    nextIs (exec (.sigCellWrite 4096 (2 ^ 64 + 3)) sigS) (fun t => t.cell 0 == 3) = true := by decide
/-- Port 0 is up and module 1 lies behind it; `r`: the outstanding requests. -/
def linkS (r : List Request) (s : State) : State :=
  { s with wlk := { s.wlk with
      routes := [(1, ⟨0, true⟩)], requests := r
      ports := { state := .up, width := 4, credits := [64, 64, 64, 64, 64, 64] } :: List.replicate 3 {} } }
def remote : List (Nat × Nat) := [(4, 9), (5, 2 ^ 16 + 1), (6, 4)]
theorem test_sig_remote :
    (linkS [] State.reset).canLaunch 1 = .ready 0 0 ∧ State.reset.canLaunch 1 = .noRoute ∧
      nextIs (exec (.sigAdd noBuf) (cmdS 0xA2 remote [] (linkS [] State.reset)))
        (fun t => t.wlk.requests.map (fun r => (r.tag, r.port, r.by_)) == [(0, 0, .hostSig ⟨1, 7⟩ sigAdd)] && t.hostOut == []) = true ∧
      answers (.sigRead noBuf) 0xA0 remote [] State.reset 0x0801 0 = true := by decide +kernel
def msg0 : Msg := ⟨0, 0, false, 0, 0, 1, 0, 0, 0, []⟩
def bar2Req (tag : Nat) (by_ : Requester) : Request := { tag := tag, port := 0, by_ := by_, msg := msg0, since := 0, sent := true }
/-- Every tag is taken. -/
def tagsS (n : Nat) : State := linkS (List.replicate n (bar2Req 0 .bar2Read)) State.reset
theorem tagsS_canLaunch (n : Nat) (h : 65536 < n + 1) : (tagsS n).canLaunch 1 = .noTag := by
  have h0 : freeTags (tagsS n) 1 = none := by
    simp [freeTags, tagsS, linkS]
    omega
  have h1 : (tagsS n).exitPort 1 = some 0 := rfl
  simp only [State.canLaunch, h1, h0]
theorem test_sig_no_tag : (tagsS 65536).canLaunch 1 = .noTag := tagsS_canLaunch 65536 (by decide)
theorem test_sig_held :
    (linkS [bar2Req 0 (.bar2Write 0 false)] sigS).bar2Waits = true ∧
      nextIs (exec (.sigSet noBuf) (cmdS 0xA1 [(4, 4095), (6, 5)] [] (linkS [bar2Req 0 (.bar2Write 0 false)] sigS)))
        (fun t => t.hostOut == [] && t.cell 4095 == 2 ^ 64 - 1) = true ∧
      nextIs (exec (.sigCellWrite 4095 3) (linkS [bar2Req 0 (.bar2Write 0 false)] sigS))
        (fun t => t.sig.held == [(4095, 3, false)] && t.cell 4095 == 2 ^ 64 - 1) = true := by decide

/-- An earlier command of index 2 is not applied yet. -/
def behindS : State :=
  let s := cmdS 0x89 [(1, 2)] [(0, 64)] (idxS id)
  { s with q := { s.q with cmds := { cmd7 0x84 [(1, 2)] [] with cid := 6, seq := 0 } :: s.q.cmds.map fun c => { c with seq := 1 } } }
theorem test_index_waits :
    behindS.indexWaits ⟨1, 7⟩ = true ∧ behindS.indexWaits ⟨1, 6⟩ = false ∧
      nextIs (exec (.indexInfo noBuf) behindS) (fun t => t.hostOut == []) = true := by decide +kernel
/-- The directory entry of centroid 0 of index 2 is poisoned. -/
def lostS : State := let s := idxS id; { s with mem := { s.mem with poison := [defn2.dirAddr 0 / 64] } }
theorem test_index_poisoned :
    recordSpans lostS defn2 false insertRec = [(defn2.dirAddr 0, 64)] ∧ (readSpans [] [(defn2.dirAddr 0, 64)] lostS).1 = some (defn2.dirAddr 0) ∧
      (readSpans [] [(defn2.dirAddr 0, 64)] (idxS id)).1 = none ∧
      nextIs (exec (.indexInsert (bufs [insertRec])) (cmdS 0x82 [(1, 2), (4, 1)] [(0, 128)] lostS))
        (fun t => t.flt.detections.map (fun d => (d.info.status, d.info.addr)) == [(0x0F02, defn2.dirAddr 0)] && t.hostOut == []) = true ∧
      nextIs (exec (.compactionBuilt 1 ⟨7, []⟩) { compS false none with
          idx := { (compS false none).idx with indexes := [(2, { defn := defn2, compactions := [⟨⟨1, 7⟩, [0], 0, false, none, []⟩] })] }
          mem := lostS.mem })
        (fun t => t.flt.detections.map (·.info.status) == [0x0F02] && (t.index 2).map (·.compactions) == some []) = true := by decide +kernel
def window1 : Aperture := { localBase := pageBytes, module := 1, en := true, pages := 1 }
/-- Aperture 0 covers page 1 and names page 0 of module 1. -/
def apOn : State :=
  linkS [] { memS with wlk := { memS.wlk with apertures := memS.wlk.apertures.set 0 window1 } }
theorem test_bar2_aperture :
    apOn.aperture pageBytes = some window1 ∧
      nextIs (exec (.bar2Read pageBytes 4 []) apOn) (fun t => t.mem.bar2.length == 1 && t.wlk.requests.length == 1 &&
        t.mem.completion == none) = true ∧
      nextIs (exec (.bar2Write pageBytes [1, 2, 3, 4] []) apOn) (fun t => t.wlk.requests.map (·.by_) == [.bar2Write 0 false] &&
        t.mem.bytes == [(pageBytes + 1, 9)]) = true := by decide +kernel

/-! ## The Wyrdlink (17; 22 R619) -/

/-- Port 3 as `f` gives it, a cable in it, the imago running. -/
def portS (st : PortState) (f : Port → Port) : State :=
  { State.reset with
    gen := { State.reset.gen with boot := 0x21 }
    phys := { State.reset.phys with cable := [false, false, false, true] }
    wlk := { State.reset.wlk with ports := [{}, {}, {}, f { state := st, maxWidth := 4 }] } }
/-- The other side at module 9. -/
def peer (version width : Nat) : PortPeer := ⟨9, 0, version, 15, width⟩
theorem test_port_train :
    (portS .down id).sized ∧ (portS .down id).mayTrain 3 = true ∧
      nextIs (exec (.portTrain 3) (portS .down id)) (fun t => (t.port 3).state == .training && bit t.wlk.evt 3) = true ∧
      nextIs (exec (.portTrain 3) (portS .down fun t => { t with auto := false })) (fun t => (t.port 3).state == .down) = true := by
  unfold State.sized
  decide
theorem test_port_trained :
    nextIs (exec (.portTrained 3 (some (peer 1 4))) (portS .training id))
      (fun t => (t.port 3).state == .up && (t.port 3).peer == 9 && (t.port 3).credits == classCredits) = true ∧
      nextIs (exec (.portTrained 3 (some (peer 2 1))) (portS .training id)) (fun t => (t.port 3).state == .conflict) = true ∧
      nextIs (exec (.portTrained 3 none) (portS .training id)) (fun t => (t.port 3).state == .down) = true ∧
      nextIs (exec (.portTrained 3 none) (portS .up id)) (fun t => (t.port 3).state == .up) = true := by decide
/-- The feature names module 4; port 0 is up. -/
def idS : State :=
  let s := portS .training id
  { s with
    gen := { s.gen with features := { s.gen.features with moduleId := 4 } }
    wlk := { s.wlk with ports := s.wlk.ports.set 0 { state := .up } } }
theorem test_port_trained_id :
    nextIs (exec (.portTrained 3 (some (peer 1 2))) idS)
      (fun t => t.gen.moduleId == 4 && (t.port 0).state == .retrain && (t.port 3).state == .up) = true := by decide
theorem test_port_retrain :
    nextIs (exec (.laneLockLoss 3) (portS .up id)) (fun t => (t.port 3).state == .retrain && (t.port 3).retrains == 1) = true ∧
      nextIs (exec (.fastRetrainDone 3 (some (peer 1 4))) (portS .retrain fun t => { t with rxSeq := 7 }))
        (fun t => (t.port 3).state == .up && (t.port 3).rxSeq == 7 && (t.port 3).peer == 9) = true ∧
      nextIs (exec (.fastRetrainDone 3 (some (peer 2 4))) (portS .retrain id))
        (fun t => (t.port 3).state == .conflict && (t.port 3).losses == 1) = true ∧
      nextIs (exec (.fastRetrainDone 3 none) (portS .retrain id))
        (fun t => (t.port 3).state == .down && (t.port 3).losses == 1 && bit t.wlk.evt 7) = true := by decide
theorem test_port_disable :
    nextIs (exec (.portDisable 3) (portS .up id)) (fun t => (t.port 3).state == .disabled && (t.port 3).disable) = true ∧
      nextIs (exec (.retrain 3) (portS .up id)) (fun t => (t.port 3).state == .training) = true ∧
      nextIs (exec (.retrain 3) (portS .disabled id)) (fun t => (t.port 3).state == .disabled) = true := by decide
theorem test_cable_present :
    3 < State.reset.phys.cable.length ∧
      nextIs (exec (.cablePresent 3 true) State.reset) (fun t => t.phys.cable == [false, false, false, true]) = true ∧
      nextIs (exec (.cablePresent 3 false) (portS .up id)) (fun t => (t.port 3).state == .retrain && t.phys.cable == [false, false, false, false]) = true := by
  decide
theorem test_heartbeat_loss :
    nextIs (exec (.heartbeatLoss 3) (portS .up fun t => { t with missed := 4 })) (fun t => (t.port 3).state == .down) = true ∧
      nextIs (exec (.heartbeatLoss 3) (portS .up fun t => { t with missed := 3 })) (fun t => (t.port 3).state == .up) = true := by decide
/-- Flit `seq` with one message for this module: a READ. -/
def ask0 : Msg := { msg0 with cls := 2, src := 9, dst := 0, len := 1 }
def flit0 (seq : Nat) : Flit := ⟨seq, 0, false, 2, false, 0, Msg.bytes ask0 ++ List.replicate 224 0, 0, 0⟩
def flit (seq : Nat) (ok : Bool) : List Byte := let b := Flit.bytes (flit0 seq); if ok then b else b.set 255 (b.getD 255 0 ^^^ 1)
set_option maxRecDepth 20000 in
theorem test_flit_layout :
    flitOf (flit 4095 true) = some (flit0 4095) ∧ flitOf (flit 4095 false) = none ∧ msgOf (Msg.bytes ask0) = ask0 ∧
      Flit.messages (flit0 0) [] = ([ask0], []) ∧ (flit 4095 true).take 4 = [0xFF, 0x0F, 0, 4] := by decide +kernel
/-- The flits that left, each with its port: whether it is idle, what it acknowledges, whether it carries a NAK. -/
def sentFlits (t : State) : List (Nat × Bool × Nat × Bool) :=
  t.wlOut.filterMap fun e => (flitOf e.2).map fun f => (e.1, f.idle, f.ack, f.nak)
set_option maxRecDepth 20000 in
theorem test_flit_receive :
    nextIs (exec (.flitReceive 3 (flit 4095 true)) (portS .up fun t => { t with rxSeq := 4095 }))
      (fun t => (t.port 3).rxSeq == 0 && (t.port 3).ackOut == 4095 && t.wlk.inbox == [(3, ask0)]) = true ∧
      nextIs (exec (.flitReceive 3 (flit 4095 true)) (portS .up fun t => { t with rxSeq := 4095 }))
        (fun t => sentFlits t == [(3, true, 4095, false)]) = true ∧
      nextIs (exec (.flitReceive 3 (flit 5 true)) (portS .up id))
        (fun t => sentFlits t == [(3, true, 4095, true)] && t.wlk.inbox == []) = true ∧
      nextIs (exec (.flitReceive 3 (flit 0 false)) (portS .up id))
        (fun t => (t.port 3).crc == 1 && sentFlits t == [(3, true, 4095, true)]) = true ∧
      nextIs (exec (.flitReceive 3 (flit 0 true)) (portS .down id)) (fun t => t.wlk.inbox == []) = true := by decide +kernel
/-- A port with messages of classes 2 and 3 from the hub and class 2 from port 1; class 2 and the hub sent last. -/
def queueP (q : List (Nat × Msg)) : Port := { outq := q, credits := classCredits, lastClass := 2, lastSrc := [4, 4, 4, 4, 4, 4] }
def hi (cls tag : Nat) : Msg := { msg0 with cls := cls, tag := tag }
theorem test_next_flit :
    (queueP [(4, hi 2 1), (1, hi 2 2), (4, hi 3 3)]).next = some (some 4, ⟨hi 3 3, 0⟩) ∧
      (queueP [(4, hi 2 1), (1, hi 2 2)]).next = some (some 1, ⟨hi 2 2, 0⟩) ∧
      (queueP [(4, hi 2 1), (4, hi 1 2), (4, hi 0 3)]).next = some (some 4, ⟨hi 0 3, 0⟩) := by decide +kernel
/-- Messages of classes 4 and 5 of two flits each alternate flit by flit (R501). -/
def long (cls tag : Nat) : Msg := { hi cls tag with op := 1, len := 256, payload := List.replicate 256 1 }
def afterFlits : Nat → Port → List (Nat × Nat)
  | 0, _ => []
  | n + 1, t => match t.next with | some x => (x.2.msg.cls, x.2.part) :: afterFlits n (t.sent x) | none => []
theorem test_flits_alternate :
    afterFlits 5 (queueP [(4, long 4 1), (4, long 5 2)]) = [(4, 0), (5, 0), (4, 1), (5, 1)] := by decide +kernel
theorem test_heartbeat_send :
    nextIs (exec .heartbeatSend { portS .up (fun t => { t with missed := 2, hbCount := 2 ^ 32 - 1 }) with time := 100000 })
      (fun t => t.time == 200000 && (t.port 3).missed == 3 && (t.port 3).hbCount == 0) = true := by decide
/-- A message stands in the inbox. -/
def inboxS (p : Nat) (m : Msg) (s : State) : State := { s with wlk := { s.wlk with inbox := [(p, m)] } }
theorem test_heartbeat :
    nextIs (exec (.heartbeat 3) (inboxS 3 { msg0 with dst := 0 } (portS .up id))) (fun t => (t.port 3).got && t.wlk.inbox == []) = true ∧
      nextIs (exec (.heartbeat 3) (portS .up id)) (fun t => !(t.port 3).got) = true := by decide
/-- A notice of a type about module 1 from module 9. -/
def note (ty : Nat) : Msg := { msg0 with op := 1, src := 9, dst := 0, payload := leBytes 4 (ty + 2 ^ 16) ++ leBytes 12 6 }
def noted (ty : Nat) (st : PortState) : State :=
  let s := portS st id
  inboxS 3 (note ty) { s with wlk := { s.wlk with
    routes := [(1, ⟨3, true⟩)]
    requests := [{ tag := 0, port := 3, by_ := .coreWait 0, msg := msg0, since := 0, sent := true }] } }
theorem test_notices :
    ((noted 1 .up).takeNotice 1 8).map (·.1) = some 3 ∧
      nextIs (exec .linkDown (noted 1 .up)) (fun t => t.wlk.requests == [] && bit t.wlk.evt 8 && bits t.wlk.lastNotice 0 4 == 1) = true ∧
      nextIs (exec .departing (noted 2 .up)) (fun t => (t.port 3).state == .down) = true ∧
      nextIs (exec .departing (noted 2 .training)) (fun t => (t.port 3).state == .training && bit t.wlk.evt 8) = true ∧
      nextIs (exec .peerJobFault (noted 3 .up)) (fun t => bit t.wlk.evt 9 && bits t.wlk.lastNotice 32 16 == 1) = true := by decide +kernel
theorem test_route_write :
    nextIs (exec (.routeWrite 7) { State.reset with wlk := { State.reset.wlk with rtIndex := 65535, rtAuto := true } })
      (fun t => Sparse.get {} t.wlk.routes 65535 == ⟨3, true⟩ && t.wlk.rtIndex == 0) = true := by decide
def apS : State := { memS with wlk := { memS.wlk with apertures := memS.wlk.apertures.set 31 { localBase := pageBytes } } }
theorem test_aperture_enable :
    nextIs (exec (.apertureEnable 31 (1 + 2 ^ 32)) apS) (fun t => (t.wlk.apertures.getD 31 {}).en) = true ∧
      nextIs (exec (.apertureEnable 31 (1 + 2 ^ 33)) apS)
        (fun t => !(t.wlk.apertures.getD 31 {}).en && (t.wlk.apertures.getD 31 {}).pages == 2) = true := by decide

/-- Module 9 asks, through port 3; an export admits page 1. -/
def askS (m : Msg) : State :=
  let s := portS .up (fun t => { t with credits := classCredits })
  inboxS 3 m { s with
    mem := memS.mem, sig := { s.sig with cells := [(4, 5)] }
    wlk := { s.wlk with
      routes := [(9, ⟨3, true⟩)]
      exports := s.wlk.exports.set 0 { base := pageBytes, src := 9, en := true, read := true, write := true, pages := 1 } } }
def ask (cls op addr len : Nat) (payload : List Byte) : Msg := ⟨cls, op, false, 77, 9, 0, addr, len, 0, payload⟩
/-- The last message sent: port, response status, address and payload. -/
def sentMsgs (t : State) : List (Nat × Msg) :=
  t.wlOut.flatMap fun e => match flitOf e.2 with | some f => (Flit.messages f []).1.map fun m => (e.1, m) | none => []
def sentIs (t : State) (f : Nat → Msg → Bool) : Bool := match (sentMsgs t).getLast? with | some (p, m) => f p m | none => false
set_option maxRecDepth 20000 in
theorem test_wl_read :
    Memory.wf 0 (askS (ask 2 0 pageBytes 64 [])).mem.bytes = true ∧
      (askS (ask 2 0 pageBytes 64 [])).admitted (ask 2 0 pageBytes 64 []) false = true ∧
      nextIs (exec (.wlRead []) (askS (ask 2 0 pageBytes 64 [])))
        (fun t => sentIs t fun p m => p == 3 && m.rstatus == 0 && m.tag == 77 && m.payload.take 2 == [0, 9]) = true ∧
      nextIs (exec (.wlRead []) (askS (ask 2 0 (pageBytes + 4) 64 [])))
        (fun t => t.wlk.refused == 1 && sentIs t fun _ m => m.rstatus == 1) = true ∧
      nextIs (exec (.wlRead []) (portS .up id)) (fun t => t.wlOut == []) = true := by decide +kernel
set_option maxRecDepth 20000 in
theorem test_wl_write :
    nextIs (exec (.wlWrite []) (askS (ask 2 1 pageBytes 64 (List.replicate 64 3))))
      (fun t => Sparse.get 0 t.mem.bytes (pageBytes + 63) == 3 && Sparse.get 0 t.mem.bytes (pageBytes + 64) == 0 &&
        sentIs t fun _ m => m.op == 1 && m.rstatus == 0) = true ∧
      nextIs (exec (.wlWrite []) (askS { ask 5 1 pageBytes 64 (List.replicate 64 3) with poison := true }))
        (fun t => t.mem.poison == [pageBytes / 64]) = true ∧
      nextIs (exec (.wlWrite []) (askS (ask 4 1 (2 * pageBytes) 4 [1, 2, 3, 4])))
        (fun t => t.wlk.refused == 1 && t.mem.bytes == memS.mem.bytes) = true := by decide +kernel
def sentValue (t : State) : Nat := match (sentMsgs t).getLast? with | some (_, m) => leNat m.payload | none => 0
set_option maxRecDepth 20000 in
theorem test_wl_sig :
    nextIs (exec .wlSigRead (askS (ask 3 0 4 8 []))) (fun t => sentValue t == 5) = true ∧
      nextIs (exec .wlSigSet (askS (ask 3 1 4 8 (leBytes 8 9)))) (fun t => sentValue t == 5 && t.cell 4 == 9) = true ∧
      nextIs (exec .wlSigAdd (askS (ask 3 2 4 8 (leBytes 8 (2 ^ 64 - 5))))) (fun t => sentValue t == 0 && t.cell 4 == 0) = true ∧
      nextIs (exec .wlSigWait (askS (ask 3 3 4 8 (leBytes 8 5)))) (fun t => sentValue t == 5 && t.wlk.waits == []) = true ∧
      nextIs (exec .wlSigWait (askS (ask 3 3 4 8 (leBytes 8 6)))) (fun t => t.wlk.waits.map (·.threshold) == [6] && t.wlOut == []) = true := by
  decide +kernel
/-- Every watch entry is taken. -/
def fullS : State :=
  let s := askS (ask 3 3 4 8 (leBytes 8 6))
  { s with wlk := { s.wlk with waits := List.replicate 1024 ⟨9, 1, 4, 6, 0⟩ } }
set_option maxRecDepth 20000 in
theorem test_wl_sig_wait_full : nextIs (exec .wlSigWait fullS) (fun t => sentIs t fun _ m => m.rstatus == 3) = true := by decide +kernel

/-- An answer to request 77. -/
def answer (op rstatus : Nat) (payload : List Byte) : Msg := ⟨1, op, false, 77, 9, 0, pageBytes, payload.length, rstatus, payload⟩
def reqOf (by_ : Requester) : Request :=
  { tag := 77, port := 3, by_ := by_, msg := ask 2 0 pageBytes 128 [], since := 0, sent := true }
def dma77 : Dma := { kind := .into, rows := [⟨0, pageBytes, false⟩], grans := 2, data := [], bad := [], started := true, far := [],
                     tags := [(77, 0, pageBytes)], got := [], pc := 0,
                     instr := iw 0 0 0 0 0 0 0 0 }
def answered (by_ : Requester) (m : Msg) : State :=
  let s := inboxS 3 m (at1 [] { dma := [dma77] })
  { s with
    q := (cmdS 0xA2 [] [] s).q
    mem := { s.mem with bar2 := [⟨pageBytes, 128, List.replicate 128 0, false, false, [(77, 0)]⟩] }
    wlk := { s.wlk with requests := [reqOf by_] } }
theorem test_read_data_dma :
    nextIs (exec .readData (answered (.coreDma 0) (answer 0 0 (List.replicate 128 6))))
      (fun t => t.wlk.requests == [] && (t.core 0).dma.map (fun d => (d.tags, d.got.map (·.1))) == [([], [0, 64])] &&
        (t.core 0).spad == []) = true ∧
      nextIs (exec .readData (answered (.coreDma 0) (answer 0 0 (List.replicate 64 6))))
        (fun t => t.wlk.requests.map (·.got.length) == [64]) = true ∧
      nextIs (exec .readData (answered (.coreDma 0) (answer 0 1 [])))
        (fun t => t.flt.detections.map (·.info.reason) == [reasonDevice]) = true := by decide +kernel
theorem test_read_data_bar2 :
    nextIs (exec .readData (answered .bar2Read (answer 0 0 (List.replicate 128 6))))
      (fun t => t.mem.completion == some ⟨List.replicate 128 6, false⟩) = true ∧
      nextIs (exec .readData (answered .bar2Read (answer 0 1 [])))
        (fun t => t.mem.completion == some ⟨List.replicate 128 0xFF, false⟩ && t.mig.bar2Drop == 1) = true := by decide +kernel
theorem test_write_ack :
    nextIs (exec .writeAck (answered (.coreDma 0) (answer 1 0 []))) (fun t => t.wlk.requests == []) = true ∧
      nextIs (exec .writeAck (answered (.bar2Write 0 false) (answer 1 0 []))) (fun t => t.wlk.requests == [] && t.mig.bar2Drop == 0) = true ∧
      nextIs (exec .writeAck (answered (.bar2Write 0 false) (answer 1 1 []))) (fun t => t.mig.bar2Drop == 1) = true ∧
      nextIs (exec .writeAck (answered (.coreDma 0) (answer 1 1 []))) (fun t => t.flt.detections.length == 1) = true ∧
      nextIs (exec .writeAck (answered (.bar2Write 0 false) (answer 1 3 []))) (fun t => t.wlk.requests.map (·.resend) == [true]) = true := by
  decide +kernel
theorem test_sig_data :
    nextIs (exec .sigData (answered (.hostSig ⟨1, 7⟩ sigAdd) (answer 2 0 (leBytes 8 4)))) (fun t => replied t == some (0, 4)) = true ∧
      nextIs (exec .sigData (answered (.coreWait 0) (answer 2 0 (leBytes 8 4)))) (fun t => t.wlk.requests == []) = true ∧
      nextIs (exec .sigData (answered (.coreAdd 0) (answer 2 0 (leBytes 8 4)))) (fun t => t.wlk.requests == []) = true ∧
      nextIs (exec .sigData (answered (.hostSig ⟨1, 7⟩ sigAdd) (answer 2 2 []))) (fun t => replied t == some (0x0802, 0)) = true ∧
      nextIs (exec .sigData (answered (.coreWait 0) { answer 2 0 [] with tag := 78 })) (fun t => t.wlk.requests.length == 1) = true := by
  decide +kernel
def pendingS (f : Request → Request) : State :=
  let s := answered (.coreWait 0) (answer 2 0 [])
  { s with wlk := { s.wlk with requests := [f (reqOf (.coreWait 0))], inbox := [] } }
theorem test_request_timeout :
    nextIs (exec (.requestTimeout 77) (pendingS id))
      (fun t => t.wlk.requests == [] && t.time == 1000000 && t.flt.detections.map (·.info.status) == [0x0F05]) = true ∧
      nextIs (exec (.requestTimeout 77) (pendingS fun r => { r with sent := false })) (fun t => t.wlk.requests.length == 1) = true := by
  decide +kernel
theorem test_watch_resend :
    nextIs (exec (.watchResend 77) (pendingS fun r => { r with resend := true, port := 4 }))
      (fun t => t.wlk.requests.map (·.resend) == [false] && t.wlk.inbox.map (·.1) == [4]) = true ∧
      nextIs (exec (.watchResend 77) (pendingS id)) (fun t => t.wlk.inbox == []) = true := by decide +kernel
set_option maxRecDepth 20000 in
theorem test_watch_renew :
    nextIs (exec .watchRenew { fullS with wlk := { fullS.wlk with waits := [⟨9, 1, 4, 6, 0⟩] } })
      (fun t => t.wlk.waits.length == 1 && sentIs t fun _ m => m.rstatus == 3 && m.tag == 1) = true := by decide +kernel

/-! ## Events, power and temperature (18; 19; 20 R570) -/

/-- Sources 464 and 468 are asserted and enabled at the host, 468 with a higher priority. -/
def evS : State :=
  { State.reset with
    flt := { State.reset.flt with evt := 0x11, evtEn := 0x11 }
    evc := { State.reset.evc with src := [(464, { hostEn := true, vector := 1 }), (468, { priority := 0x90, hostEn := true, vector := 511 })] }
    msix := { State.reset.msix with enable := true, table := [(1, { mask := false }), (511, { addr := 0x1000, data := 3, mask := false })] } }
theorem test_msix_emission :
    evS.eligible 468 = true ∧ (∀ m, m < 512 → m ≠ 468 → evS.eligible m = true → evS.srcBefore 468 m = true) ∧
      nextIs (exec .msixEmission evS) (fun t => t.evc.active == [468] && t.hostOut == [.msix 511 0x1000 3]) = true := by decide +kernel
theorem test_msix_none :
    (∀ n, n < 512 → State.reset.eligible n = false) ∧ nextIs (exec .msixEmission State.reset) (fun t => t.hostOut == []) = true := by
  decide +kernel
theorem test_evc_eoi :
    nextIs (exec (.evcEoi 468) { evS with evc := { evS.evc with active := [464, 468] } })
      (fun t => t.evc.active == [464] && t.pendingSrc 468) = true := by decide +kernel
/-- Which sources a management core takes is opaque (the imago's routing, DESIGN CHOICE, log 8): where none is asserted it takes none. -/
def upS : State := { State.reset with gen := { State.reset.gen with boot := 0x21 } }
theorem test_mgmt_vector_fetch :
    (∀ n, n < 512 → upS.level n = false) ∧ nextIs (exec (.mgmtVectorFetch 3 ⟨0, []⟩) State.reset) (fun t => t.flt.mgmtUp == 0) = true := by
  decide +kernel
def watchS : State :=
  { State.reset with
    evc := { State.reset.evc with watches := State.reset.evc.watches.set 31 { thresh := 5 } }
    sig := { State.reset.sig with cells := [(4095, 5)] } }
theorem test_watch_ctrl_write :
    nextIs (exec (.watchCtrlWrite 31 (3 + 4095 * 2 ^ 8)) watchS)
      (fun t => t.evc.watches.getD 31 {} == ⟨true, true, true, 4095, 5⟩) = true ∧
      nextIs (exec (.watchCtrlWrite 31 3) watchS) (fun t => t.evc.watches.getD 31 {} == ⟨true, true, false, 0, 5⟩) = true := by decide
/-- The module stands in PS1; a watched source is asserted. -/
def sleepS : State :=
  { evS with
    pwr := { evS.pwr with ps := 1 }
    evc := { evS.evc with wakePcie := true, wakeSideband := true, antWatch := evS.evc.antWatch.set 31 ⟨468, true⟩ } }
theorem test_antenna :
    sleepS.asleep = true ∧
      nextIs (exec (.antennaWake true) sleepS) (fun t => t.evc.antCause == 2 && t.pwr.exiting) = true ∧
      nextIs (exec (.antennaWake false) sleepS) (fun t => t.evc.antCause == 1 && t.evc.antSrc == 468) = true ∧
      nextIs (exec .sbWake sleepS) (fun t => t.evc.antCause == 3 && t.pwr.exiting) = true := by decide +kernel
theorem test_antenna_awake :
    nextIs (exec (.antennaWake true) evS) (fun t => t.evc.antCause == 0) = true ∧
      nextIs (exec .sbWake evS) (fun t => t.evc.antCause == 0) = true ∧
      nextIs (exec (.antennaWake true) { sleepS with evc := { evS.evc with wakePcie := false, wakeSideband := false } }) (fun t => !t.pwr.exiting) = true ∧
      nextIs (exec (.antennaWake false) { sleepS with evc := { evS.evc with wakePcie := false, wakeSideband := false } }) (fun t => !t.pwr.exiting) = true := by decide +kernel

/-- An idle module that has eclosed, in state `ps`, its PS3 delay 1 s, in D3hot. -/
def idleS (ps : Nat) : State :=
  { State.reset with
    gen := { State.reset.gen with eclosed := true, features := { State.reset.gen.features with ps3S := 1 } }
    pwr := { State.reset.pwr with ps := ps }
    pci := { State.reset.pci with d3hot := true } }
theorem test_idle_timers :
    (idleS 0).settled 0 = true ∧ (idleS 0).mustRun = false ∧ (idleS 1).keepsPs2 = false ∧ (idleS 2).keepsPs3 = false ∧
      nextIs (exec .idleTimerPs1 (idleS 0)) (fun t => t.pwr.entering == some ⟨1, 0, false⟩) = true ∧
      nextIs (exec .idleTimerPs2 (idleS 1)) (fun t => t.pwr.entering == some ⟨2, 0, false⟩ && t.time == 100000000) = true ∧
      nextIs (exec .idleTimerPs3 (idleS 2)) (fun t => t.pwr.entering == some ⟨3, 0, false⟩ && t.time == 1000000000) = true := by
  decide +kernel
theorem test_idle_timers_kept :
    nextIs (exec .idleTimerPs1 State.reset) (fun t => t.pwr.entering.isNone) = true ∧
      nextIs (exec .idleTimerPs2 { idleS 1 with pwr := { (idleS 1).pwr with holdPs2 := true } })
        (fun t => t.pwr.entering.isNone && t.pwr.idleSince == 100000000) = true ∧
      nextIs (exec .idleTimerPs3 { idleS 2 with pci := {} }) (fun t => t.pwr.entering.isNone && t.pwr.idleSince == 1000000000) = true := by
  decide +kernel
def enterS (e : Entering) : State := { idleS 0 with pwr := { (idleS 0).pwr with entering := some e } }
theorem test_entry_step :
    nextIs (exec (.entryStepDone true) (enterS ⟨1, 0, false⟩)) (fun t => t.pwr.ps == 1 && t.pwr.psEntries == [0, 1, 0, 0]) = true ∧
      nextIs (exec (.entryStepDone true) (enterS ⟨2, 4, false⟩)) (fun t => t.pwr.entering == some ⟨2, 5, false⟩) = true ∧
      nextIs (exec (.entryStepDone true) (enterS ⟨2, 5, false⟩)) (fun t => t.pwr.ps == 2 && t.evc.frozenLevels == some []) = true ∧
      nextIs (exec (.entryStepDone true) (enterS ⟨3, 3, false⟩)) (fun t => t.pwr.ps == 3 && bit t.pwr.evt 0) = true ∧
      nextIs (exec (.entryStepDone true) (enterS ⟨3, 1, true⟩))
        (fun t => t.pwr.exiting && t.pwr.abandons == 1 && bit t.pwr.evt 9) = true := by decide +kernel
theorem test_entry_ports :
    (enterS ⟨3, 0, false⟩).sized ∧ nextIs (exec (.entryStepDone true) { enterS ⟨3, 0, false⟩ with wlk := (portS .up id).wlk })
      (fun t => (t.port 3).state == .down && (t.port 0).state == .disabled && t.pwr.entering == some ⟨3, 1, false⟩) = true := by
  unfold State.sized
  decide +kernel
theorem test_power_wake :
    nextIs (exec (.powerWake 7) { idleS 2 with pwr := { (idleS 2).pwr with exiting := true } })
      (fun t => t.pwr.ps == 0 && t.time == 7 && t.pwr.lastExit == 7 + 2 ^ 33) = true ∧
      nextIs (exec (.powerWake 7) (idleS 2)) (fun t => t.pwr.ps == 2) = true := by decide +kernel
/-- In PS2, on its way out. -/
def leaveS : State := { memS with pwr := { memS.pwr with ps := 2, exiting := true } }
theorem test_bar2_held :
    leaveS.holdsRequests = true ∧
      nextIs (exec (.bar2Write pageBytes (List.replicate 64 5) []) leaveS)
        (fun t => t.mem.bar2Held == [⟨pageBytes, none, 64, some (List.replicate 64 5), []⟩] && t.mem.bytes == memS.mem.bytes && t.bar2Waits) = true ∧
      nextIs (exec (.powerWake 7) { leaveS with mem := { leaveS.mem with bar2Held := [⟨pageBytes, none, 2, none, []⟩] } })
        (fun t => t.mem.completion == some ⟨[0, 9], false⟩ && t.mem.bar2Held == []) = true ∧
      memS.holdsRequests = false := by decide +kernel
theorem test_pwr_ctrl_write :
    nextIs (exec (.pwrCtrlWrite 1) (idleS 1)) (fun t => t.pwr.exiting && t.pwr.holdPs1) = true ∧
      nextIs (exec (.pwrCtrlWrite 4) (idleS 2)) (fun t => !t.pwr.exiting && t.pwr.holdPs3) = true := by decide +kernel
theorem test_d_state_change :
    nextIs (exec (.dStateChange false false) (idleS 3)) (fun t => t.pwr.exiting && !t.pci.d3hot) = true ∧
      nextIs (exec (.dStateChange true true) (idleS 0)) (fun t => t.pci.linkL2 && !t.pwr.exiting) = true := by decide +kernel

/-- A limit of 1,000 W; the dies' points. -/
def limitS (pts : List Nat) (below : Nat) : State :=
  { State.reset with pwr := { State.reset.pwr with limit := 1000, limPt := pts, below90 := below } }
theorem test_power_limit_tick :
    nextIs (exec (.powerLimitTick 1001 48000 [] []) (limitS [3, 2, 3, 1] 5))
      (fun t => t.pwr.limPt == [3, 2, 2, 1] && t.pwr.below90 == 0 && bit t.pwr.evt 1 && t.time == 1000000) = true ∧
      nextIs (exec (.powerLimitTick 1001 48000 [] []) (limitS [0, 0, 0, 0] 0)) (fun t => bit t.pwr.evt 7) = true ∧
      nextIs (exec (.powerLimitTick 1000 48000 [] []) (limitS [3, 3, 3, 3] 9)) (fun t => t.pwr.below90 == 0 && t.pwr.evt == 0) = true ∧
      nextIs (exec (.powerLimitTick 899 48000 [] []) (limitS [3, 2, 2, 3] 98)) (fun t => t.pwr.limPt == [3, 2, 2, 3]) = true ∧
      nextIs (exec (.powerLimitTick 899 48000 [] []) (limitS [3, 2, 2, 3] 99)) (fun t => t.pwr.limPt == [3, 3, 2, 3]) = true := by
  decide +kernel
theorem test_thermal_tick :
    nextIs (exec (.thermalTick 3 95) State.reset) (fun t => t.pwr.thPt == [3, 3, 3, 0] && bit t.pwr.evt 5) = true ∧
      nextIs (exec (.thermalTick 3 90) State.reset) (fun t => t.pwr.thPt == [3, 3, 3, 2] && bit t.pwr.evt 5) = true ∧
      nextIs (exec (.thermalTick 3 86) State.reset) (fun t => t.pwr.thPt == [3, 3, 3, 3] && t.pwr.evt == 0) = true ∧
      nextIs (exec (.thermalTick 3 85) { State.reset with pwr := { State.reset.pwr with thPt := [3, 3, 3, 1] } })
        (fun t => t.pwr.thPt == [3, 3, 3, 2] && t.time == 100000000 && t.pwr.thAt == [0, 0, 0, 100000000]) = true ∧
      nextIs (exec (.thermalTick 4 100) State.reset) (fun t => bit t.pwr.evt 6) = true ∧
      nextIs (exec (.thermalTick 4 99) State.reset) (fun t => t.pwr.evt == 0) = true := by decide +kernel
theorem test_thermal_trip :
    (jobIn .running).sized ∧
      nextIs (exec (.thermalTrip 3 105) (jobIn .running))
        (fun t => t.pwr.gated == [false, false, false, true] && (t.run 0).map (·.state) == some .faulted &&
          t.flt.detections.map (·.info.status) == [0x0F06]) = true ∧
      nextIs (exec (.thermalTrip 3 104) (jobIn .running)) (fun t => t.flt.detections == []) = true := by
  unfold State.sized
  decide +kernel
theorem test_hub_hold :
    nextIs (exec (.hubThermalHold 110) (jobIn .running))
      (fun t => t.flt.hubHold && t.pwr.gated == [true, true, true, true] && bit t.phys.sbAlert 3 &&
        (t.run 0).map (·.state) == some .faulted) = true ∧
      nextIs (exec (.hubThermalHold 109) (jobIn .running)) (fun t => !t.flt.hubHold) = true ∧
      nextIs (exec (.hubHoldEnd 95) { holdS 5 with pwr := { (holdS 5).pwr with
        gated := [true, true, true, true], tripped := [false, true, false, false], temp := [85, 86, 90, 85, 110] } })
        (fun t => !t.flt.hubHold && t.pwr.gated == [false, true, false, false]) = true ∧
      nextIs (exec (.hubHoldEnd 96) (holdS 5)) (fun t => t.flt.hubHold) = true := by decide +kernel

/-! ## Start-up, contacts, registers (14 R402; 21 R590-R607; 22 R609-R623); reset and steps -/

def bootS (b : Nat) : State := { State.reset with gen := { State.reset.gen with boot := b } }
def bootOf (o : Out) : Nat := match o with | .next t => t.gen.boot | _ => 0
theorem test_startup_stages :
    [0x00, 0x01, 0x10, 0x11, 0x21, 0x30, 0x40, 0x50, 0x60, 0x70].map (fun b => bootOf (exec (.startupStage none [] 5 16) (bootS b))) =
      [0x01, 0x10, 0x11, 0x20, 0x30, 0x40, 0x50, 0x60, 0x70, 0x80] := by decide +kernel
theorem test_startup_effects :
    nextIs (exec (.startupStage none [95] 5 16) (bootS 0x70)) (fun t => bit t.flt.coreFlags 95) = true ∧
      nextIs (exec (.startupStage none [] 5 16) (bootS 0x60)) (fun t => t.gen.storageReady) = true ∧
      nextIs (exec (.startupStage none [0] 5 16) (bootS 0x30)) (fun t => t.flt.holdupFail && !t.fl.holdupOk) = true ∧
      nextIs (exec (.startupStage none [] 5 16) { bootS 0x01 with phys := { State.reset.phys with perst := false } })
        (fun t => t.pci.up && t.pci.speed == 5) = true ∧
      nextIs (exec (.startupStage none [] 5 16) (bootS 0x80)) (fun t => t.gen.eclosed) = true ∧
      nextIs (exec (.startupStage none [] 5 16) { bootS 0x80 with phys := { State.reset.phys with on := false } })
        (fun t => !t.gen.eclosed) = true := by decide +kernel
theorem test_startup_stops :
    nextIs (exec (.startupStage (some 0x8009) [] 5 16) (bootS 0x70)) (fun t => t.gen.boot == 0x8009 && bit t.phys.sbAlert 5) = true ∧
      nextIs (exec (.startupStage (some 0x8009) [] 5 16) (bootS 0x60)) (fun t => t.gen.boot == 0x60) = true ∧
      nextIs (exec (.startupStage none [0, 1] 5 16) (bootS 0x20)) (fun t => t.gen.boot == 0x8002) = true := by decide +kernel
/-- The part's stepping is opaque; slot 0 of reset suits both. -/
theorem test_startup_verifies : tryImages [] (bootS 0x20).slotOrder (bootS 0x20) = (some 0, bootS 0x20) := by
  have h : ∀ k : Fin 2, bit 3 k.val = true := by decide
  have h0 : (bootS 0x20).slotOk [] 0 = true := by
    show (true && true && bit 3 Config.stepping.val && true && (true || _)) = true
    rw [h]
    rfl
  have h1 : (bootS 0x20).slotOrder = [0, 1] := by decide
  rw [h1, tryImages, h0]
  rfl

def offS : State := { State.reset with phys := { State.reset.phys with on := false } }
theorem test_power_up :
    nextIs (exec .senseMake { offS with phys := { offS.phys with sense := false } }) (fun t => t.phys.on && t.phys.sense) = true ∧
      nextIs (exec .pwrenHigh { offS with phys := { offS.phys with pwren := false } }) (fun t => t.phys.on) = true ∧
      nextIs (exec (.inputRangeChange 40000) { offS with phys := { offS.phys with inputIn := false } }) (fun t => t.phys.on) = true ∧
      nextIs (exec .senseMake { offS with phys := { offS.phys with inputIn := false } }) (fun t => !t.phys.on) = true := by decide
theorem test_input_range_change :
    nextIs (exec (.inputRangeChange 39999) State.reset) (fun t => bit t.pwr.evt 8 && bit t.phys.sbAlert 4 && t.phys.on) = true ∧
      nextIs (exec (.inputRangeChange 60001) State.reset) (fun t => bit t.pwr.evt 8) = true ∧
      nextIs (exec (.inputRangeChange 60000) State.reset) (fun t => t.pwr.evt == 0 && t.pwr.vin == 60000) = true := by decide
theorem test_perst_deassert :
    nextIs (exec (.perstDeassert 5 16) { bootS 0x10 with phys := { State.reset.phys with tap := .clamp } })
      (fun t => !t.phys.perst && t.pci.up && t.phys.tap == .bypass) = true ∧
      nextIs (exec (.perstDeassert 5 16) (bootS 0x01)) (fun t => !t.pci.up) = true ∧
      nextIs (exec (.perstDeassert 5 16) sleepS) (fun t => t.evc.antCause == 2) = true := by decide +kernel
theorem test_aux_power_change :
    nextIs (exec (.auxPowerChange true 6) State.reset) (fun t => t.phys.aux && t.phys.sbAddr == 2) = true ∧
      nextIs (exec (.auxPowerChange false 6) State.reset) (fun t => !t.phys.aux && t.phys.sbAddr == 3) = true := by decide
/-- Key 7 is installed, and named by SB_KEY_ID. -/
def keyS : State :=
  { State.reset with
    sf := { State.reset.sf with configs := List.replicate 2 ⟨0, [], none, [⟨7, []⟩], true⟩ }
    phys := { State.reset.phys with keyId := 7 } }
theorem test_sb_key_remove :
    keyS.keyCheck false = 0 ∧
      nextIs (exec (.sbKeyRemove true) keyS) (fun t => t.phys.keyBusy == some (2, true) && t.sf.ops.length == 2) = true ∧
      nextIs (exec (.sbKeyRemove false) keyS) (fun t => t.phys.keyBusy == none && t.phys.keyResult == 5) = true ∧
      nextIs (exec (.sbKeyRemove true) State.reset) (fun t => t.phys.keyResult == 4) = true := by decide +kernel
theorem test_sb_key_install :
    nextIs (exec (.sbKeyInstall true) { State.reset with gen := { State.reset.gen with pl := 1 } }) (fun t => t.phys.keyResult == 1) = true ∧
      (cmdS 0x08 [] [] State.reset).protRuns = true ∧
      nextIs (exec (.sbKeyInstall true) (cmdS 0x08 [] [] State.reset)) (fun t => t.phys.keyBusy == some (1, true) && t.sf.ops == []) = true ∧
      nextIs (exec (.sbKeyInstall true) offS) (fun t => t.phys.keyBusy == none) = true := by decide +kernel
theorem test_tap :
    State.reset.tapFree = true ∧ nextIs (exec (.samplePreload [1] [2]) State.reset)
      (fun t => t.phys.tap == .samplePreload && t.phys.tapOut == [1] && t.phys.boundary == [2]) = true ∧
      nextIs (exec (.extest [1] [2]) State.reset) (fun t => t.phys.tap == .extest && t.phys.boundary == [2]) = true ∧
      nextIs (exec .clamp State.reset) (fun t => t.phys.tap == .clamp) = true ∧
      nextIs (exec .highz State.reset) (fun t => t.phys.tap == .highz) = true ∧
      nextIs (exec .idcode State.reset) (fun t => t.phys.tap == .idcode) = true ∧
      nextIs (exec .bypass State.reset) (fun t => t.phys.tapOut == [0, 0, 0, 0, 0]) = true := by decide
theorem test_tap_bypass :
    nextIs (exec .highz { State.reset with fl := { State.reset.fl with buffered := [(2, 0)] } }) (fun t => t.phys.tap == .bypass) = true ∧
      nextIs (exec .debugInstruction { State.reset with gen := { State.reset.gen with pl := 1 } }) (fun t => t.phys.tap == .bypass) = true := by
  decide
theorem test_debug_refused : exec .debugInstruction State.reset = .refused .debugUnspecified := rfl

theorem test_register_write_place :
    nextIs (exec (.registerWrite .bar0 0x40000 8 1) (enterS ⟨2, 0, false⟩))
      (fun t => t.pwr.entering == some ⟨2, 0, true⟩ && t.pwr.limit == 300) = true ∧
      nextIs (exec (.registerWrite .bar0 0x101A 4 900) State.reset) (fun t => t.pwr.limit == 300) = true ∧
      nextIs (exec (.registerWrite .bar0 0x1018 8 2400) State.reset) (fun t => t.pwr.limit == 2400) = true ∧
      nextIs (exec (.registerWrite .bar0 0x1018 4 2401) State.reset) (fun t => t.pwr.limit == 300) = true ∧
      nextIs (exec (.registerWrite .bar0 0x101C 4 900) State.reset) (fun t => t.pwr.limit == 300) = true := by decide
/-- The admin queue's base in two halves. -/
theorem test_register_write_halves :
    dwordArea 0x100 = false ∧ upperWritable 0x100 = true ∧
      nextIs (exec (.registerWrite .bar0 0x100 4 0x12345678) State.reset)
        (fun t => Sparse.find t.gen.held 0x100 == some 0x12345678 && t.gen.aqSqBase == 0) = true ∧
      nextIs (exec (.registerWrite .bar0 0x104 4 9) { State.reset with gen := { State.reset.gen with held := [(0x100, 0x12345678)] } })
        (fun t => t.gen.aqSqBase == 0x912345000 && t.gen.held == []) = true := by decide
theorem test_register_write_flags :
    nextIs (exec (.registerWrite .bar0 0x4018 8 2) { State.reset with flt := { State.reset.flt with evt := 3 } })
      (fun t => t.flt.evt == 1) = true ∧
      nextIs (exec (.registerWrite .bar0 0x7000 8 2) State.reset) (fun t => t.flt.evt == 0) = true := by decide
theorem test_register_write_src :
    (State.reset.evc.src.Pairwise fun a b => a.1 < b.1) ∧
      nextIs (exec (.registerWrite .bar0 (0x2800 + 4 * 511) 4 (0x100 + 3 * 2 ^ 16)) State.reset)
        (fun t => t.src 511 == { priority := 0, hostEn := true, mask := false, autoRearm := false, vector := 3 } &&
          t.src 510 == { vector := 510 }) = true := by decide
theorem test_register_write_spaces :
    nextIs (exec (.registerWrite (.sideband 0x5B 0x37) 0x05 1 2) { State.reset with phys := { State.reset.phys with sbAlert := 3 } })
      (fun t => t.phys.sbAlert == 1) = true ∧
      nextIs (exec (.registerWrite (.sideband 0x5B 0x37) 0x05 1 2) { offS with phys := { offS.phys with sbAlert := 3 } })
        (fun t => t.phys.sbAlert == 3) = true ∧
      nextIs (exec (.registerWrite (.sideband 0x5B 0x36) 0x05 1 2) { State.reset with phys := { State.reset.phys with sbAlert := 3 } })
        (fun t => t.phys.sbAlert == 3) = true ∧
      nextIs (exec (.registerWrite (.sideband 0x58 0x43) 0x05 1 2) { State.reset with phys := { State.reset.phys with sbAlert := 3 } })
        (fun t => t.phys.sbAlert == 3) = true ∧
      nextIs (exec (.registerWrite .config 0 4 0xC000) State.reset) (fun t => t.msix.enable && t.msix.fmask) = true := by decide
theorem test_delivered : State.reset.sized ∧ State.reset.delivered := by
  unfold State.sized State.delivered
  decide
theorem test_step :
    nextIs (step State.reset) (fun t => t.time == 1) = true ∧ nextIs (step offS) (fun t => t.time == 0) = true ∧
      nextIs (step { State.reset with pending := [.senseMake, .bypass] }) (fun t => t.pending == [.bypass]) = true := by decide
theorem test_register_write_pci :
    nextIs (exec (.registerWrite .devControl 0 2 0) State.reset) (fun t => !t.pci.enableRo) = true ∧
      nextIs (exec (.registerWrite .header 0x10 4 (2 ^ 32 - 1)) State.reset) (fun t => t.configDword 0x10 == 0xFFFC0004) = true ∧
      nextIs (exec (.registerWrite .header 0x1C 4 (2 ^ 32 - 1)) State.reset) (fun t => t.configDword 0x1C == 0xFFFFFFF0) = true := by
  decide +kernel
/-- The reply of the example under 14 R411's fields: RESULT, SQ_HEAD and CID, then STATUS, QID and PHASE. -/
theorem test_reply_layout :
    HostWrite.bytes (.reply 0x1000 2 (0x400 + 9 * 2 ^ 32) 3 0x42 0 2 true) =
      leBytes 4 0x400 ++ leBytes 4 9 ++ leBytes 4 0x00420003 ++ leBytes 4 0x80020000 ∧
      HostWrite.addr (.reply 0x1000 2 0 0 0 0 0 true) = 0x1020 := by decide
/-! ## Further clauses of the statements -/

theorem test_atomic_pass_waits :
    nextIs (exec (.atomicPass 0 [] true []) lentS) (fun t => (t.run 0).map (·.borrow) == some (some 0)) = true ∧
      passIdle (bundle1 1) { job1 with phase := .held, again := false } false = true ∧
      nextIs (exec (.atomicPass 0 [] false []) (boundaryS 1 .held)) (fun t => (t.run 0).map (·.phase) == some .held) = true := by
  decide +kernel
/-- Entry 0 of the job waits for a gate cell on module 1. -/
def gateS (g : List GateRead) : State :=
  let s := boundaryS 1 .boundary
  let r : Run := { job1 with phase := .boundary, step := 1, first := false, binds := [⟨0, 6, 1⟩], gates := g }
  linkS [] { withJob r s with jobs := { (withJob r s).jobs with bundles := s.jobs.bundles }, seqs := { s.seqs with entries :=
    [(0, { newEntry 9 0 (joinRec 0) [] with gated := true, gateBind := 0 })] } }
theorem test_gate_reads :
    ((gateS []).run 0).map (gatesWait (gateS []) 0 (bundle1 1)) = some true ∧
      nextIs (exec (.atomicPass 0 [] false []) (gateS [])) (fun t => t.wlk.requests.map (·.by_) == [.gate 0] &&
        (t.run 0).map (fun r => (r.phase, r.gates.map (·.value))) == some (.boundary, [none])) = true ∧
      nextIs (exec (.atomicPass 0 [] false []) (gateS [⟨0, 1, 6, none, some 0⟩]))
        (fun t => (t.run 0).map (fun r => (r.phase, r.gates)) == some (.held, [])) = true := by decide +kernel
theorem test_job_dispatch_asleep :
    nextIs (exec (.jobDispatch ⟨0, []⟩) { queuedS with pwr := { queuedS.pwr with ps := 1 } })
      (fun t => t.pwr.exiting && t.jobs.queue == [queued]) = true := by decide +kernel
/-- Both cores of the job have halted: the job has made a step more, and leaves. -/
def haltedS : State := (with1 .halted (jobIn .ending)).setCore 0 fun c => { c with run := .halted }
theorem test_job_ended_halted :
    (∀ k ∈ [0, 1], (haltedS.core k).run = .halted) ∧ (bundle1 0).kind = 0 ∧
      nextIs (exec (.jobEnded 0 [] []) haltedS) (fun t => (t.run 0).isNone && (t.core 0).run == .idle &&
        (t.evc.part.getD 0 {}).jobEnd) = true := by decide +kernel
/-- Page 2 is not under way yet. -/
theorem test_writeback_goes_on :
    nextIs (exec (.writebackDone 0 []) { writebackS with mem := { writebackS.mem with
        resident := [(1, .stacked 0 true 0), (2, .stacked 0 true 0)] } })
      (fun t => (t.jobs.parts.getD 0 {}).writeback && !bit t.mig.evt 8) = true := by decide +kernel

theorem test_bar2_crossing :
    bar2Fits (pageBytes + 4095) 2 = false ∧
      nextIs (exec (.bar2Read (pageBytes + 4095) 2 []) memS) (fun t => t.mem.completion == none && t.mig.bar2Drop == 0) = true := by
  decide +kernel
/-- A request that waits, and a request behind the read of a granule that a write merges into. -/
def mergeReq : Request := { bar2Req 77 (.bar2Merge 0 false 5 1 [9]) with port := 3, msg := { msg0 with cls := 2, len := 64 } }
theorem test_bar2_in_order :
    (memS.bar2Stuck ⟨pageBytes, none, 2, none, []⟩) = false ∧
      nextIs (exec (.bar2Read pageBytes 2 []) { memS with mem := { memS.mem with bar2Held := [⟨0, none, 2, none, []⟩] } })
        (fun t => t.mem.bar2Held.map (·.addr) == [0, pageBytes] && t.mem.completion == none) = true ∧
      (linkS [mergeReq] memS).bar2Stuck ⟨pageBytes, none, 1, some [5], []⟩ = true ∧
      nextIs (exec (.bar2Write pageBytes [5] []) (linkS [mergeReq] memS))
        (fun t => t.mem.bar2Held.length == 1 && t.mem.bytes == memS.mem.bytes) = true := by decide +kernel
theorem test_allocation_refused :
    generalRange pageBytes 2 = true ∧ heldPages 1 2 ⟨1, 1, .host⟩ = 1 ∧
      answers (.memAlloc noBuf) 0x40 [(4, pageBytes), (6, 2)] [] memS 0x0402 0 = true ∧
      answers (.memFree noBuf) 0x41 [(4, 5), (6, 1)] [] memS 0x0402 0 = true ∧
      memS.pagesInUse 1 2 = false ∧
      answers (.memFree noBuf) 0x41 [(4, pageBytes), (6, 2)] [] memS 0x0403 0 = true := by decide +kernel

/-- Queue 0 waits with two packets and queue 1 of weight 2 with three. -/
def twoQueues : State :=
  { queueS {} with q := { State.reset.q with queues := [(0, { queue1 2 0 0 with weight := 1 }), (1, { queue1 1 14 0 with weight := 2 })] } }
def twoReads : List PacketRead := (List.range 16).flatMap fun i => [⟨0, i, some sigPacket⟩, ⟨1, i, some sigPacket⟩]
theorem test_fetch_weights :
    twoQueues.fetchPaused = false ∧ (twoQueues.q.queues.map fun e => twoQueues.takes e.1 e.2) = [2, 2] ∧
      (∀ e ∈ twoQueues.q.queues, ∀ i, i < 16 → (twoReads.find? fun r => r.qid == e.1 && r.index == i) = some ⟨e.1, i, some sigPacket⟩) ∧
      nextIs (exec (.commandFetch twoReads) twoQueues) (fun t => (t.q.cmds.map fun c => (c.qid, c.index)) == [(0, 0), (0, 1), (1, 14), (1, 15)] &&
        (t.queue 1).map (·.sqHead) == some 0) = true := by decide +kernel
/-- A restart in mode DISCARD replies to each waiting entry with status 0x0207. -/
def discardS : State := { restartS with q := { restartS.q with cmds := [{ cmd7 0x12 [(1, 1), (4, 1)] [] with qid := 0 }] } }
theorem test_queue_restart_discard :
    Discardable discardS 1 { queue1 3 1 0 with frozen := true, drained := true } ∧
      nextIs (exec (.queueRestart ⟨0, 7, [], []⟩ [⟨1, 1, some sigPacket⟩]) discardS)
        (fun t => (t.queue 1).map (fun q => (q.frozen, q.sqHead, q.cqTail)) == some (false, 3, 2) &&
          replies t == [(9, 0x0207), (0xFFFF, 0x0207), (7, 0)]) = true := by
  unfold Discardable
  decide +kernel
/-- Queue 0, as `q` gives it, with RESTART (bit 16) and DISCARD (bit 17) of QST_CTRL. -/
def queue0S (q : Queue) : State := { queueS {} with q := { State.reset.q with queues := [(0, q)] } }
def frozen0 (drained : Bool) : Queue := { queue1 3 1 0 with frozen := true, drained := drained }
theorem test_queue0_restarts :
    nextIs (exec (.queue0Restart 0x10008 []) (queue0S (queue1 3 1 0)))
      (fun t => (t.queue 0).map (fun q => (q.freezeMask, q.sqHead)) == some (14, 1) && t.hostOut == []) = true ∧
    nextIs (exec (.queue0Restart 0x30008 []) (queue0S (frozen0 false))) (fun t => (t.queue 0).map (·.frozen) == some true &&
      t.q.restarts == [⟨0, true, none, [], none⟩]) = true ∧
    nextIs (exec (.queue0Restart 0x10008 []) (queue0S (frozen0 true))) (fun t => (t.queue 0).map (fun q => (q.frozen, q.sqHead)) == some (false, 1) &&
      t.hostOut == []) = true ∧
    Discardable (queue0S (frozen0 true)) 0 (frozen0 true) ∧
    nextIs (exec (.queue0Restart 0x30008 []) (queue0S (frozen0 true))) (fun t => (t.queue 0).map (fun q => (q.frozen, q.sqHead)) == some (false, 3) &&
      replies t == [(0xFFFF, 0x0207), (0xFFFF, 0x0207)]) = true := by
  unfold Discardable
  decide +kernel
/-- A job was started meanwhile: the lowering does not take effect, and is undone. -/
theorem test_lowering_undone :
    let s := { lowering (.lowerCommit 1 none) with jobs := { State.reset.jobs with queue := [queued] } }
    s.canLower = false ∧ nextIs (exec .sfOperationComplete s) (fun t => t.gen.pl == 1 && t.fl.keyGen == 0 && (t.zone 2).state == .opened) = true := by
  decide +kernel
theorem test_index_short_buffers :
    answers (.indexInfo noBuf) 0x89 [(1, 2)] [(0, 63)] (idxS id) 0x0105 0 = true ∧
      shortFor (cmd7 0x88 [(1, 2), (4, 2)] [(0, 4)]) 0 2 1024 4 = true ∧
      answers (.indexAddZones noBuf) 0x88 [(1, 2), (4, 2)] [(0, 4)] (idxS id) 0x0105 0 = true := by decide +kernel
theorem test_form : State.reset.formed := by
  unfold State.formed State.sized
  decide +kernel
/-- The read that a write merges into is answered: the word of bytes 4 to 7 of its granule, byte 5 the write's; poisoned, or refused. -/
def merging (m : Msg) : State :=
  let s := answered (.bar2Merge 0 false 5 5 [9]) m
  { s with wlk := { s.wlk with ports := (linkS [] s).wlk.ports, routes := [(0, ⟨0, true⟩)],
                               requests := [{ reqOf (.bar2Merge 0 false 5 5 [9]) with msg := ask 2 0 pageBytes 64 [] }] } }
theorem test_bar2_merge_answers :
    nextIs (exec .readData (merging (answer 0 0 (List.replicate 64 6))))
      (fun t => t.wlk.requests.map (fun r => (r.by_, r.msg.addr, r.msg.payload)) ==
        [(.bar2Write 0 false, pageBytes + 4, [6, 9, 6, 6])]) = true ∧
      nextIs (exec .readData (merging { answer 0 0 (List.replicate 64 6) with poison := true }))
        (fun t => t.wlk.requests == [] && t.mig.bar2Drop == 0) = true ∧
      nextIs (exec .readData (merging (answer 0 1 []))) (fun t => t.wlk.requests == [] && t.mig.bar2Drop == 1) = true := by
  decide +kernel
theorem test_bar2_lost :
    (pendingS id).bar2Lost 0 true = pendingS id ∧ ((pendingS id).bar2Lost 0 false).mig.bar2Drop = 1 := by decide +kernel
theorem test_gate_answer :
    nextIs (exec .sigData (inboxS 3 (answer 2 0 (leBytes 8 4)) { gateS [⟨0, 1, 6, some 77, none⟩] with
        wlk := { (gateS []).wlk with requests := [reqOf (.gate 0)] } }))
      (fun t => (t.run 0).map (fun r => r.gates.map (·.value)) == some [some 4]) = true := by decide +kernel
theorem test_watch_resend_lost :
    nextIs (exec (.watchResend 77) (pendingS fun r => { r with resend := true, msg := { r.msg with dst := 9 } }))
      (fun t => t.wlk.requests == [] && t.flt.detections.map (·.info.status) == [0x0F05] && t.wlk.undeliv == 1) = true := by decide +kernel
/-- A wait of the module itself and a request that waits for the wake are both answered PENDING. -/
theorem test_watch_renew_local :
    nextIs (exec .watchRenew { State.reset with wlk := { State.reset.wlk with waits := [⟨0, 1, 4, 6, 0⟩], held := [(4, { msg0 with tag := 2 })] } })
      (fun t => t.wlk.inbox.map (fun e => (e.1, e.2.tag, e.2.rstatus)) == [(4, 1, 3), (4, 2, 3)] && t.wlk.held.length == 1) = true := by
  decide +kernel

/-- A core takes a delivery, and a nested one of a greater group number does not interrupt it; the imago's masks hold a source. -/
theorem test_mgmt_runs :
    upS.imagoRuns = true ∧ (∀ n, n < 512 → upS.mgmtTakes [] 3 n = false) ∧
      nextIs (exec (.mgmtVectorFetch 3 ⟨1, []⟩) { upS with evc := { upS.evc with nest := [[], [], [], [(468, 0), (464, 1)]] } })
        (fun t => bit t.flt.mgmtUp 3 && t.evc.nest.getD 3 [] == [(464, 1)]) = true ∧
      evS.mgmtTakes [468] 3 468 = false := by decide +kernel
theorem test_antenna_unwatched :
    evS.evc.antWatch.find? (fun w => w.en && evS.level w.src) = none ∧ { evS with pwr := { evS.pwr with ps := 1 } }.asleep = true ∧
      nextIs (exec (.antennaWake false) { evS with pwr := { evS.pwr with ps := 1 } })
        (fun t => t.evc.antCause == 0 && !t.pwr.exiting) = true := by decide +kernel
/-- The delay of PS1 counts from the moment when the last core became quiet; a module that may not sleep begins it anew. -/
theorem test_idle_timer_ps1_delay :
    State.reset.gen.features.ps1Us = 100 ∧
      nextIs (exec .idleTimerPs1 { idleS 0 with time := 5, pwr := { (idleS 0).pwr with quietSince := some 3 } })
        (fun t => t.pwr.entering == some ⟨1, 0, false⟩ && t.time == 100003) = true ∧
      nextIs (exec .idleTimerPs1 { idleS 0 with pwr := { (idleS 0).pwr with holdPs1 := true } })
        (fun t => t.pwr.entering.isNone && t.pwr.quietSince == some t.time) = true := by decide +kernel
/-- WAKE# goes when the link leaves L2, and the wake has cause 2; D0 leaves PS3. -/
theorem test_link_leaves_l2 :
    nextIs (exec (.dStateChange false false) { sleepS with pci := { sleepS.pci with linkL2 := true }, phys := { sleepS.phys with wakeN := true } })
      (fun t => !t.phys.wakeN && t.evc.antCause == 2 && !t.pci.linkL2) = true := by decide +kernel
/-- A dark die reads no rate; its supply ramps down to 0. -/
theorem test_supplies :
    let s := { State.reset with pwr := { State.reset.pwr with gated := [true, false, false, false], vcore := [700, 600, 0, 0] } }
    s.dark 0 = true ∧ s.supply 0 = 0 ∧ s.supply 1 = pointSupply (s.op 1) ∧ pointSupply 0 = 600 ∧ pointSupply 3 = 800 ∧
      nextIs (exec (.powerLimitTick 100 48000 [900, 900, 0, 0] [7, 7, 7, 7]) s)
        (fun t => t.pwr.rate.getD 0 1 == 0 && t.pwr.vcore.getD 0 0 == 700 && t.pwr.vcore.getD 1 0 == 800) = true := by decide +kernel
/-- The key record in force is torn, and no other bears its generation. -/
theorem test_startup_key_lost :
    let s := { bootS 0x50 with sf := { State.reset.sf with keyRecs := [some { generation := 0, torn := some [] }, none] } }
    s.keyOk = false ∧ (bootS 0x50).keyOk = true ∧
      nextIs (exec (.startupStage none [] 5 16) s) (fun t => t.gen.boot == 0x8007 && bit t.phys.sbAlert 5) = true := by decide +kernel
theorem test_key_command_keeps_old_keys :
    nextIs (exec (.sbKeyRemove true) keyS) (fun t => t.phys.keysOld == some [⟨7, []⟩] && t.keysInForce == [⟨7, []⟩]) = true := by
  decide +kernel
theorem test_register_reads :
    nextIs (exec (.registerWrite .bar0Read 0x5030 8 0) { State.reset with wlk := { State.reset.wlk with rtIndex := 65535, rtAuto := true } })
      (fun t => t.wlk.rtIndex == 0) = true ∧
      nextIs (exec (.registerWrite .bar0Read 0x5030 8 0) { State.reset with wlk := { State.reset.wlk with rtIndex := 65535 } })
        (fun t => t.wlk.rtIndex == 65535) = true ∧
      nextIs (exec (.registerWrite .poisoned 0x1018 8 900) State.reset) (fun t => t.pci.aer == [.posted] && t.pwr.limit == 300) = true := by
  decide +kernel
/-- The upper half of cell 2, written alone: the lower half stays as it is. -/
theorem test_register_write_upper_cell :
    nextIs (exec (.registerWrite .bar0 0x10014 4 5) { State.reset with sig := { State.reset.sig with cells := [(2, 7)] } })
      (fun t => t.cell 2 == 5 * 2 ^ 32 + 7) = true := by decide +kernel
theorem test_layout_change_die_test :
    ({ layoutS State.reset with ecc := { State.reset.ecc with testCtrl := 1 } } : State).dieTest = true ∧
      nextIs (exec .layoutChange { layoutS State.reset with ecc := { State.reset.ecc with testCtrl := 1 } }) (fun t => t.gen.layout == 0) = true := by
  decide +kernel

/-! ## The standards' own values (FIPS 180-4 "abc"; FIPS 197 4.2, 5.1; RFC 6979 A.2.6) -/

theorem test_sha384 : beNat (sha384 [0x61, 0x62, 0x63]) =
    0xCB00753F45A35E8BB5A03D699AC65007272C32AB0EDED1631A8B605A43FF5BED8086072BA1E7CC2358BAECA134C825A7 := by decide +kernel
theorem test_aes_parts :
    xtime 0xAE = 0x47 ∧ gfMul 8 0x57 0x13 = 0xFE ∧ subByte 0x53 = 0xED ∧ subByte 0 = 0x63 ∧ invSubByte 0xED = 0x53 ∧
      (mixColumns [2, 3, 1, 1] [0xD4, 0xBF, 0x5D, 0x30]).take 4 = [0x04, 0x66, 0x81, 0xE5] ∧
      (shiftRows ((List.range 16).map (BitVec.ofNat 8))).take 4 = [0, 5, 10, 15] := by decide +kernel
def key384 : List Byte :=
  beBytes 48 0xEC3A4E415B4E19A4568618029F427FA5DA9A8BC4AE92E02E06AAE5286B300C64DEF8F0EA9055866064A254515480BC13 ++
    beBytes 48 0x8015D9B72D7D57244EA8EF9AC0C621896708A59367F9DFB9F54CA84B3F1C9DB1288B231C3AE0D4FE7344FD2533264720
theorem test_curve :
    onCurve key384 = true ∧ onCurve (key384.set 95 0) = false ∧
      mulPoint 2 2 (some g384) = addPoint (some g384) (some g384) ∧ addPoint (some g384) (some (g384.1, p384 - g384.2)) = none := by
  decide +kernel
end Sys2Proof.Tests
end

section
/-!
How FAULT_DETECT confines a fault (07 R209; 20 R566-R572): what a teardown leaves as it is on its way, and O19.
-/
namespace Sys2Proof.Machine

/-! ## What the parts of a teardown leave as it is

The teardown of a job is a long chain of operations, of which only the stop of the cores, the fault record and the partition flags touch what
O19 reads. `State.steady` is that part of the state; every other operation of the chain keeps it. -/

/-- The part of the state that O19 reads. -/
structure Steady where
  time : Nat
  layout : Nat
  cores : List Core
  parts : Nat
  flags : List PartFlags
  records : List FaultRecord
  faultEvt : Nat
  alert : Nat

/-- What of `s` a teardown changes in three places only. -/
def State.steady (s : State) : Steady :=
  ⟨s.time, s.gen.layout, s.cores, s.jobs.parts.length, s.evc.part, s.flt.records, s.flt.evt, s.phys.sbAlert⟩

theorem coresOf_layout {s t : State} (h : t.gen.layout = s.gen.layout) (p : Nat) : t.coresOf p = s.coresOf p := by
  simp only [State.coresOf, State.diesPer, h]

theorem foldl_steady {α : Type} {f : State → α → State} (hf : ∀ s a, (f s a).steady = s.steady) (l : List α) (s : State) :
    (l.foldl f s).steady = s.steady := by
  induction l generalizing s with
  | nil => rfl
  | cons a l ih => rw [List.foldl_cons, ih, hf]

theorem ite_steady {c : Prop} [Decidable c] {s t u : State} (ht : t.steady = s.steady) (hu : u.steady = s.steady) :
    (if c then t else u).steady = s.steady := by
  split
  · exact ht
  · exact hu

/-! ### Replies, latched faults, wakes -/

theorem steady_of_repliesTo {s t : State} (h : s.RepliesTo t) : t.steady = s.steady := by
  rw [h]; rfl

@[simp] theorem replyRec_steady (s : State) (r : CmdRef) (st res : Nat) (n : Option Nat) :
    (s.replyRec r st res n).steady = s.steady := steady_of_repliesTo (replyRec_replies s r st res n)

@[simp] theorem reply_steady (s : State) (r : CmdRef) (st res : Nat) : (s.reply r st res).steady = s.steady :=
  replyRec_steady _ _ _ _ _

@[simp] theorem replyAll_steady (l : List CmdRef) (st res : Nat) (n : Option Nat) (s : State) :
    (replyAll l st res n s).steady = s.steady := foldl_steady (fun _ _ => replyRec_steady _ _ _ _ _) l s

@[simp] theorem wake_steady (s : State) (n : Nat) : (s.wake n).steady = s.steady := by
  rw [wake_frame]; rfl

@[simp] theorem setRun_steady (s : State) (p : Nat) (f : Run → Run) : (s.setRun p f).steady = s.steady := by
  simp [State.steady, State.setRun]

@[simp] theorem setPart_steady (s : State) (p : Nat) (f : Part → Part) : (s.setPart p f).steady = s.steady := by
  simp [State.steady, State.setPart]

theorem latch_steady (s : State) (scope : FaultScope) (info : FaultInfo) : (s.latch scope info).steady = s.steady := by
  unfold State.latch
  dsimp only
  split
  · split
    · rfl
    · split
      · rfl
      · rw [setRun_steady, wake_steady]; rfl
  · rw [wake_steady]; rfl

/-! ### The device range -/

theorem readGranule_steady (s : State) (g : Nat) (found : List Finding) (wb : Bool) :
    (s.readGranule g found wb).2.steady = s.steady := by
  unfold State.readGranule State.readZoneGranule
  dsimp only
  repeat' split
  all_goals rfl

theorem writeGranule_steady (s : State) (g off : Nat) (bs : List Byte) (found : List Finding) :
    (s.writeGranule g off bs found).steady = s.steady := by
  have hread := readGranule_steady (s.dirty (g * 64 / pageBytes)) g found true
  unfold State.writeGranule
  dsimp only
  split
  · rfl
  · split
    · exact hread
    · exact hread

@[simp] theorem poke_steady (s : State) (a : Nat) (bs : List Byte) : (s.poke a bs).steady = s.steady :=
  foldl_steady (fun _ _ => writeGranule_steady _ _ _ _ _) _ s

@[simp] theorem freeKvPages_steady (s : State) (ks : List Nat) : (s.freeKvPages ks).steady = s.steady := by
  refine foldl_steady (fun _ _ => ?_) ks s
  rfl

@[simp] theorem freeOwner_steady (s : State) (o : Owner) : (s.freeOwner o).steady = s.steady := by
  refine (foldl_steady (fun _ _ => ?_) _ _).trans ?_
  · rfl
  · rfl

theorem startBack_steady (s : State) (p : Nat) : (s.startBack p).steady = s.steady := by
  refine foldl_steady (fun _ _ => ?_) _ s
  exact ite_steady rfl rfl

theorem unstage_steady (s : State) (p : Nat) : (s.unstage p).steady = s.steady := by
  unfold State.unstage
  dsimp only
  rw [setPart_steady, startBack_steady]
  exact foldl_steady (f := fun s (r : Nat × Resident) => s.dropFrame r.2.place r.1) (fun _ _ => rfl) _ s

@[simp] theorem releaseJob_steady (s : State) (p : Nat) : (s.releaseJob p).steady = s.steady := by
  simp only [State.releaseJob, unstage_steady, freeKvPages_steady, freeOwner_steady]

/-! ### Indexes: what a query's end releases -/

theorem freeChain_steady (s : State) (d : IndexDef) (c : Chain) : (s.freeChain d c).steady = s.steady := by
  unfold State.freeChain
  dsimp only
  rw [foldl_steady fun _ _ => poke_steady _ _ _]
  exact foldl_steady (fun _ _ => poke_steady _ _ _) _ s

theorem releaseChain_steady (d : IndexDef) (oldest : Nat) (s : State) (c : Nat) : (releaseChain d oldest s c).steady = s.steady :=
  ite_steady ((poke_steady _ _ _).trans (freeChain_steady _ _ _)) rfl

theorem freeTombstone_steady (d : IndexDef) (upTo : Nat) (s : State) (c : Nat) : (freeTombstone d upTo s c).steady = s.steady := by
  refine ite_steady ?_ rfl
  rw [poke_steady, freeChain_steady, freeChain_steady]

theorem release_steady (s : State) (n : Nat) : (s.release n).steady = s.steady := by
  unfold State.release
  split
  · rfl
  · rename_i x _
    have hchains := foldl_steady (releaseChain_steady x.defn (s.oldest n x)) (s.listedCents x.defn) s
    dsimp only
    refine (foldl_steady (fun _ _ => ?_) _ _).trans ?_
    · exact ite_steady (poke_steady _ _ _) rfl
    split
    · exact ite_steady ((foldl_steady (freeTombstone_steady _ _) _ _).trans hchains) hchains
    · exact hchains

@[simp] theorem releaseAll_steady (s : State) : s.releaseAll.steady = s.steady := foldl_steady (fun _ _ => release_steady _ _) _ s

/-! ### Wyrdlink: notices, and held requests -/

theorem pump_steady (n p : Nat) (s : State) : (pump n p s).steady = s.steady := by
  induction n generalizing s with
  | zero => rfl
  | succ n ih =>
    unfold pump
    split
    · split
      · rename_i x _
        rw [ih]
        cases h : x.1 <;> simp [State.steady]
      · rfl
    · rfl

@[simp] theorem enqueue_steady (s : State) (p : Nat) (m : Msg) : (s.enqueue p m).steady = s.steady := pump_steady _ _ _

theorem respond_steady (s : State) (m : Msg) : (s.respond m).steady = s.steady := by
  unfold State.respond
  refine ite_steady rfl ?_
  split
  · exact enqueue_steady _ _ _
  · rfl

@[simp] theorem peerFaults_steady (s : State) (r : Run) (status : Nat) : (s.peerFaults r status).steady = s.steady :=
  foldl_steady (fun _ _ => respond_steady _ _) _ s

theorem bar2Part_steady (s : State) (tag : Nat) (bs : List Byte) (poison lost : Bool) :
    (s.bar2Part tag bs poison lost).steady = s.steady := by
  unfold State.bar2Part
  split
  · rfl
  · exact ite_steady (ite_steady rfl rfl) (ite_steady rfl rfl)

theorem failEffects_steady (s : State) (r : Request) (status : Nat) : (s.failEffects r status).steady = s.steady := by
  unfold State.failEffects
  split
  case h_1 | h_2 | h_3 | h_5 => exact latch_steady _ _ _
  case h_4 => exact reply_steady _ _ _ _
  case h_6 => exact bar2Part_steady _ _ _ _ _
  case h_7 | h_8 => exact ite_steady rfl rfl
  case h_9 => rfl

theorem releaseHeld_steady (n : Nat) (s : State) : (releaseHeld n s).steady = s.steady := by
  induction n generalizing s with
  | zero => rfl
  | succ n ih =>
    unfold releaseHeld
    split
    · split
      · rw [ih]
        exact ite_steady rfl (enqueue_steady _ _ _)
      · rw [ih, failEffects_steady]
        rfl
    · rfl

/-! ### Sequences and queries -/

theorem writeRecord_steady (s : State) (n token : Nat) (last kind : Bool) (reason position : Nat) (timing : Bool) :
    (s.writeRecord n token last kind reason position timing).steady = s.steady := by
  unfold State.writeRecord
  split
  · rfl
  · exact ite_steady rfl rfl

theorem rereadEntry_steady (s : State) (n : Nat) (e : SeqEntry) (k : Nat) (reads : List HostRead) :
    (s.rereadEntry n e k reads).steady = s.steady := ite_steady (s := s) rfl rfl

theorem endRecord_steady (s : State) (n reason : Nat) (reads : List HostRead) : (s.endRecord n reason reads).steady = s.steady := by
  unfold State.endRecord
  split
  · rfl
  · have hread := rereadEntry_steady s n
    exact ite_steady (hread _ _ _) ((writeRecord_steady _ _ _ _ _ _ _ _).trans (hread _ _ _))

@[simp] theorem endSeqs_steady (s : State) (p reason : Nat) (reads : List HostRead) : (s.endSeqs p reason reads).steady = s.steady := by
  refine foldl_steady (fun s e => ?_) _ s
  exact (freeKvPages_steady _ _).trans (ite_steady (endRecord_steady _ _ _ _) rfl)

@[simp] theorem endSeqCmds_steady (s : State) (p st res : Nat) (n : Option Nat) : (s.endSeqCmds p st res n).steady = s.steady := by
  unfold State.endSeqCmds
  dsimp only
  rw [foldl_steady fun _ _ => replyRec_steady _ _ _ _ _, foldl_steady fun _ _ => replyRec_steady _ _ _ _ _]
  rfl

@[simp] theorem endQueries_steady (s : State) (job st res : Nat) (n : Option Nat) :
    (s.endQueries job false st res n).steady = s.steady := by
  unfold State.endQueries
  dsimp only
  rw [releaseAll_steady]
  refine foldl_steady (fun _ _ => ?_) _ s
  exact replyRec_steady _ _ _ _ _

/-! ## The stop of the cores, and the end of the job -/

/-- The cores `cs` made idle, the others as they are. -/
def quiesced (cs : List Nat) (l : List Core) : List Core :=
  l.zipIdx.map fun (e : Core × Nat) => if cs.contains e.2 then e.1.quiesce else e.1

theorem quiesced_run {cs : List Nat} {l : List Core} {k : Nat} (hk : k ∈ cs) (hl : k < l.length) :
    ((quiesced cs l).getD k {}).run = .idle := by
  simp [quiesced, List.getD_eq_getElem?_getD, hl, hk, Core.quiesce]

theorem endLoan_steady (s : State) (p : Nat) : (s.endLoan p).steady = s.steady := by
  unfold State.endLoan
  split <;> rfl

/-- The stop of a partition's cores makes them idle (04 R122), and changes nothing else of what O19 reads. -/
theorem stopCores_steady (s : State) (p : Nat) :
    (s.stopCores p).steady = { s.steady with cores := quiesced (s.coresOf p) s.cores } := by
  have hloan := endLoan_steady s p
  have hcores : (s.endLoan p).cores = s.cores := congrArg Steady.cores hloan
  unfold State.stopCores
  dsimp only
  rw [releaseHeld_steady]
  rw [← hloan, ← hcores]
  rfl

/-- The flags of a partition whose job has ended (18 R527). -/
def PartFlags.ended (number : Nat) (fault : Bool) (f : PartFlags) : PartFlags :=
  { f with jobEnd := true, jobFault := f.jobFault || fault, job := number }

/-- The end of a job (07 R203, R209): its cores are idle, its flags stand, and the rest of what O19 reads is as it was. -/
theorem finishJob_steady (s : State) (p : Nat) (r : Run) (st res : Nat) (n : Option Nat) (fault : Bool) :
    (s.finishJob p r st res n fault).steady = { s.steady with
      cores := quiesced (s.coresOf p) s.cores
      flags := modifyAt s.evc.part p (PartFlags.ended r.number fault) } := by
  have hflags (u : State) : ((u.jobEndFlag p r.number fault).snapshot).steady = { u.steady with
      flags := modifyAt u.steady.flags p (PartFlags.ended r.number fault) } := rfl
  have hwait (u : State) (l : List Bool) : ({ u with mig := { u.mig with stagingWait := l } } : State).steady = u.steady := rfl
  simp only [State.finishJob, hflags, replyRec_steady, hwait, setPart_steady, releaseJob_steady, stopCores_steady]
  rfl

theorem run_setPart_none (s : State) (p : Nat) : (s.setPart p fun q => { q with job := none }).run p = none := by
  simp only [State.run, State.setPart, getD_modifyAt]
  by_cases hp : p < s.jobs.parts.length
  · simp [hp]
  · simp [hp, List.getD_eq_getElem?_getD]

theorem run_of_repliesTo {s t : State} (h : s.RepliesTo t) (p : Nat) : t.run p = s.run p := by
  rw [h]; rfl

theorem finishJob_run (s : State) (p : Nat) (r : Run) (st res : Nat) (n : Option Nat) (fault : Bool) :
    (s.finishJob p r st res n fault).run p = none := by
  have hflags (u : State) : ((u.jobEndFlag p r.number fault).snapshot).run p = u.run p := rfl
  have hwait (u : State) (l : List Bool) : ({ u with mig := { u.mig with stagingWait := l } } : State).run p = u.run p := rfl
  simp only [State.finishJob, hflags, run_of_repliesTo (replyRec_replies _ _ _ _ _), hwait, run_setPart_none]

/-! ## The fault record -/

theorem getLast?_drop_append_singleton {α : Type} (l : List α) (a : α) {k : Nat} (hk : k ≤ l.length) :
    ((l ++ [a]).drop k).getLast? = some a := by
  rw [List.getLast?_drop, if_neg (by rw [List.length_append, List.length_singleton]; omega), List.getLast?_concat]

@[simp] theorem bit_setBit (x i : Nat) : bit (setBit x i) i = true := by simp [bit, setBit, Nat.testBit_or, Nat.testBit_two_pow_self]

/-- `t` differs from `s` in system flash at most. -/
abbrev State.FlashesTo (s t : State) : Prop := t = { s with sf := t.sf }

theorem FlashesTo.trans {s t u : State} (h : s.FlashesTo t) (k : t.FlashesTo u) : s.FlashesTo u := by
  rw [State.FlashesTo] at h k ⊢
  rw [k, h]

theorem setWord_flashes (s : State) (k w : Nat) : s.FlashesTo (s.setWord k w) := rfl

theorem setLifeAt_flashes (s : State) (v : Nat × Nat) : s.FlashesTo (s.setLifeAt v) := rfl

theorem eraseSector_flashes (s : State) (k : Nat) : s.FlashesTo (s.eraseSector k) := rfl

/-- A record of the lifetime log goes to system flash (20 R581). -/
theorem logLife_flashes (s : State) (n : Nat) : s.FlashesTo (s.logLife n) := by
  have hput (u : State) (k w : Nat) (v : Nat × Nat) : u.FlashesTo ((u.setWord k w).setLifeAt v) :=
    FlashesTo.trans (setWord_flashes u k w) (setLifeAt_flashes _ v)
  unfold State.logLife
  dsimp only
  split
  · exact hput _ _ _ _
  · have hnext := FlashesTo.trans (setWord_flashes s (2048 + s.sf.lifeAt.1) wordValid)
      (hput _ (2048 + (s.sf.lifeAt.1 + 1) % 1024) wordOpen ((s.sf.lifeAt.1 + 1) % 1024, 0 + n))
    split
    · exact hnext
    · exact FlashesTo.trans hnext (eraseSector_flashes _ _)

/-- The records of the fault unit with a new one: the newest 4,096 are kept (20 R572). -/
def newestRecords (l : List FaultRecord) (f : FaultRecord) : List FaultRecord := (l ++ [f]).drop (l.length + 1 - 4096)

theorem newestRecords_getLast? (l : List FaultRecord) (f : FaultRecord) : (newestRecords l f).getLast? = some f :=
  getLast?_drop_append_singleton l f (by omega)

/-- A fault record before it is copied to the lifetime log: the newest one of the fault unit, counted and flagged. -/
def State.noteFault (s : State) (f : FaultRecord) : State :=
  ({ s with flt := { s.flt with
      records := newestRecords s.flt.records f, written := s.flt.written + 1
      confineMax := max s.flt.confineMax (f.confined - f.detect) } }.lifeAdd (classCounter f.info.status) 1).fltEvt 0

theorem writeFaultRecord_flashes (s : State) (f : FaultRecord) : (s.noteFault f).FlashesTo (s.writeFaultRecord f) :=
  logLife_flashes (s.noteFault f) 128

theorem steady_of_flashesTo {s t : State} (h : s.FlashesTo t) : t.steady = s.steady := by
  rw [h]; rfl

/-- A fault record is the newest one (20 R572), and FLT_EVT and SB_ALERT say so (20 R588; 22 R614). -/
theorem writeFaultRecord_steady (s : State) (f : FaultRecord) : (s.writeFaultRecord f).steady = { s.steady with
    records := newestRecords s.flt.records f, faultEvt := setBit s.flt.evt 0, alert := setBit s.phys.sbAlert 1 } := by
  rw [steady_of_flashesTo (writeFaultRecord_flashes s f)]
  simp [State.steady, State.noteFault, State.fltEvt, State.sbAlert]

@[simp] theorem writeFaultRecord_jobs (s : State) (f : FaultRecord) : (s.writeFaultRecord f).jobs = s.jobs := by
  rw [writeFaultRecord_flashes s f]
  rfl

@[simp] theorem writeFaultRecord_mem (s : State) (f : FaultRecord) : (s.writeFaultRecord f).mem = s.mem := by
  rw [writeFaultRecord_flashes s f]
  rfl

/-! ## The teardown -/

/-- A teardown up to its fault record: sequences, commands and queries of the job have ended (07 R209; 20 R566). -/
def State.tearDownReplies (s : State) (p : Nat) (r : Run) (d : Detection) (reads : List HostRead) : State :=
  let status := d.info.status
  let n := d.number
  let s := ((s.endSeqs p endFault reads).endSeqCmds p status n (some n)).endQueries r.number false status n (some n)
  let s := if r.parkCmd.isSome then s.freeOwner (.cocoon r.cocoon) else s
  (replyAll (r.parkCmd.toList ++ r.pendings.map (·.cmd) ++ s.begunOn r) status n (some n) s).peerFaults r status

/-- A teardown with its fault record and its counts. -/
def State.tearDownRecord (s : State) (p : Nat) (r : Run) (d : Detection) (reads : List HostRead) : State :=
  let s := s.tearDownReplies p r d reads
  let s := (s.writeFaultRecord (d.record s.time true p)).lifeAdd 14 1
  { s with flt := { s.flt with faults := bump s.flt.faults p 1 } }

theorem tearDown_eq (s : State) (p : Nat) (r : Run) (d : Detection) (reads : List HostRead) :
    s.tearDown p r d reads = (s.tearDownRecord p r d reads).finishJob p r d.info.status d.number (some d.number) true := rfl

theorem tearDownReplies_steady (s : State) (p : Nat) (r : Run) (d : Detection) (reads : List HostRead) :
    (s.tearDownReplies p r d reads).steady = s.steady := by
  simp only [State.tearDownReplies, peerFaults_steady, replyAll_steady]
  apply ite_steady <;> simp

/-- The fault record of a teardown, with the flags that announce it; the rest of what O19 reads is as it was. -/
theorem tearDownRecord_steady (s : State) (p : Nat) (r : Run) (d : Detection) (reads : List HostRead) :
    ∃ l e a, (s.tearDownRecord p r d reads).steady = { s.steady with records := l, faultEvt := setBit e 0, alert := setBit a 1 } ∧
      l.getLast? = some (d.record s.time true p) := by
  have hkept := tearDownReplies_steady s p r d reads
  have htime : (s.tearDownReplies p r d reads).time = s.time := congrArg Steady.time hkept
  have hrec := writeFaultRecord_steady (s.tearDownReplies p r d reads) (d.record s.time true p)
  have hrest (u : State) (l : List Nat) : ({ u with flt := { u.flt with faults := l } } : State).steady = u.steady := rfl
  have hcount (u : State) (k n : Nat) : (u.lifeAdd k n).steady = u.steady := rfl
  refine ⟨newestRecords (s.tearDownReplies p r d reads).flt.records _, (s.tearDownReplies p r d reads).flt.evt,
    (s.tearDownReplies p r d reads).phys.sbAlert, ?_, newestRecords_getLast? _ _⟩
  rw [State.tearDownRecord, hrest, hcount, htime, hrec, hkept]

/-- What O19 reads after the teardown of a job. -/
theorem tearDown_steady (s : State) (p : Nat) (r : Run) (d : Detection) (reads : List HostRead) :
    ∃ l e a, (s.tearDown p r d reads).steady = { s.steady with
        records := l, faultEvt := setBit e 0, alert := setBit a 1, cores := quiesced (s.coresOf p) s.cores
        flags := modifyAt s.evc.part p (PartFlags.ended r.number true) } ∧
      l.getLast? = some (d.record s.time true p) := by
  obtain ⟨l, e, a, hrec, hlast⟩ := tearDownRecord_steady s p r d reads
  have hcores : (s.tearDownRecord p r d reads).cores = s.cores := congrArg Steady.cores hrec
  have hflags : (s.tearDownRecord p r d reads).evc.part = s.evc.part := congrArg Steady.flags hrec
  have hof : (s.tearDownRecord p r d reads).coresOf p = s.coresOf p := coresOf_layout (congrArg Steady.layout hrec) p
  refine ⟨l, e, a, ?_, hlast⟩
  rw [tearDown_eq, finishJob_steady, hrec, hcores, hflags, hof]

theorem tearDown_run (s : State) (p : Nat) (r : Run) (d : Detection) (reads : List HostRead) :
    (s.tearDown p r d reads).run p = none := by
  rw [tearDown_eq, finishJob_run]

/-! ## The obligation -/

/-- The state in which the oldest detection is no longer waiting. -/
def State.withDetections (s : State) (rest : List Detection) : State := { s with flt := { s.flt with detections := rest } }

@[simp] theorem withDetections_steady (s : State) (rest : List Detection) : (s.withDetections rest).steady = s.steady := rfl

theorem exec_faultDetect (reads : List HostRead) (s : State) : exec (.faultDetect reads) s = execFaultDetect reads s := rfl

section
variable {s : State} {d : Detection} {rest : List Detection} (h : s.flt.detections = d :: rest)
include h

/-- The oldest detection is a running job's: the job is torn down (20 R566). -/
theorem exec_faultDetect_job {p : Nat} {r : Run} (hd : d.scope = .job p) (hr : s.run p = some r) (reads : List HostRead) :
    exec (.faultDetect reads) s = .next (settle ((s.withDetections rest).tearDown p r d reads)) := by
  have hr' : (s.withDetections rest).run p = some r := hr
  rw [State.withDetections] at hr' ⊢
  rw [exec_faultDetect, execFaultDetect, h]
  dsimp only
  rw [hd]
  dsimp only
  rw [hr']
  rfl

/-- The oldest detection is a command's: its record is written, and it replies (20 R567). -/
theorem exec_faultDetect_command {c : CmdRef} (hd : d.scope = .command c) (reads : List HostRead) :
    exec (.faultDetect reads) s = .next (settle (((s.withDetections rest).writeFaultRecord (d.record s.time false 0)).replyRec c
      d.info.status d.number (some d.number))) := by
  rw [exec_faultDetect, execFaultDetect, h]
  dsimp only
  rw [hd]
  rfl

/-- The oldest detection is nobody's: its record is written (20 R567). -/
theorem exec_faultDetect_nothing (hd : d.scope = .nothing) (reads : List HostRead) :
    exec (.faultDetect reads) s = .next (settle ((s.withDetections rest).writeFaultRecord (d.record s.time false 0))) := by
  rw [exec_faultDetect, execFaultDetect, h]
  dsimp only
  rw [hd]
  rfl

end

theorem run_partition {s : State} {p : Nat} {r : Run} (h : s.run p = some r) : p < s.jobs.parts.length := by
  refine Nat.lt_of_not_le fun hout => ?_
  have hnone : s.run p = none := by
    rw [State.run, List.getD_eq_getElem?_getD, List.getElem?_eq_none hout]
    rfl
  rw [hnone] at h
  cases h

/-- Settles O19: the teardown of a job keeps what it does not announce, and its parts write the record, the flags and the idle cores. -/
theorem faultConfined : Obligations.FaultConfined := by
  intro s d rest ⟨hcores, hparts, _⟩ hflags hdet
  refine ⟨fun p r reads hscope hrun => ?_, fun c reads hscope => ?_, fun reads hscope => ?_⟩
  · have hp : p < s.evc.part.length := by rw [hflags, ← hparts]; exact run_partition hrun
    obtain ⟨l, e, a, ht, hlast⟩ := tearDown_steady (s.withDetections rest) p r d reads
    have hgone := tearDown_run (s.withDetections rest) p r d reads
    rw [exec_faultDetect_job hdet hscope hrun]
    generalize State.tearDown _ p r d reads = t at ht hgone
    rw [withDetections_steady] at ht
    simp only [State.steady, Steady.mk.injEq] at ht
    obtain ⟨-, -, hidle, -, hpart, hrec, hevt, halert⟩ := ht
    have hended : t.evc.part.getD p {} = (s.evc.part.getD p {}).ended r.number true := by
      rw [hpart, getD_modifyAt, if_pos ⟨rfl, hp⟩]
      rfl
    refine ⟨settle t, rfl, hgone, ?_, ?_, ?_, ?_, ?_, fun k hk hk96 => ?_⟩
    · exact (congrArg PartFlags.jobFault hended).trans (Bool.or_true _)
    · exact congrArg PartFlags.job hended
    · rw [settle_flt, hevt, bit_setBit]
    · rw [settle_phys, halert, bit_setBit]
    · rw [settle_flt, hrec, hlast]
      rfl
    · rw [State.core, settle_cores, hidle]
      exact quiesced_run hk (hcores ▸ hk96)
  · exact exec_faultDetect_command hdet hscope reads
  · have hrec := writeFaultRecord_steady (s.withDetections rest) (d.record s.time false 0)
    rw [exec_faultDetect_nothing hdet hscope]
    simp only [State.steady, Steady.mk.injEq] at hrec
    obtain ⟨-, -, hidle, -, -, hlast, hevt, -⟩ := hrec
    refine ⟨_, rfl, ?_, ?_, hidle, writeFaultRecord_jobs _ _, writeFaultRecord_mem _ _⟩
    · rw [settle_flt, hlast, newestRecords_getLast?]
    · rw [settle_flt, hevt, bit_setBit]

end Sys2Proof.Machine
end

section
/-!
Writes and reads of registers (00 R12-R14; 14 R400-R402; 18 R541; 22 R613): what each access does, said once, and O57.
-/
namespace Sys2Proof.Machine

/-! ## Accesses of BAR0 by width -/

/-- The state in which a write of BAR0 at offset `o` takes effect: it is activity outside the quiet blocks (19 R553). -/
abbrev State.arrives (s : State) (o : Nat) : State := if quietWrite o then s else s.activity

theorem exec_registerWrite (space : RegSpace) (o size v : Nat) (s : State) :
    exec (.registerWrite space o size v) s = execRegisterWrite space o size v s := rfl

theorem exec_registerWrite_bar0 (o size v : Nat) (s : State) :
    exec (.registerWrite .bar0 o size v) s = .next (settle (s.bar0Write o size v)) := rfl

/-- A write beyond the space, not aligned, or of another width is discarded (00 R14; 14 R402). -/
theorem bar0Write_discarded {o size : Nat} (h : 0x40000 ≤ o ∨ o % size ≠ 0 ∨ (size ≠ 4 ∧ size ≠ 8)) (v : Nat) (s : State) :
    s.bar0Write o size v = s.arrives o := by
  by_cases hout : 0x40000 ≤ o ∨ o % size ≠ 0
  · simp only [State.bar0Write, if_pos hout]
  · have hsize : size ≠ 4 ∧ size ≠ 8 := by
      rcases h with ho | ha | hsize
      · exact absurd (.inl ho) hout
      · exact absurd (.inr ha) hout
      · exact hsize
    simp only [State.bar0Write, if_neg hout, if_neg hsize.1, if_neg hsize.2]

theorem bar0Write_qword {o : Nat} (ho : o < 0x40000) (ha : o % 8 = 0) (hd : dwordArea o = false) (v : Nat) (s : State) :
    s.bar0Write o 8 v = (s.arrives o).writeReg o (v % 2 ^ 64) := by
  have hin : ¬ (0x40000 ≤ o ∨ o % 8 ≠ 0) := by omega
  simp only [State.bar0Write, if_neg hin, hd]
  rfl

theorem bar0Write_half {o : Nat} (ho : o < 0x40000) (ha : o % 4 = 0) (hd : dwordArea o = false) (v : Nat) (s : State) :
    s.bar0Write o 4 v = (s.arrives o).writeHalf (o / 8 * 8) (v % 2 ^ 32) (o % 8 == 4) := by
  have hin : ¬ (0x40000 ≤ o ∨ o % 4 ≠ 0) := by omega
  simp only [State.bar0Write, if_neg hin, hd]
  rfl

theorem bar0Write_dword {o : Nat} (ho : o < 0x40000) (ha : o % 4 = 0) (hd : dwordArea o = true) (v : Nat) (s : State) :
    s.bar0Write o 4 v = (s.arrives o).writeDword o (v % 2 ^ 32) := by
  have hin : ¬ (0x40000 ≤ o ∨ o % 4 ≠ 0) := by omega
  simp only [State.bar0Write, if_neg hin, hd]
  rfl

theorem bar0Write_lower {o : Nat} (ho : o < 0x40000) (ha : o % 8 = 0) (hd : dwordArea o = false) (v : Nat) (s : State) :
    s.bar0Write o 4 v = (s.arrives o).writeHalf o (v % 2 ^ 32) false := by
  have hreg : o / 8 * 8 = o := by omega
  rw [bar0Write_half ho (by omega) hd, hreg, ha]
  rfl

theorem bar0Write_upper {o : Nat} (ho : o < 0x40000) (ha : o % 8 = 0) (hd : dwordArea o = false) (v : Nat) (s : State) :
    s.bar0Write (o + 4) 4 v = (s.arrives (o + 4)).writeHalf o (v % 2 ^ 32) true := by
  have hd' : dwordArea (o + 4) = false := by
    simp only [dwordArea, decide_eq_false_iff_not] at hd ⊢
    omega
  have hreg : (o + 4) / 8 * 8 = o := by omega
  have hup : (o + 4) % 8 = 4 := by omega
  rw [bar0Write_half (by omega) (by omega) hd', hreg, hup]
  rfl

/-! ## Halves of a register (00 R14) -/

theorem writeHalf_lower_plain {r : Nat} (h : upperWritable r = false) (v : Nat) (s : State) :
    s.writeHalf r v false = s.writeReg r v := by
  simp [State.writeHalf, h]

theorem writeHalf_upper_plain {r : Nat} (h : upperWritable r = false) (v : Nat) (s : State) : s.writeHalf r v true = s := by
  simp [State.writeHalf, h]

theorem writeHalf_lower_held {r : Nat} (h : upperWritable r = true) (v : Nat) (s : State) :
    s.writeHalf r v false = { s with gen := { s.gen with held := Sparse.put s.gen.held r v } } := by
  simp [State.writeHalf, h]

theorem writeHalf_upper_held {r k : Nat} {s : State} (h : upperWritable r = true) (hk : Sparse.find s.gen.held r = some k) (v : Nat) :
    s.writeHalf r v true = State.writeReg { s with gen := { s.gen with held := Sparse.drop s.gen.held r } } r (k + 2 ^ 32 * v) := by
  simp [State.writeHalf, h, hk]

theorem writeHalf_upper_alone {r : Nat} {s : State} (h : upperWritable r = true) (hk : Sparse.find s.gen.held r = none) (v : Nat) :
    s.writeHalf r v true = s.writeUpper r v := by
  simp [State.writeHalf, h, hk]

/-! ## Activity touches the power state only (19 R552-R554) -/

/-- `t` differs from `s` in its power state at most. -/
abbrev State.PowersTo (s t : State) : Prop := t = { s with pwr := t.pwr }

theorem activity_powers (s : State) : s.PowersTo s.activity := by
  rw [State.PowersTo, State.activity, wake_frame]

theorem arrives_powers (s : State) (o : Nat) : s.PowersTo (s.arrives o) := by
  unfold State.arrives
  split
  · rfl
  · exact activity_powers s

theorem arrives_gen (s : State) (o : Nat) : (s.arrives o).gen = s.gen := by rw [arrives_powers s o]
theorem arrives_wlk (s : State) (o : Nat) : (s.arrives o).wlk = s.wlk := by rw [arrives_powers s o]
theorem arrives_sig (s : State) (o : Nat) : (s.arrives o).sig = s.sig := by rw [arrives_powers s o]
theorem arrives_mig (s : State) (o : Nat) : (s.arrives o).mig = s.mig := by rw [arrives_powers s o]
theorem arrives_evc (s : State) (o : Nat) : (s.arrives o).evc = s.evc := by rw [arrives_powers s o]

/-! ## EVC_SRC registers (18 R541) -/

/-- A map lists no key below all of its keys. -/
theorem Sparse.get_below_all {α : Type} (d : α) {m : Sparse α} {i : Nat} (h : ∀ e ∈ m, i < e.1) : Sparse.get d m i = d := by
  cases m with
  | nil => rfl
  | cons e t =>
    have he : i < e.1 := h e List.mem_cons_self
    simp only [Sparse.get, if_neg (Nat.ne_of_lt he), if_pos he]

/-- In a map whose keys rise, a dropped key is not listed, and every other key reads as before. -/
theorem Sparse.get_drop_rising {α : Type} (d : α) {m : Sparse α} (h : m.Pairwise fun a b => a.1 < b.1) (i j : Nat) :
    Sparse.get d (Sparse.drop m i) j = if j = i then d else Sparse.get d m j := by
  induction m with
  | nil => simp [Sparse.drop]
  | cons e t ih =>
    obtain ⟨k, w⟩ := e
    obtain ⟨hk, ht⟩ := List.pairwise_cons.mp h
    unfold Sparse.drop
    split
    · rename_i hik
      split
      · rename_i hj
        subst hj
        simp only [Sparse.get, if_neg (Nat.ne_of_lt hik), if_pos hik]
      · rfl
    · split
      · rename_i hik
        subst hik
        split
        · rename_i hj
          subst hj
          exact Sparse.get_below_all d hk
        · rename_i hj
          by_cases hlt : j < i
          · rw [Sparse.get_below_all d fun e he => Nat.lt_trans hlt (hk e he)]
            simp only [Sparse.get, if_neg hj, if_pos hlt]
          · simp only [Sparse.get, if_neg hj, if_neg hlt]
      · rename_i hlt hne
        by_cases hj : j = i
        · subst hj
          simp [Sparse.get, hlt, hne, ih ht]
        · simp only [Sparse.get, ih ht, if_neg hj]

/-- The configuration that a value written to an EVC_SRC register gives (18 R541). -/
def srcOf (v : Nat) : SrcCfg :=
  { priority := bits v 0 8, hostEn := bit v 8, mask := bit v 9, autoRearm := bit v 10, vector := bits v 16 9 }

theorem srcOf_low (v : Nat) : srcOf (v % 2 ^ 32) = srcOf v := by
  have hbit (i : Nat) (hi : i < 32) : bit (v % 2 ^ 32) i = bit v i := by
    rw [bit, bit, Nat.testBit_mod_two_pow, decide_eq_true hi, Bool.true_and]
  have hprio : bits (v % 2 ^ 32) 0 8 = bits v 0 8 := by simp only [bits]; omega
  have hvec : bits (v % 2 ^ 32) 16 9 = bits v 16 9 := by simp only [bits]; omega
  simp only [srcOf, hprio, hvec, hbit 8 (by decide), hbit 9 (by decide), hbit 10 (by decide)]

theorem writeSrc_src {s : State} (h : s.evc.src.Pairwise fun a b => a.1 < b.1) (n v k : Nat) :
    (s.writeSrc n v).src k = if k = n then srcOf v else s.src k := by
  have hwrite : (s.writeSrc n v).evc.src =
      if srcOf v = { vector := n } then Sparse.drop s.evc.src n else Sparse.put s.evc.src n (srcOf v) := rfl
  rw [State.src, State.src, hwrite]
  by_cases hd : srcOf v = { vector := n }
  · rw [if_pos hd, Sparse.get_drop_rising _ h, hd]
    split
    · rename_i hk
      rw [hk]
    · rfl
  · rw [if_neg hd]
    split
    · rename_i hk
      rw [hk, Sparse.get_put_self]
    · rename_i hk
      rw [Sparse.get_put_other _ _ _ hk]

/-! ## The sideband -/

theorem sbTakes_iff (s : State) (addr pec o size v : Nat) : s.sbTakes addr pec o size v = true ↔
    s.phys.on = true ∧ addr = 0x58 + s.phys.sbAddr ∧ pec = smbusPec (blockWrite addr o size v) := by
  simp [State.sbTakes, and_assoc]

theorem sbWake_mem (s : State) : s.sbWake.mem = s.mem := by
  unfold State.sbWake State.antenna
  split
  · rw [wake_frame]
  · rfl

/-- A sideband write of a register that holds a value takes it; another leaves the contacts as they are (22 R614). -/
theorem sbWrite_phys {s : State} (hon : s.phys.on = true) (o v : Nat) :
    (o = 0x05 → (s.sbWrite o v).phys = { s.phys with sbAlert := clearBits s.phys.sbAlert v }) ∧
      (o = 0x06 → (s.sbWrite o v).phys = { s.phys with sbAlertEn := v % 64 }) ∧
      (o = 0x11 → (s.sbWrite o v).phys = { s.phys with keyId := v % 2 ^ 32 }) ∧
      (o = 0x12 → (s.sbWrite o v).phys = { s.phys with keyData := leBytes 96 v }) ∧
      (o ∉ [0x04, 0x05, 0x06, 0x11, 0x12] → (s.sbWrite o v).phys = s.phys) ∧ (s.sbWrite o v).mem = s.mem := by
  unfold State.sbWrite
  rw [if_neg (by simp [hon])]
  split
  case h_1 => exact ⟨nofun, nofun, nofun, nofun, by simp, by split <;> simp [sbWake_mem]⟩
  case h_2 => exact ⟨fun _ => rfl, nofun, nofun, nofun, by simp, rfl⟩
  case h_3 => exact ⟨nofun, fun _ => rfl, nofun, nofun, by simp, rfl⟩
  case h_4 => exact ⟨nofun, nofun, fun _ => rfl, nofun, by simp, rfl⟩
  case h_5 => exact ⟨nofun, nofun, nofun, fun _ => rfl, by simp, rfl⟩
  case h_6 h4 h5 h6 h11 h12 =>
    exact ⟨fun h => absurd h h5, fun h => absurd h h6, fun h => absurd h h11, fun h => absurd h h12, fun _ => rfl, rfl⟩

/-! ## The registers of one block -/

/-- A write of an event register clears the flags written 1 (00 R12). -/
theorem writeReg_clears_events (s : State) (v : Nat) :
    (s.writeReg 0x1020 v).pwr.evt = clearBits s.pwr.evt v ∧ (s.writeReg 0x4018 v).flt.evt = clearBits s.flt.evt v ∧
      (s.writeReg 0x3010 v).ecc.evt = clearBits s.ecc.evt v ∧ (s.writeReg 0x5018 v).wlk.evt = clearBits s.wlk.evt v ∧
      (s.writeReg 0x6040 v).mig.evt = clearBits s.mig.evt v := ⟨rfl, rfl, rfl, rfl, rfl⟩

/-- PWR_LIMIT takes a limit of 300 to 2,400 W, and ignores another (19 R561). -/
theorem writeReg_limit (s : State) (v : Nat) : s.writeReg 0x1018 v =
    if 300 ≤ v % 2 ^ 12 ∧ v % 2 ^ 12 ≤ 2400 then { s with pwr := { s.pwr with limit := v % 2 ^ 12 } } else s := rfl

theorem writeReg_block7 (s : State) {o : Nat} (h : 0x7000 ≤ o ∧ o < 0x8000) (v : Nat) : s.writeReg o v = s := by
  have hbelow (k : Nat) (hk : k ≤ 0x7000) : ¬ o < k := by omega
  simp [State.writeReg, hbelow, h.2]

theorem bar0Reads_frame (s : State) (o size : Nat) : (s.bar0Reads o size).mem = s.mem ∧ (s.bar0Reads o size).sig = s.sig := by
  unfold State.bar0Reads
  split
  · exact ⟨rfl, rfl⟩
  · split
    · exact ⟨rfl, rfl⟩
    · split
      · exact ⟨rfl, rfl⟩
      · exact ⟨rfl, rfl⟩

/-- A read of WLK_RT_DATA moves the index under AUTOINC (17 R522). -/
theorem bar0Reads_rtData (s : State) {size : Nat} (h : size = 4 ∨ size = 8) :
    (s.bar0Reads 0x5030 size).wlk.rtIndex = if s.wlk.rtAuto then (s.wlk.rtIndex + 1) % 65536 else s.wlk.rtIndex := by
  have hin : ¬ (0x40000 ≤ 0x5030 ∨ 0x5030 % size ≠ 0) := by rcases h with rfl | rfl <;> decide
  rw [State.bar0Reads, if_neg hin]
  cases hauto : s.wlk.rtAuto <;> simp

theorem poisoned_frame (s : State) : (s.activity.aerLog .posted).pci.aer = s.pci.aer ++ [.posted] ∧
    (s.activity.aerLog .posted).mem = s.mem ∧ (s.activity.aerLog .posted).gen = s.gen := by
  rw [activity_powers s]
  exact ⟨rfl, rfl, rfl⟩

/-! ## The obligation -/

/-- A lower half of a register with fields in both halves is held, and nothing that the register feeds changes (00 R14). -/
theorem registerWrite_holds_lower {o : Nat} (ho : o < 0x40000) (ha : o % 8 = 0) (hd : dwordArea o = false)
    (hu : upperWritable o = true) (v : Nat) (s : State) :
    ∃ t, exec (.registerWrite .bar0 o 4 v) s = .next t ∧ Sparse.find t.gen.held o = some (v % 2 ^ 32) ∧
      t.gen.aqSqBase = s.gen.aqSqBase ∧ t.wlk = s.wlk ∧ t.sig = s.sig ∧ t.mig = s.mig ∧ t.evc.ring = s.evc.ring := by
  rw [exec_registerWrite_bar0, bar0Write_lower ho ha hd, writeHalf_lower_held hu]
  have hbase := congrArg Gen.aqSqBase (arrives_gen s o)
  have hring := congrArg Evc.ring (arrives_evc s o)
  exact ⟨_, rfl, Sparse.find_put_self _ _ _, hbase, arrives_wlk s o, arrives_sig s o, arrives_mig s o, hring⟩

/-- An EVC_SRC register takes the configuration written, and the other sources keep theirs (18 R541). -/
theorem registerWrite_source {s : State} (h : s.evc.src.Pairwise fun a b => a.1 < b.1) {n : Nat} (hn : n < 512) (v : Nat) :
    ∃ t, exec (.registerWrite .bar0 (0x2800 + 4 * n) 4 v) s = .next t ∧ t.src n = srcOf v ∧ ∀ k, k ≠ n → t.src k = s.src k := by
  have hd : dwordArea (0x2800 + 4 * n) = true := by simp only [dwordArea, decide_eq_true_eq]; omega
  have hblock : 0x2800 ≤ 0x2800 + 4 * n ∧ 0x2800 + 4 * n < 0x3000 := by omega
  have hreg : (0x2800 + 4 * n - 0x2800) / 4 = n := by omega
  have hevc := arrives_evc s (0x2800 + 4 * n)
  have hsrc (k : Nat) : (s.arrives (0x2800 + 4 * n)).src k = s.src k := by rw [State.src, hevc]; rfl
  rw [exec_registerWrite_bar0, bar0Write_dword (by omega) (by omega) hd, State.writeDword, if_pos hblock, hreg]
  refine ⟨_, rfl, ?_, fun k hk => ?_⟩
  · rw [settle_src, writeSrc_src (hevc ▸ h), if_pos rfl, srcOf_low]
  · rw [settle_src, writeSrc_src (hevc ▸ h), if_neg hk, hsrc]

/-- Settles O57: each clause is one access of one register space, by the lemma that says what that access does. -/
theorem registerWrites : Obligations.RegisterWrites := by
  intro s
  refine ⟨fun o size v h => ?_, fun o v ho ha hd => ?_, fun o v ho ha hd hu => ⟨?_, ?_⟩,
    fun o v ho ha hd hu => ⟨?_, fun k hk => ?_, fun hk => ?_⟩, fun o v => ⟨fun h => ?_, fun h => ?_⟩,
    writeReg_clears_events s, fun v => ⟨fun hlo hhi => ?_, fun h => ?_⟩,
    fun o v h => writeReg_block7 s h v, fun n v hn hs => registerWrite_source hs hn v, fun addr pec o size v h => ?_,
    fun pec o size v hon hpec => ?_, fun o size v => ?_, fun o size v => ?_, fun o size v => ⟨_, rfl, rfl, rfl, rfl⟩,
    fun o size v => ⟨_, rfl, rfl⟩, fun o size v => rfl⟩
  · rw [exec_registerWrite_bar0, bar0Write_discarded h]
  · rw [exec_registerWrite_bar0, bar0Write_qword ho ha hd]
  · rw [exec_registerWrite_bar0, bar0Write_lower ho ha hd, writeHalf_lower_plain hu]
  · rw [exec_registerWrite_bar0, bar0Write_upper ho ha hd, writeHalf_upper_plain hu]
  · exact registerWrite_holds_lower ho ha hd hu v s
  · have hk' : Sparse.find (s.arrives (o + 4)).gen.held o = some k := by rw [arrives_gen, hk]
    rw [exec_registerWrite_bar0, bar0Write_upper ho ha hd, writeHalf_upper_held hu hk', arrives_gen]
  · have hk' : Sparse.find (s.arrives (o + 4)).gen.held o = none := by rw [arrives_gen, hk]
    rw [exec_registerWrite_bar0, bar0Write_upper ho ha hd, writeHalf_upper_alone hu hk']
  · rw [State.writeUpper, if_pos h]
  · rw [State.writeUpper, if_neg (by omega)]
  · rw [writeReg_limit, if_pos ⟨hlo, hhi⟩]
  · rw [writeReg_limit, if_neg (by omega)]
  · have hno : ¬ s.sbTakes addr pec o size v = true := by
      rw [sbTakes_iff]
      rintro ⟨hon, haddr, hpec⟩
      rcases h with hoff | hother | hwrong
      · exact Bool.false_ne_true (hoff.symm.trans hon)
      · exact hother haddr
      · exact hwrong hpec
    rw [exec_registerWrite, execRegisterWrite, if_neg hno]
    rfl
  · have hyes : s.sbTakes (0x58 + s.phys.sbAddr) pec o size v = true := (sbTakes_iff _ _ _ _ _ _).mpr ⟨hon, rfl, hpec⟩
    rw [exec_registerWrite, execRegisterWrite, if_pos hyes]
    exact ⟨_, rfl, sbWrite_phys hon o v⟩
  · obtain ⟨hmem, hsig⟩ := bar0Reads_frame s o size
    exact ⟨_, rfl, hmem, hsig, fun ho hsize => ho ▸ bar0Reads_rtData s hsize⟩
  · exact ⟨_, rfl, poisoned_frame s⟩

end Sys2Proof.Machine
end

section
/-!
PARTITION_SET and LAYOUT_CHANGE (01 R25-R27; 15 R462): what a queued job that is dropped leaves as it is, and O33.
-/
namespace Sys2Proof.Machine

/-! ## What follows a change of layout

A job that is dropped ends its queries, which releases what they retained of their indexes, and replies; the layout itself replies, or is
saved in system flash. `State.ClosesTo` says what all of these may write: the jobs, the cores, the sequences, the layout and the request for
one are not among it. -/

/-- `t` differs from `s` at most in what replies, releases of index chains, partition flags and writes of system flash change. -/
abbrev State.ClosesTo (s t : State) : Prop :=
  t = { s with
    q := t.q, hostOut := t.hostOut, gen := { s.gen with telemetry := t.gen.telemetry }
    pci := t.pci, pwr := t.pwr, mem := t.mem, ecc := t.ecc, life := t.life, fl := t.fl, evc := t.evc, idx := t.idx, sf := t.sf }

theorem ClosesTo.trans {s t u : State} (h : s.ClosesTo t) (k : t.ClosesTo u) : s.ClosesTo u := by
  rw [State.ClosesTo] at h k ⊢
  rw [k, h]

theorem foldl_closes {α : Type} {f : State → α → State} (hf : ∀ (s : State) a, s.ClosesTo (f s a)) (l : List α) (s : State) :
    s.ClosesTo (l.foldl f s) := by
  induction l generalizing s with
  | nil => rfl
  | cons a l ih => exact ClosesTo.trans (hf s a) (ih _)

theorem ite_closes {c : Prop} [Decidable c] {s t u : State} (ht : s.ClosesTo t) (hu : s.ClosesTo u) :
    s.ClosesTo (if c then t else u) := by
  split
  · exact ht
  · exact hu

theorem replyRec_closes (s : State) (r : CmdRef) (st res : Nat) (n : Option Nat) : s.ClosesTo (s.replyRec r st res n) := by
  rw [State.ClosesTo, replyRec_replies s r st res n]

theorem reply_closes (s : State) (r : CmdRef) (st res : Nat) : s.ClosesTo (s.reply r st res) := replyRec_closes _ _ _ _ _

theorem poke_closes (s : State) (a : Nat) (bs : List Byte) : s.ClosesTo (s.poke a bs) := by
  rw [State.ClosesTo, poke_accesses s a bs]

/-! ### Releases of an index (11 R311, R312, R320, R324) -/

theorem freeChain_closes (s : State) (d : IndexDef) (c : Chain) : s.ClosesTo (s.freeChain d c) :=
  ClosesTo.trans (foldl_closes (fun _ _ => poke_closes _ _ _) _ s) (foldl_closes (fun _ _ => poke_closes _ _ _) _ _)

theorem releaseChain_closes (d : IndexDef) (oldest : Nat) (s : State) (c : Nat) : s.ClosesTo (releaseChain d oldest s c) :=
  ite_closes (ClosesTo.trans (freeChain_closes _ _ _) (poke_closes _ _ _)) rfl

theorem freeTombstone_closes (d : IndexDef) (upTo : Nat) (s : State) (c : Nat) : s.ClosesTo (freeTombstone d upTo s c) :=
  ite_closes (ClosesTo.trans (ClosesTo.trans (freeChain_closes _ _ _) (freeChain_closes _ _ _)) (poke_closes _ _ _)) rfl

theorem release_closes (s : State) (n : Nat) : s.ClosesTo (s.release n) := by
  unfold State.release
  split
  · rfl
  · rename_i x _
    have hchains := foldl_closes (releaseChain_closes x.defn (s.oldest n x)) (s.listedCents x.defn) s
    refine ClosesTo.trans ?_ (foldl_closes (fun _ _ => ite_closes (poke_closes _ _ _) rfl) _ _)
    split
    · refine ite_closes (ClosesTo.trans hchains ?_) hchains
      exact ClosesTo.trans (foldl_closes (freeTombstone_closes _ _) _ _) rfl
    · exact hchains

theorem releaseAll_closes (s : State) : s.ClosesTo s.releaseAll := foldl_closes (fun _ _ => release_closes _ _) _ s

/-- Queries that do not end by themselves reply with a status, and what only they retained is released (12 R331). -/
theorem endQueries_closes (s : State) (job st res : Nat) (n : Option Nat) : s.ClosesTo (s.endQueries job false st res n) := by
  have hleaves (u : State) (l : List Query) : u.ClosesTo { u with idx := { u.idx with queries := l } } := rfl
  exact ClosesTo.trans (foldl_closes (fun _ _ => ClosesTo.trans (hleaves _ _) (replyRec_closes _ _ _ _ _)) _ s) (releaseAll_closes _)

/-! ## Queued jobs dropped -/

/-- The state with another queue of jobs. -/
def State.withJobQueue (s : State) (l : List QueuedJob) : State := { s with jobs := { s.jobs with queue := l } }

/-- A queued job that is dropped leaves the queue of jobs, and the end of its queries and of its JOB_START is all else (07 R203; 01 R27). -/
theorem dropQueued_closes (s : State) (j : QueuedJob) (st : Nat) :
    (s.withJobQueue (s.jobs.queue.erase j)).ClosesTo (s.dropQueued j st) :=
  ClosesTo.trans (endQueries_closes _ _ _ _ _) (ClosesTo.trans (reply_closes _ _ _ _) rfl)

/-- Queued jobs dropped one after the other: each leaves the queue of jobs once. -/
theorem foldl_dropQueued_closes (st : Nat) (l : List QueuedJob) (s : State) :
    (s.withJobQueue (l.foldl List.erase s.jobs.queue)).ClosesTo (l.foldl (fun s j => s.dropQueued j st) s) := by
  induction l generalizing s with
  | nil => rfl
  | cons j l ih =>
    have hdrop := dropQueued_closes s j st
    rw [List.foldl_cons, List.foldl_cons]
    refine ClosesTo.trans ?_ (ih _)
    rw [State.ClosesTo, hdrop]
    rfl

theorem count_foldl_erase {α : Type} [DecidableEq α] (a : α) (m l : List α) :
    (m.foldl List.erase l).count a = l.count a - m.count a := by
  induction m generalizing l with
  | nil => rfl
  | cons b m ih => rw [List.foldl_cons, ih, List.count_erase, List.count_cons, Nat.sub_sub, Nat.add_comm]

/-- A list from which its elements that satisfy `p` are erased has none of them left. -/
theorem not_of_mem_erase_filter {α : Type} [DecidableEq α] {p : α → Bool} {l : List α} {a : α}
    (h : a ∈ (l.filter p).foldl List.erase l) : p a = false := by
  cases hp : p a with
  | false => rfl
  | true =>
    have hcount : ((l.filter p).foldl List.erase l).count a = 0 := by
      rw [count_foldl_erase, List.count_filter hp, Nat.sub_self]
    exact absurd h (List.count_eq_zero.mp hcount)

/-! ## The layout saved (21 R599) -/

theorem intendSectors_flashes (s : State) (ks : List Nat) : s.FlashesTo (s.intendSectors ks) := by
  unfold State.intendSectors
  induction ks generalizing s with
  | nil => rfl
  | cons k ks ih => exact FlashesTo.trans (setWord_flashes s k wordIntent) (ih _)

theorem startSf_config_flashes {s : State} {k : Nat} {v : ConfigCopy} {next : SfThen} {ops : List SfOp}
    (h : s.sf.ops = .config k v next :: ops) : s.FlashesTo s.startSf := by
  simp only [State.startSf, h]
  exact FlashesTo.trans (intendSectors_flashes s _) rfl

/-- A write of a configuration copy that joins the queue of system flash, at once or later, writes system flash alone. -/
theorem pushSf_config_flashes (s : State) (k : Nat) (v : ConfigCopy) (next : SfThen) :
    s.FlashesTo (s.pushSf (.config k v next)) := by
  unfold State.pushSf
  dsimp only
  split
  · rename_i hidle
    have hops : s.sf.ops ++ [.config k v next] = [.config k v next] := by rw [List.isEmpty_iff.mp hidle, List.nil_append]
    exact FlashesTo.trans (t := { s with sf := _ }) rfl (startSf_config_flashes hops)
  · rfl

theorem writeConfig_flashes (s : State) (f : ConfigCopy → ConfigCopy) (next : SfThen) : s.FlashesTo (s.writeConfig f next) :=
  FlashesTo.trans (pushSf_config_flashes _ _ _ _) (pushSf_config_flashes _ _ _ _)

theorem writeConfig_closes (s : State) (f : ConfigCopy → ConfigCopy) (next : SfThen) : s.ClosesTo (s.writeConfig f next) := by
  rw [State.ClosesTo, writeConfig_flashes s f next]

/-! ## PARTITION_SET (15 R462) -/

/-- What a begun PARTITION_SET with packet `c` does to the state `s` in which it is marked. -/
def State.askLayout (s : State) (h : HostCmd) (c : Cmd) : State :=
  let l := bits (c.dw 4) 0 2
  if l = 3 then s.reply h.ref 0x0531 0
  else if l = s.gen.layout then s.ok h.ref 0
  else if s.jobs.parts.any fun p => p.job.isSome then s.reply h.ref 0x0530 0
  else State.commitCmd { s with gen := { s.gen with layoutReq := some ⟨h.ref, l, bit (c.dw 4) 8⟩ } } h.ref

section
variable {s : State} {h : HostCmd} {c : Cmd}

theorem askLayout_reserved (h3 : bits (c.dw 4) 0 2 = 3) : s.askLayout h c = s.reply h.ref 0x0531 0 := if_pos h3

theorem askLayout_inForce (h3 : bits (c.dw 4) 0 2 ≠ 3) (hsame : bits (c.dw 4) 0 2 = s.gen.layout) :
    s.askLayout h c = s.ok h.ref 0 := by
  rw [State.askLayout, if_neg h3, if_pos hsame]

theorem askLayout_busy (h3 : bits (c.dw 4) 0 2 ≠ 3) (hnew : bits (c.dw 4) 0 2 ≠ s.gen.layout)
    (hjob : ∃ p ∈ s.jobs.parts, p.job ≠ none) : s.askLayout h c = s.reply h.ref 0x0530 0 := by
  have hany : (s.jobs.parts.any fun p => p.job.isSome) = true := by simpa [Option.isSome_iff_ne_none] using hjob
  rw [State.askLayout, if_neg h3, if_neg hnew, if_pos hany]

/-- While no job runs, a new layout is accepted, and its command passes its point of no return. -/
theorem askLayout_idle (h3 : bits (c.dw 4) 0 2 ≠ 3) (hnew : bits (c.dw 4) 0 2 ≠ s.gen.layout)
    (hidle : ∀ p ∈ s.jobs.parts, p.job = none) :
    s.askLayout h c = State.commitCmd { s with gen := { s.gen with
      layoutReq := some ⟨h.ref, bits (c.dw 4) 0 2, bit (c.dw 4) 8⟩ } } h.ref := by
  have hnone : ¬ (s.jobs.parts.any fun p => p.job.isSome) = true := by simpa using hidle
  rw [State.askLayout, if_neg h3, if_neg hnew, if_neg hnone]

end

theorem exec_partitionSet {s : State} {h : HostCmd} {c : Cmd} (hb : Begun s h 0x09 c) :
    exec (.partitionSet h) s = .next (settle ((s.mark h).askLayout h c)) :=
  withCmd_of_begun hb fun c s => s.askLayout h c

/-! ## LAYOUT_CHANGE (01 R25-R27; 15 R462) -/

/-- The state in which a requested layout is in force, and every policy has returned to its defaults (16 R482). -/
def State.withLayout (s : State) (q : LayoutReq) : State :=
  { s with
    gen := { s.gen with layout := q.layout, layoutReq := none }
    seqs := { s.seqs with policy := List.replicate 4 {}, next := List.replicate 4 none } }

/-- A queued job whose partition the layout in force does not have (01 R25, R27). -/
def State.isGone (s : State) (j : QueuedJob) : Bool := decide (s.numParts ≤ j.partition)

/-- Queued jobs of partitions that are gone are dropped (01 R27). -/
def State.dropGone (s : State) : State := (s.jobs.queue.filter s.isGone).foldl (fun s j => s.dropQueued j 0x0523) s

/-- The end of a layout change: the layout is saved and its command replies then, or the command replies at once. -/
def State.endLayout (s : State) (q : LayoutReq) : State :=
  if q.save then s.writeConfig (fun c => { c with layout := some q.layout }) (.reply q.cmd 0) else s.ok q.cmd 0

theorem endLayout_closes (s : State) (q : LayoutReq) : s.ClosesTo (s.endLayout q) :=
  ite_closes (writeConfig_closes _ _ _) (reply_closes _ _ _ _)

/-- A change of layout as a whole: the layout and the policies, the jobs that stay queued, and what `State.ClosesTo` names. -/
theorem layoutChange_closes (s : State) (q : LayoutReq) :
    ((s.withLayout q).withJobQueue ((s.jobs.queue.filter (s.withLayout q).isGone).foldl List.erase s.jobs.queue)).ClosesTo
      ((s.withLayout q).dropGone.endLayout q) :=
  ClosesTo.trans (foldl_dropQueued_closes 0x0523 _ (s.withLayout q)) (endLayout_closes _ _)

theorem exec_layoutChange (s : State) : exec .layoutChange s = execLayoutChange s := rfl

section
variable {s : State} {q : LayoutReq} (hq : s.gen.layoutReq = some q)
include hq

/-- A write-back or a die test keeps the layout change waiting. -/
theorem exec_layoutChange_waits (h : (∃ p ∈ s.jobs.parts, p.writeback = true) ∨ s.dieTest = true) :
    exec .layoutChange s = .next (settle s) := by
  rw [exec_layoutChange, execLayoutChange, hq]
  exact if_pos (h.imp_left List.any_eq_true.mpr)

/-- With write-backs and die tests finished, the layout takes effect. -/
theorem exec_layoutChange_acts (hback : ∀ p ∈ s.jobs.parts, p.writeback = false) (htest : s.dieTest = false) :
    exec .layoutChange s = .next (settle ((s.withLayout q).dropGone.endLayout q)) := by
  have hready : ¬ ((s.jobs.parts.any fun p => p.writeback) = true ∨ s.dieTest = true) := by
    simpa [htest] using hback
  rw [exec_layoutChange, execLayoutChange, hq]
  dsimp only
  rw [if_neg hready]
  exact (apply_ite done _ _ _).symm

end

/-! ## The obligation -/

/-- Settles O33: PARTITION_SET by its four branches, LAYOUT_CHANGE by the frame of all that a change of layout does. -/
theorem layoutChanges : Obligations.LayoutChanges := by
  intro s h c
  refine ⟨?_, fun q hq => ⟨exec_layoutChange_waits hq, fun hback htest => ?_⟩⟩
  · rintro hb l rfl
    rw [exec_partitionSet hb]
    refine ⟨fun h3 => ?_, fun hsame h3 => ?_, fun h3 hnew hjob => ?_, fun h3 hnew hidle => ?_⟩
    · rw [askLayout_reserved h3]
    · rw [askLayout_inForce (s := s.mark h) h3 hsame]
    · rw [askLayout_busy (s := s.mark h) h3 hnew hjob]
    · rw [askLayout_idle (s := s.mark h) h3 hnew hidle]
      rfl
  · refine ⟨_, exec_layoutChange_acts hq hback htest, ?_⟩
    rw [settle_gen, settle_jobs, settle_cores, settle_seqs, layoutChange_closes s q]
    refine ⟨rfl, rfl, fun j hj => ?_, rfl, rfl⟩
    have hstays : (s.withLayout q).isGone j = false := not_of_mem_erase_filter hj
    exact Nat.lt_of_not_le (of_decide_eq_false hstays)

end Sys2Proof.Machine
end

section
/-!
The reduction and top-k instructions (06 R170; 05 R134-R149): what each does once it issues and names contexts in range, and O10.
-/
namespace Sys2Proof.Machine

/-! ## What the eight instructions share -/

/-- The instructions name as many contexts as their count says (06 R170). -/
@[simp] theorem length_ctxNumbers (w : IWord) : (ctxNumbers w).length = ctxCount w := by
  rw [ctxNumbers, List.length_map, List.length_range]

/-- A reduction or top-k instruction that issues, and names a positive number of contexts below 256, acts on its core (06 R170). -/
theorem issue_withCtxs {s : State} {n : Nat} {w : IWord} {op : Nat} {r : Run} (hi : Issues s n w op r) (hpos : 0 < ctxCount w)
    (hmax : ctxFirst w + ctxCount w ≤ 256) (f : State → Core → Out) :
    issue s n w op (fun s _ c => withCtxs n w s (f s c)) = f s (s.core n) := by
  rw [issue_of_issues hi, withCtxs, if_neg (by omega)]

/-- A read that finds nothing, of a scratchpad with no planted check bits, leaves the state and sees the core as it is (10 R280). -/
theorem scan_of_sound {s : State} {n : Nat} (hraw : (s.core n).rawCheck = []) (rs : List (Nat × Nat)) :
    s.scan n rs [] = (s, s.core n) := by
  rw [State.scan, hraw]
  rfl

/-! ## Opens (05 R135, R148) -/

/-- Closed contexts that the engine has room for open fresh where no frame is loaded. -/
theorem openCtxs_fresh {n : Nat} {w : IWord} {kind : CtxKind} {kReq : Nat} {c : Core}
    (hclosed : ∀ k ∈ ctxNumbers w, Sparse.find c.ctxs k = none)
    (hspace : kind = .topk →
      (c.ctxs.filter fun e => e.2.kind == .topk).foldl (fun m e => m + e.2.kReq) 0 + kReq * ctxCount w ≤ 1024)
    (hfresh : fld w 0 10 1 = 0) (found : List Finding) (s : State) :
    openCtxs n w kind kReq found c s = retire s n fun c =>
      { c with ctxs := (ctxNumbers w).foldl (fun m k => Sparse.put m k (freshCtx kind (fld w 2 0 32) kReq)) c.ctxs } := by
  have hnoneOpen : ¬ ((ctxNumbers w).any fun k => (Sparse.find c.ctxs k).isSome) = true := by simpa using hclosed
  have hroom : ¬ (kind = .topk ∧
      1024 < (c.ctxs.filter fun e => e.2.kind == .topk).foldl (fun m e => m + e.2.kReq) 0 + kReq * (ctxNumbers w).length) := by
    rw [length_ctxNumbers]
    exact fun h => Nat.not_lt.mpr (hspace h.1) h.2
  simp only [openCtxs, if_neg hnoneOpen, if_neg hroom, if_pos hfresh]

/-! ## Feeds (05 R136, R145-R148) -/

/-- A sound stream slot that fits feeds its rows into the named contexts, which are open and of the instruction's kind. -/
theorem feedFrom_sound {s : State} {n : Nat} {w : IWord} {topk : Bool} {o : Slot} {c' : Core}
    (hopen : openReason (s.core n) w topk = none) (hslot : Sparse.find (s.core n).slots (fld w 0 16 4) = some o)
    (hreason : slotReason o = none) (haxis : o.axis = 1 → o.layout = 1)
    (hfits : fits (readRanges o (ctxCount w) (fld w 6 0 24) (fld w 5 0 17) true) = true) (hraw : (s.core n).rawCheck = [])
    (hsound : ∀ j, j < ctxCount w → (feedElems (s.core n) o j (fld w 6 0 24) (fld w 5 0 17) 0).1.poison = false)
    (hfeed : feedSlot (s.core n) o (fld w 6 0 24) (fld w 5 0 17) (fld w 7 0 32) (ctxNumbers w) = .ok c') :
    feedFrom n w topk [] (s.core n) s = retire s n fun c => { c with ctxs := c'.ctxs } := by
  have haxis' : ¬ (o.axis = 1 ∧ o.layout ≠ 1) := fun h => h.2 (haxis h.1)
  have hclean : ((List.range (ctxCount w)).map fun j =>
      (feedElems (s.core n) o j (fld w 6 0 24) (fld w 5 0 17) 0).1).any (fun r => r.poison) = false := by
    simpa using hsound
  simp only [feedFrom, hopen, hslot, hreason, if_neg haxis', hfits, scan_of_sound hraw, hclean, hfeed, Bool.not_true,
    Bool.false_eq_true, if_false]

/-- Sound supplied entries are offered to the list of the first named context. -/
theorem feedEntries_sound {s : State} {n : Nat} {w : IWord} {o : Nat} (hopen : openReason (s.core n) w true = none)
    (hoff : ctxOff (s.core n) w = some o) (hfits : o + 16 * fld w 5 0 17 ≤ spadSize) (hraw : (s.core n).rawCheck = [])
    (hsound : badIn (s.core n) [(o, 16 * fld w 5 0 17)] = false) :
    feedEntries n w [] (s.core n) s = retire s n fun c => mapCtxs c [ctxFirst w] fun _ x =>
      offerAll x (entriesOf (spadBytes (s.core n) o (16 * fld w 5 0 17)) (fld w 5 0 17)) := by
  have hfits' : fits [(o, 16 * fld w 5 0 17)] = true := by simpa [fits] using hfits
  simp only [feedEntries, hopen, hoff, hfits', scan_of_sound hraw, hsound, Bool.not_true, Bool.false_eq_true, if_false]

/-! ## Frames read (05 R142, R149) -/

/-- Sound frames that fit are read as they stand in the scratchpad. -/
theorem readFrames_sound {s : State} {n : Nat} {w : IWord} {kind : CtxKind} {kReq o : Nat} {offs : List Nat}
    (hheads : fits (offs.map fun o => (o, 32)) = true)
    (hreads : fits (offs.map fun o => frameReads (s.core n) kind o kReq) = true) (hraw : (s.core n).rawCheck = [])
    (hsound : badIn (s.core n) (offs.map fun o => frameReads (s.core n) kind o kReq) = false) (f : State → Core → Out) :
    readFrames n w kind kReq o offs [] s f = f s (s.core n) := by
  simp only [readFrames, scan_of_sound hraw, hheads, hreads, hsound, Bool.not_true, Bool.or_self, Bool.false_eq_true, if_false]

/-! ## Stores (05 R139-R142) -/

/-- Open contexts whose stores fit are written to the scratchpad one after another, and closed. -/
theorem closing_fits {n : Nat} {w : IWord} {topk : Bool} {bytes : Ctx → List Byte} {stride : Ctx → Nat} {c : Core} {o : Nat}
    (hopen : openReason c w topk = none) (hoff : ctxOff c w = some o)
    (hfits : fits (storeRanges bytes stride c o (ctxNumbers w)) = true) (found : List Finding) (s : State) :
    closing n w topk bytes stride found c s =
      retire (s.unitWrites n found (storeRuns bytes stride c o (ctxNumbers w))) n fun c => closeCtxs c (ctxNumbers w) := by
  simp only [closing, hopen, hoff, hfits, Bool.not_true, Bool.false_eq_true, if_false]

/-! ## The eight instructions, where they issue with contexts in range -/

theorem exec_redOpen_eq (n : Nat) (w : IWord) (found : List Finding) (s : State) :
    exec (.redOpen n w found) s = execRedOpen n w found s := rfl

theorem exec_topkOpen_eq (n : Nat) (w : IWord) (found : List Finding) (s : State) :
    exec (.topkOpen n w found) s = execTopkOpen n w found s := rfl

theorem exec_topkFeed_eq (n : Nat) (w : IWord) (found : List Finding) (s : State) :
    exec (.topkFeed n w found) s = execTopkFeed n w found s := rfl

theorem exec_topkMerge_eq (n : Nat) (w : IWord) (found : List Finding) (s : State) :
    exec (.topkMerge n w found) s = execTopkMerge n w found s := rfl

section
variable {s : State} {n : Nat} {w : IWord} {r : Run} (hpos : 0 < ctxCount w) (hmax : ctxFirst w + ctxCount w ≤ 256)
include hpos hmax

theorem exec_redOpen_kind (hi : Issues s n w 0x40 r) {kind : CtxKind}
    (hkind : (fld w 0 8 2 = 1 ∧ kind = .sum) ∨ (fld w 0 8 2 = 2 ∧ kind = .sumsq) ∨ (fld w 0 8 2 = 3 ∧ kind = .meanvar))
    (found : List Finding) : exec (.redOpen n w found) s = openCtxs n w kind 0 found (s.core n) s := by
  rw [exec_redOpen_eq, execRedOpen, issue_withCtxs hi hpos hmax]
  rcases hkind with ⟨hf, rfl⟩ | ⟨hf, rfl⟩ | ⟨hf, rfl⟩
  · simp only [hf]
  · simp only [hf]
  · simp only [hf]

theorem exec_redOpen_reserved (hi : Issues s n w 0x40 r) (hf : fld w 0 8 2 = 0) (found : List Finding) :
    exec (.redOpen n w found) s = pfault s n w reasonReserved := by
  rw [exec_redOpen_eq, execRedOpen, issue_withCtxs hi hpos hmax]
  simp only [hf]

theorem exec_topkOpen (hi : Issues s n w 0x50 r) (hk : 0 < fld w 3 0 11) (hone : fld w 3 0 11 ≤ 1024)
    (hall : fld w 3 0 11 * ctxCount w ≤ 1024) (found : List Finding) :
    exec (.topkOpen n w found) s = openCtxs n w .topk (fld w 3 0 11) found (s.core n) s := by
  have hlegal : ¬ (fld w 3 0 11 = 0 ∨ 1024 < fld w 3 0 11 ∨ 1024 < fld w 3 0 11 * ctxCount w) := by omega
  rw [exec_topkOpen_eq, execTopkOpen, issue_withCtxs hi hpos hmax]
  exact if_neg hlegal

theorem exec_redFeed (hi : Issues s n w 0x41 r) (found : List Finding) :
    exec (.redFeed n w found) s = feedFrom n w false found (s.core n) s :=
  issue_withCtxs hi hpos hmax fun s c => feedFrom n w false found c s

theorem exec_topkFeed_entries (hi : Issues s n w 0x51 r) (hf : fld w 0 8 2 = 0) (found : List Finding) :
    exec (.topkFeed n w found) s = feedEntries n w found (s.core n) s := by
  rw [exec_topkFeed_eq, execTopkFeed, issue_withCtxs hi hpos hmax]
  simp only [hf]

theorem exec_topkFeed_slot (hi : Issues s n w 0x51 r) (hf : fld w 0 8 2 = 1) (found : List Finding) :
    exec (.topkFeed n w found) s = feedFrom n w true found (s.core n) s := by
  rw [exec_topkFeed_eq, execTopkFeed, issue_withCtxs hi hpos hmax]
  simp only [hf]

/-- Sound frames merge into the list of the first named context (05 R149). -/
theorem exec_topkMerge (hi : Issues s n w 0x52 r) (hopen : openReason (s.core n) w true = none) {o : Nat} {x y : Ctx}
    (hoff : ctxOff (s.core n) w = some o) (hctx : Sparse.find (s.core n).ctxs (ctxFirst w) = some x) (hsome : 0 < fld w 5 0 16)
    (hheads : fits ((frameOffs .topk x.kReq o (fld w 5 0 16)).map fun o => (o, 32)) = true)
    (hreads : fits ((frameOffs .topk x.kReq o (fld w 5 0 16)).map fun o => frameReads (s.core n) .topk o x.kReq) = true)
    (hraw : (s.core n).rawCheck = [])
    (hsound : badIn (s.core n) ((frameOffs .topk x.kReq o (fld w 5 0 16)).map fun o => frameReads (s.core n) .topk o x.kReq) = false)
    (hmerge : mergeAll (s.core n) (fld w 5 0 16) o x = .ok y) :
    exec (.topkMerge n w []) s = retire s n fun c => mapCtxs c [ctxFirst w] fun _ _ => y := by
  rw [exec_topkMerge_eq, execTopkMerge, issue_withCtxs hi hpos hmax]
  simp only [hopen, hctx, hoff, if_neg (Nat.ne_of_gt hsome), readFrames_sound hheads hreads hraw hsound, hmerge]

theorem exec_redFinish (hi : Issues s n w 0x42 r) (found : List Finding) :
    exec (.redFinish n ⟨w, found⟩) s =
      closing n w false (fun x => recBytes (finishCtx x (fld w 0 8 1 = 1))) (fun _ => 16) found (s.core n) s :=
  issue_withCtxs hi hpos hmax fun s c =>
    closing n w false (fun x => recBytes (finishCtx x (fld w 0 8 1 = 1))) (fun _ => 16) found c s

theorem exec_redStore (hi : Issues s n w 0x43 r) (found : List Finding) :
    exec (.redStore n ⟨w, found⟩) s = closing n w false ctxFrame (fun x => frameStride x.kind x.kReq) found (s.core n) s :=
  issue_withCtxs hi hpos hmax fun s c => closing n w false ctxFrame (fun x => frameStride x.kind x.kReq) found c s

theorem exec_topkStore (hi : Issues s n w 0x53 r) (found : List Finding) :
    exec (.topkStore n ⟨w, found⟩) s = closing n w true ctxFrame (fun x => frameStride x.kind x.kReq) found (s.core n) s :=
  issue_withCtxs hi hpos hmax fun s c => closing n w true ctxFrame (fun x => frameStride x.kind x.kReq) found c s

end

/-! ## The obligation -/

/-- Settles O10: each instruction issues into its unit operation (`openCtxs`, `feedFrom`, `feedEntries`, `mergeAll`, `closing`), whose
lemma says what it does with sound operands that fit. -/
theorem reductionInstructions : Obligations.ReductionInstructions := by
  intro s n w r op hi hpos hmax
  refine ⟨?redOpen, ?reserved, ?topkOpen, ?feed, ?entries, ?merge, ?store⟩
  case redOpen =>
    rintro rfl hfresh hclosed kind hkind
    have hne : kind ≠ .topk := by
      rintro rfl
      simp at hkind
    rw [exec_redOpen_kind hpos hmax hi hkind, openCtxs_fresh hclosed (fun h => absurd h hne) hfresh]
    rfl
  case reserved =>
    rintro rfl hf
    exact exec_redOpen_reserved hpos hmax hi hf []
  case topkOpen =>
    rintro rfl hfresh hclosed hk hone hall hspace
    rw [exec_topkOpen hpos hmax hi hk hone hall, openCtxs_fresh hclosed (fun _ => hspace) hfresh]
    rfl
  case feed =>
    intro i topk hrow o hopen hslot hreason haxis hfits hraw hsound c' hfeed
    have hexec : exec i s = feedFrom n w topk [] (s.core n) s := by
      rcases hrow with ⟨rfl, rfl, rfl⟩ | ⟨rfl, hf, rfl, rfl⟩
      · exact exec_redFeed hpos hmax hi []
      · exact exec_topkFeed_slot hpos hmax hi hf []
    rw [hexec, feedFrom_sound hopen hslot hreason haxis hfits hraw hsound hfeed]
    rfl
  case entries =>
    rintro rfl hf hopen o hoff hfits hraw hsound
    rw [exec_topkFeed_entries hpos hmax hi hf, feedEntries_sound hopen hoff hfits hraw hsound]
    rfl
  case merge =>
    rintro rfl hopen o x reads y hoff hctx rfl hsome hheads hreads hraw hsound hmerge
    exact exec_topkMerge hpos hmax hi hopen hoff hctx hsome hheads hreads hraw hsound hmerge
  case store =>
    intro i topk bytes stride found hrow o hopen hoff hfits
    have hexec : exec i s = closing n w topk bytes stride found (s.core n) s := by
      rcases hrow with ⟨rfl, rfl, rfl, rfl, rfl⟩ | ⟨rfl, rfl, rfl, rfl, rfl⟩ | ⟨rfl, rfl, rfl, rfl, rfl⟩
      · exact exec_redFinish hpos hmax hi found
      · exact exec_redStore hpos hmax hi found
      · exact exec_topkStore hpos hmax hi found
    rw [hexec, closing_fits hopen hoff hfits]
    rfl

end Sys2Proof.Machine
end

section
/-!
BUNDLE_LOAD and BUNDLE_UNLOAD (07 R190-R193; 16 R473): the checks of a load in their order, what a load and a release of pages leave as it
is, and O41.
-/
namespace Sys2Proof.Machine

/-! ## What the two rows share with others -/

theorem lowestFree_unused {n i : Nat} {used : Nat → Bool} (h : lowestFree n used = some i) : used i = false := by
  simpa using List.find?_some h

/-- A buffer that is long enough and can be read gives its first `n` bytes (14 R410). -/
theorem readBuf_enough {h : HostCmd} {c : Cmd} {b n : Nat} {bs : List Byte} (hlen : n ≤ c.len b) (hbuf : n ≠ 0 → h.buf b = some bs)
    (hbs : n ≤ bs.length) (s : State) (f : List Byte → State → State) : readBuf h c b n s f = f (bs.take n) s := by
  rw [readBuf, if_neg (Nat.not_lt.mpr hlen)]
  split
  · rename_i h0
    rw [h0, List.take_zero]
  · rename_i h0
    rw [hbuf h0]
    exact if_neg (Nat.not_lt.mpr hbs)

/-! ## Pages released (07 R193, R207; 09 R250, R252, R268) -/

/-- `t` differs from `s` at most in the contents of pages of the device range and in which KV pages are allocated. -/
abbrev State.WipesTo (s t : State) : Prop :=
  t = { s with mem := { s.mem with kvMap := t.mem.kvMap, bytes := t.mem.bytes, poison := t.mem.poison, check := t.mem.check } }

theorem WipesTo.trans {s t u : State} (h : s.WipesTo t) (k : t.WipesTo u) : s.WipesTo u := by
  rw [State.WipesTo] at h k ⊢
  rw [k, h]

theorem zeroPages_wipes (s : State) (p n : Nat) : s.WipesTo (s.zeroPages p n) := rfl

theorem freeKvPages_wipes (s : State) (ks : List Nat) : s.WipesTo (s.freeKvPages ks) :=
  List.foldlRecOn ks _ (motive := s.WipesTo) rfl fun _ hu _ _ => WipesTo.trans hu rfl

/-- The state without the allocations of an owner, before their pages are wiped. -/
def State.withoutOwner (s : State) (o : Owner) : State :=
  let gone := s.mem.allocs.filter fun a => a.owner == o
  { s with mem := { s.mem with
    allocs := s.mem.allocs.filter fun a => a.owner != o
    resident := s.mem.resident.filter fun r => !(gone.any fun a => decide (a.page ≤ r.1 ∧ r.1 < a.page + a.pages))
    flights := s.mem.flights.filter fun f => !(gone.any fun a => decide (a.page ≤ f.page ∧ f.page < a.page + a.pages)) } }

/-- The pages of an owner leave the allocated ones, and are wiped. -/
theorem freeOwner_wipes (s : State) (o : Owner) : (s.withoutOwner o).WipesTo (s.freeOwner o) :=
  List.foldlRecOn _ _ (motive := (s.withoutOwner o).WipesTo) rfl fun u hu a _ => WipesTo.trans hu (zeroPages_wipes u a.page a.pages)

theorem mem_withoutOwner {s : State} {o : Owner} {a : Alloc} :
    a ∈ (s.withoutOwner o).mem.allocs ↔ a ∈ s.mem.allocs ∧ a.owner ≠ o := by
  simp [State.withoutOwner]

/-- `t` differs from `s` at most in copies and staging of pages of the flash window. -/
abbrev State.UncopiesTo (s t : State) : Prop :=
  t = { s with
    mem := { s.mem with resident := t.mem.resident, flights := t.mem.flights, poison := t.mem.poison, check := t.mem.check }
    fl := { s.fl with reads := t.fl.reads } }

theorem UncopiesTo.trans {s t u : State} (h : s.UncopiesTo t) (k : t.UncopiesTo u) : s.UncopiesTo u := by
  rw [State.UncopiesTo] at h k ⊢
  rw [k, h]

theorem dropCopies_uncopies (s : State) (p n : Nat) : s.UncopiesTo (s.dropCopies p n) := rfl

/-! ## BUNDLE_UNLOAD -/

/-- A mapping that bundle `n` made (07 R193). -/
def isMapOf (n : Nat) (m : Nat × Mapping) : Bool := m.2.bundle == some n

/-- The copies of the pages that bundle `n` maps are gone. -/
def State.dropCopiesOf (s : State) (n : Nat) : State :=
  (s.mem.maps.filter (isMapOf n)).foldl (fun s m => s.dropCopies m.2.page m.2.pages) s

theorem dropCopiesOf_uncopies (s : State) (n : Nat) : s.UncopiesTo (s.dropCopiesOf n) :=
  List.foldlRecOn _ _ (motive := s.UncopiesTo) rfl fun u hu m _ => UncopiesTo.trans hu (dropCopies_uncopies u m.2.page m.2.pages)

/-- Bundle `n` and its mappings are gone, its pages not yet. -/
def State.withoutBundle (s : State) (n : Nat) : State :=
  { s with
    jobs := { s.jobs with bundles := s.jobs.bundles.filter fun b => b.handle != n }
    mem := { s.mem with maps := s.mem.maps.filter fun m => !isMapOf n m } }

theorem bundle_withoutBundle_self (s : State) (n : Nat) : (s.withoutBundle n).bundle n = none := by
  simp [State.withoutBundle, State.bundle]

theorem bundle_withoutBundle_other (s : State) {n k : Nat} (h : k ≠ n) : (s.withoutBundle n).bundle k = s.bundle k := by
  simp only [State.withoutBundle, State.bundle, List.find?_filter]
  congr 1
  funext b
  by_cases hb : b.handle = k <;> simp [hb, h]

theorem mem_maps_withoutBundle {s : State} {n : Nat} {m : Nat × Mapping} :
    m ∈ (s.withoutBundle n).mem.maps ↔ m ∈ s.mem.maps ∧ m.2.bundle ≠ some n := by
  simp [State.withoutBundle, isMapOf]

/-- Bundle `n` is gone, with its mappings, their copies and its pages (07 R193). -/
def State.unloadBundle (s : State) (n : Nat) : State := ((s.dropCopiesOf n).withoutBundle n).freeOwner (.bundle n)

/-- What a begun BUNDLE_UNLOAD of bundle `n` does to the state `s` in which it is marked. -/
def State.askUnload (s : State) (h : HostCmd) (n : Nat) : State :=
  if (s.bundle n).isNone then s.reply h.ref 0x050B 0
  else if bundleInUse s n then s.reply h.ref 0x050A 0
  else (s.unloadBundle n).ok h.ref 0

theorem exec_bundleUnload {s : State} {h : HostCmd} {c : Cmd} (hb : Begun s h 0x49 c) :
    exec (.bundleUnload h) s = .next (settle ((s.mark h).askUnload h c.handle)) :=
  withCmd_of_begun hb fun c s => s.askUnload h c.handle

section
variable {s : State} {n : Nat}

theorem askUnload_unknown (hnone : s.bundle n = none) (h : HostCmd) : s.askUnload h n = s.reply h.ref 0x050B 0 := by
  rw [State.askUnload, hnone]
  rfl

theorem askUnload_inUse (hsome : s.bundle n ≠ none) (huse : bundleInUse s n = true) (h : HostCmd) :
    s.askUnload h n = s.reply h.ref 0x050A 0 := by
  rw [State.askUnload, if_neg (by simpa using hsome), if_pos huse]

theorem askUnload_free (hsome : s.bundle n ≠ none) (hfree : bundleInUse s n = false) (h : HostCmd) :
    s.askUnload h n = (s.unloadBundle n).ok h.ref 0 := by
  rw [State.askUnload, if_neg (by simpa using hsome), if_neg (by simpa using hfree)]

end

/-- A bundle unloaded: its pages are wiped and its flash copies dropped, and of the jobs only the bundle goes (07 R193). -/
theorem unloadBundle_frame (s : State) (n : Nat) :
    s.unloadBundle n = { s with
      jobs := { s.jobs with bundles := (s.withoutBundle n).jobs.bundles }
      mem := { s.mem with
        maps := (s.withoutBundle n).mem.maps, allocs := (s.withoutOwner (.bundle n)).mem.allocs
        resident := (s.unloadBundle n).mem.resident, flights := (s.unloadBundle n).mem.flights, kvMap := (s.unloadBundle n).mem.kvMap
        bytes := (s.unloadBundle n).mem.bytes, poison := (s.unloadBundle n).mem.poison, check := (s.unloadBundle n).mem.check }
      fl := { s.fl with reads := (s.unloadBundle n).fl.reads } } := by
  have hwipe := freeOwner_wipes ((s.dropCopiesOf n).withoutBundle n) (.bundle n)
  have hcopies := dropCopiesOf_uncopies s n
  rw [State.unloadBundle, hwipe, hcopies]
  rfl

/-! ## BUNDLE_LOAD: what it may change -/

/-- `t` differs from `s` at most in what a reply, the placement of a bundle, a free value and a zone block found lost change. -/
abbrev State.LoadsTo (s t : State) : Prop :=
  t = { s with
    q := t.q, hostOut := t.hostOut, gen := { s.gen with telemetry := t.gen.telemetry }
    pci := { s.pci with aer := t.pci.aer }, pwr := { s.pwr with idleSince := t.pwr.idleSince }
    mem := t.mem, freeCtr := t.freeCtr, fl := { s.fl with zones := t.fl.zones }, life := t.life, evc := t.evc }

theorem LoadsTo.trans {s t u : State} (h : s.LoadsTo t) (k : t.LoadsTo u) : s.LoadsTo u := by
  rw [State.LoadsTo] at h k ⊢
  rw [k, h]

theorem reply_loads (s : State) (r : CmdRef) (st res : Nat) : s.LoadsTo (s.reply r st res) := by
  rw [State.LoadsTo, reply_replies s r st res]

/-- The blocks that a load's reads lose become suspect, and nothing else of the flash store changes (13 R377). -/
theorem suspectRefs_loads (s : State) (bad : List Nat) (refs : List WeightRef) : s.LoadsTo (s.suspectRefs bad refs) :=
  List.foldlRecOn _ _ (motive := s.LoadsTo) rfl fun _ hu _ _ => LoadsTo.trans hu rfl

/-- Placement writes the memory tiers alone (07 R193). -/
theorem placeBundle_loads {s u : State} {n : Nat} {bs : List Byte} {v : BundleView} {refs : List WeightRef} {maps : List Nat}
    (h : placeBundle s n bs v refs = .ok (u, maps)) : s.LoadsTo u := by
  rw [placeBundle] at h
  dsimp only at h
  split at h
  · cases h
  · split at h
    · cases h
    · cases h
      refine List.foldlRecOn _ _ (motive := s.LoadsTo) ?_ fun _ hu _ _ => LoadsTo.trans hu rfl
      refine List.foldlRecOn _ _ (motive := s.LoadsTo) ?_ fun _ hu _ _ => LoadsTo.trans hu rfl
      refine List.foldlRecOn _ _ (motive := s.LoadsTo) ?_ fun _ hu _ _ => LoadsTo.trans hu rfl
      exact List.foldlRecOn _ _ (motive := s.LoadsTo) rfl fun _ hu _ _ => LoadsTo.trans hu rfl

/-! ## BUNDLE_LOAD: its checks (07 R191) -/

/-- The CRC of the trailer is that of the bytes before it (07 R189). -/
abbrev crcOk (bs : List Byte) : Prop := crc32c (bs.take (bs.length - 112)) = dwordAt (bs.drop (bs.length - 112)) 0

/-- The kind of an image (07 R187). -/
abbrev imageKind (bs : List Byte) : Nat := bits (dwordAt bs 3) 0 2

/-- PART_SIZES of an image (07 R187). -/
abbrev imageSizes (bs : List Byte) : Nat := bits (dwordAt bs 3) 3 3

/-- The entry points at which the programs of an image of a kind are checked (06 R159). -/
abbrev checkedEntries (kind : Nat) (v : BundleView) : List Nat :=
  if kind = 2 ∧ v.postEntry ≠ 0xFFFF then [v.stepEntry, v.postEntry] else [v.stepEntry]

/-- An imago lists the release of an image as supported (07 R192). -/
def isListed (s : State) (bs : List Byte) : Bool :=
  (Config.releases s.gen.version).any fun e => decide (e.1 ≤ dwordAt bs 2 ∧ dwordAt bs 2 ≤ e.2)

/-- Every check of 07 R191 that comes before placement passes; `sched` is the schedule that the image holds. -/
structure PassesChecks (s : State) (v : BundleView) (bad : List Nat) (keys : List BundleKey) (level : Nat) (bs : List Byte)
    (sched : Schedule) : Prop where
  format : formatOk bs = true
  required : requiredOk v bs = true
  crc : crcOk bs
  signed : signatureOf keys bs = .valid ∨ (signatureOf keys bs = .absent ∧ level ≠ 2)
  major : knowsMajor (Config.releases s.gen.version) (dwordAt bs 2) = true
  codes : (v.codes.any fun k => !fmtLayoutOk k.1 k.2) = false
  tables : tablesOk bs (bit (dwordAt bs 3) 2) = true
  programs : programsBad (if imageKind bs = 2 then 3072 else 4096) (checkedEntries (imageKind bs) v) v.programs.zipIdx = none
  operators : badOperator (imageKind bs) (bit (dwordAt bs 3) 2) v = none
  acyclic : v.acyclic = true
  tensors : noDup v.tensors = true
  kv : imageKind bs = 1 → (kvRecordOf v.kv).any kvOk = true
  schedule : scheduleOf (sectionBytes bs 0x08) = some sched
  resources : resourcesOk bs (imageKind bs) (imageSizes bs) = true
  addresses : addressesOk bs v (refsOf bs) (largestShare (imageSizes bs)) = true
  prefetch : scheduleOk v (refsOf bs) (resourcesOf bs) sched = true
  refs : (refsOf bs).all (refOk s bad) = true

/-- The state with one bundle more. -/
def State.withBundleAdded (s : State) (b : Bundle) : State := { s with jobs := { s.jobs with bundles := s.jobs.bundles ++ [b] } }

section
variable {s : State} {n : Nat} {v : BundleView} {bad : List Nat} {keys : List BundleKey} {level : Nat} {bs : List Byte}

/-- What BUNDLE_LOAD can come to: a status and no bundle; or every check has passed, and the placed image is bundle `n`. -/
def LoadOutcome (s : State) (n : Nat) (v : BundleView) (bad : List Nat) (keys : List BundleKey) (level : Nat) (bs : List Byte)
    (t : State) : Prop :=
  s.LoadsTo t ∨ ∃ sched u maps res r, PassesChecks s v bad keys level bs sched ∧ s.LoadsTo u ∧
    t = (u.withBundleAdded (bundleOf n (isListed s bs) bs v sched maps)).ok r res

theorem LoadOutcome.refused (r : CmdRef) (st res : Nat) : LoadOutcome s n v bad keys level bs (s.reply r st res) :=
  .inl (reply_loads s r st res)

theorem loadBundle_outcome (hfree : lowestFree 64 (fun i => (s.bundle i).isSome) = some n) (h : HostCmd) :
    LoadOutcome s n v bad keys level bs (loadBundle h v bad keys level bs s) := by
  rw [loadBundle, hfree]
  dsimp only
  refine iteInduction (fun _ => .refused _ _ _) fun hformat => ?_
  refine iteInduction (fun _ => .refused _ _ _) fun hcrc => ?_
  refine iteInduction (fun _ => .refused _ _ _) fun hinvalid => ?_
  refine iteInduction (fun _ => .refused _ _ _) fun habsent => ?_
  refine iteInduction (fun _ => .refused _ _ _) fun hmajor => ?_
  refine iteInduction (fun _ => .refused _ _ _) fun hcodes => ?_
  refine iteInduction (fun _ => .refused _ _ _) fun htables => ?_
  split
  · exact .refused _ _ _
  rename_i hprog
  split
  · exact .refused _ _ _
  rename_i hop
  refine iteInduction (fun _ => .inl (LoadsTo.trans rfl (reply_loads s.draw.2 _ _ _))) fun hgraph => ?_
  split
  · exact .refused _ _ _
  rename_i sched hsched
  refine iteInduction (fun _ => .refused _ _ _) fun hres => ?_
  refine iteInduction (fun _ => .inl (LoadsTo.trans (suspectRefs_loads s _ _) (reply_loads _ _ _ _))) fun hrefs => ?_
  split
  · exact .refused _ _ _
  rename_i u maps hplace
  simp only [Bool.not_eq_true, Bool.or_eq_false_iff, Bool.not_eq_false', Bool.and_eq_false_imp, beq_iff_eq] at hgraph hres hrefs
  obtain ⟨⟨hacyclic, htensors⟩, hkv⟩ := hgraph
  obtain ⟨⟨hresources, haddresses⟩, hprefetch⟩ := hres
  refine .inr ⟨sched, u, maps, _, _, ?_, placeBundle_loads hplace, rfl⟩
  have hsigned : signatureOf keys bs = .valid ∨ (signatureOf keys bs = .absent ∧ level ≠ 2) := by
    cases hsig : signatureOf keys bs with
    | absent => exact .inr ⟨rfl, fun hlevel => habsent ⟨hsig, hlevel⟩⟩
    | valid => exact .inl rfl
    | invalid => exact absurd hsig hinvalid
  exact {
    format := by simpa using fun hf => hformat (.inl hf)
    required := by simpa using fun hf => hformat (.inr hf)
    crc := Decidable.of_not_not hcrc
    signed := hsigned
    major := by simpa using hmajor
    codes := by simpa using hcodes
    tables := by simpa using htables
    programs := hprog
    operators := hop
    acyclic := hacyclic
    tensors := htensors
    kv := hkv
    schedule := hsched
    resources := hresources
    addresses := haddresses
    prefetch := hprefetch
    refs := hrefs }

theorem loadBundle_badFormat (hfree : lowestFree 64 (fun i => (s.bundle i).isSome) = some n)
    (hbad : formatOk bs = false ∨ requiredOk v bs = false) (h : HostCmd) :
    loadBundle h v bad keys level bs s = s.reply h.ref 0x0501 0 := by
  rw [loadBundle, hfree]
  exact if_pos hbad

theorem loadBundle_badCrc (hfree : lowestFree 64 (fun i => (s.bundle i).isSome) = some n) (hformat : formatOk bs = true)
    (hreq : requiredOk v bs = true) (hcrc : ¬ crcOk bs) (h : HostCmd) :
    loadBundle h v bad keys level bs s = s.reply h.ref 0x0502 0 := by
  have hgood : ¬ (formatOk bs = false ∨ requiredOk v bs = false) := by simp [hformat, hreq]
  rw [loadBundle, hfree]
  exact (if_neg hgood).trans (if_pos hcrc)

/-- An image that passes every check and is placed becomes bundle `n`, and BUNDLE_LOAD says whether its release is listed. -/
theorem loadBundle_accepts (hfree : lowestFree 64 (fun i => (s.bundle i).isSome) = some n) {sched : Schedule}
    (ha : PassesChecks s v bad keys level bs sched) {u : State} {maps : List Nat}
    (hplace : placeBundle s n bs v (refsOf bs) = .ok (u, maps)) (h : HostCmd) :
    loadBundle h v bad keys level bs s =
      (u.withBundleAdded (bundleOf n (isListed s bs) bs v sched maps)).ok h.ref (n + 2 ^ 32 * b2n (isListed s bs)) := by
  have hgood : ¬ (formatOk bs = false ∨ requiredOk v bs = false) := by simp [ha.format, ha.required]
  have hinvalid : signatureOf keys bs ≠ .invalid := by obtain h | ⟨h, -⟩ := ha.signed <;> simp [h]
  have habsent : ¬ (signatureOf keys bs = .absent ∧ level = 2) := by obtain h | ⟨-, h⟩ := ha.signed <;> simp [h]
  have hgraph : ¬ (!v.acyclic || !noDup v.tensors || imageKind bs == 1 && !(kvRecordOf v.kv).any kvOk) = true := by
    simpa [ha.acyclic, ha.tensors] using ha.kv
  rw [loadBundle, hfree]
  dsimp only
  rw [if_neg hgood, if_neg (not_not_intro ha.crc), if_neg hinvalid, if_neg habsent, if_neg (by simp [ha.major]),
    if_neg (by simpa using ha.codes), if_neg (by simp [ha.tables]), ha.programs]
  dsimp only
  rw [ha.operators]
  dsimp only
  rw [if_neg hgraph, ha.schedule]
  dsimp only
  rw [if_neg (by simp [ha.resources, ha.addresses, ha.prefetch]), if_neg (by simp [ha.refs]), hplace]
  rfl

end

/-! ## The obligation -/

/-- What a begun BUNDLE_LOAD with packet `c` does to the state `s` in which it is marked. -/
def State.askLoad (s : State) (h : HostCmd) (c : Cmd) (v : BundleView) (bad : List Nat) : State :=
  if c.has 0 = false then s.reply h.ref 0x0105 0 else readBuf h c 0 (c.len 0) s (loadBundle h v bad c.keys c.level)

section
variable {s : State} {h : HostCmd} {c : Cmd} (hb : Begun s h 0x48 c)
include hb

theorem exec_bundleLoad (v : BundleView) (bad : List Nat) :
    exec (.bundleLoad h v bad) s = .next (settle ((s.mark h).askLoad h c v bad)) :=
  withCmd_of_begun hb fun c s => s.askLoad h c v bad

/-- A load whose image can be read checks it, in the state in which the command is marked. -/
theorem exec_bundleLoad_read {bs : List Byte} (hhas : c.has 0 = true) (hbuf : h.buf 0 = some bs) (hlen : bs.length = c.len 0)
    (v : BundleView) (bad : List Nat) :
    exec (.bundleLoad h v bad) s = .next (settle (loadBundle h v bad c.keys c.level bs (s.mark h))) := by
  rw [exec_bundleLoad hb, State.askLoad, if_neg (by simp [hhas]),
    readBuf_enough (Nat.le_refl _) (fun _ => hbuf) (Nat.le_of_eq hlen.symm), ← hlen, List.take_length]

end

/-- Settles O41: the checks of a load in their order, with what each outcome leaves as it is; and the frame of an unloaded bundle. -/
theorem bundleCommands : Obligations.BundleCommands := by
  intro s h c
  refine ⟨fun hb v bad => ⟨fun hnone => ?_, fun bs n hhas hbuf hlen _ hfree => ?_⟩, fun hb => ?_⟩
  · rw [exec_bundleLoad hb, State.askLoad, if_pos hnone]
  · have hfree' : lowestFree 64 (fun i => ((s.mark h).bundle i).isSome) = some n := hfree
    rw [exec_bundleLoad_read hb hhas hbuf hlen]
    refine ⟨fun hbad => ?_, fun hformat hreq hcrc => ?_, ⟨_, rfl, ?_⟩, ?_⟩
    · rw [loadBundle_badFormat hfree' hbad]
    · rw [loadBundle_badCrc hfree' hformat hreq hcrc]
    · have hout := loadBundle_outcome (v := v) (bad := bad) (keys := c.keys) (level := c.level) (bs := bs) hfree' h
      obtain ht | ⟨sched, u, maps, res, r, ha, hu, ht⟩ := hout
      · rw [ht]
        exact ⟨rfl, rfl, rfl, rfl, .inl rfl⟩
      · rw [ht, ok_replies, hu]
        refine ⟨rfl, rfl, rfl, rfl, .inr ⟨_, rfl, rfl, ?_, ha.format, ha.required, ha.crc, ?_, ?_, ha.programs, ha.refs⟩⟩
        · simpa using lowestFree_unused hfree
        · obtain hs | ⟨hs, -⟩ := ha.signed <;> simp [hs]
        · exact fun hlevel => ha.signed.resolve_right fun hs => hs.2 hlevel
    · rintro sched u maps hformat hreq hcrc hsig hmajor hcodes htables hprog hop hacyclic htensors hkv hsched hres haddr hpre hrefs
        hplace listed rfl
      have ha : PassesChecks (s.mark h) v bad c.keys c.level bs sched :=
        ⟨hformat, hreq, hcrc, hsig, hmajor, hcodes, htables, hprog, hop, hacyclic, htensors, hkv, hsched, hres, haddr, hpre, hrefs⟩
      rw [loadBundle_accepts hfree' ha hplace]
      rfl
  · rw [exec_bundleUnload hb]
    refine ⟨fun hnone => ?_, fun hsome huse => ?_, fun hsome huse => ⟨_, rfl, ?_⟩⟩
    · rw [askUnload_unknown (s := s.mark h) hnone]
    · rw [askUnload_inUse (s := s.mark h) hsome huse]
    · rw [askUnload_free (s := s.mark h) hsome huse, ok_replies, unloadBundle_frame]
      have howner (a : Alloc) := mem_withoutOwner (s := s) (o := .bundle c.handle) (a := a)
      exact ⟨bundle_withoutBundle_self s _, fun n hn => bundle_withoutBundle_other s hn, fun m => mem_maps_withoutBundle,
        fun a ha => ((howner a).mp ha).2, fun a ha hne => (howner a).mpr ⟨ha, hne⟩, rfl, rfl, rfl, rfl, rfl⟩

end Sys2Proof.Machine
end

section
/-!
JOB_START, JOB_END, JOB_PARK, JOB_ABORT and COCOON_DISCARD (07 R198-R207; 16 R474-R477): what each row does by the job that it names, what
an aborted job and a discarded cocoon leave as it is, and O42.
-/
namespace Sys2Proof.Machine

/-! ## The job of a number (07 R202) -/

section
variable {s : State} {n : Nat}

theorem jobSeq_queued {q : QueuedJob} (hq : s.jobs.queue.find? (fun q => q.number == n) = some q) : s.jobSeq n = some q.seq := by
  rw [State.jobSeq, hq]

theorem find?_number_none (hq : ∀ q ∈ s.jobs.queue, q.number ≠ n) : s.jobs.queue.find? (fun q => q.number == n) = none := by
  simpa using hq

theorem jobSeq_running {p : Nat} {r : Run} (hq : ∀ q ∈ s.jobs.queue, q.number ≠ n) (hp : s.partOfJob n = some p)
    (hr : s.run p = some r) : s.jobSeq n = some r.seq := by
  simp only [State.jobSeq, find?_number_none hq, hp, hr, Option.map_some]

end

/-! ## JOB_START (07 R198) -/

/-- The job that a JOB_START with packet `c` queues, with the grants and the bindings of its buffer. -/
def queuedJob (c : Cmd) (ref : CmdRef) (gs : List Grant) (bd : List Binding) : QueuedJob :=
  { number := bits (c.dw 4) 8 8, cmd := ref, seq := c.seq, handle := c.handle, resume := bit (c.dw 4) 24, partition := bits (c.dw 4) 0 2,
    priority := bits (c.dw 4) 16 4, shadow := bit (c.dw 4) 25, grants := gs, binds := bd }

/-- The state with one queued job more, whose queries are numbered from 0 again. -/
def State.withJobQueued (s : State) (q : QueuedJob) : State :=
  { s with
    jobs := { s.jobs with queue := s.jobs.queue ++ [q] }
    idx := { s.idx with serials := Sparse.drop s.idx.serials q.number } }

section
variable {s : State} {c : Cmd} {bs : List Byte}

theorem startJob_noBundle {e : Nat} (he : startBundle s c = .error e) (r : CmdRef) : startJob c r bs s = s.reply r e 0 := by
  rw [startJob, he]

variable {b : Bundle} (hb : startBundle s c = .ok b)
include hb

theorem startJob_numberLive (hlive : s.jobLive (bits (c.dw 4) 8 8) = true) (r : CmdRef) : startJob c r bs s = s.reply r 0x0521 0 := by
  rw [startJob, hb]
  exact if_pos hlive

variable (hnew : s.jobLive (bits (c.dw 4) 8 8) = false)
include hnew

theorem startJob_badPartition (hpart : s.numParts ≤ bits (c.dw 4) 0 2 ∨ sizeAllowed s b = false) (r : CmdRef) :
    startJob c r bs s = s.reply r 0x0522 0 := by
  rw [startJob, hb]
  exact (if_neg (by simp [hnew])).trans (if_pos hpart)

/-- A JOB_START that passes every check queues its job. -/
theorem startJob_accepts {gs : List Grant} {bd : List Binding} (hp : bits (c.dw 4) 0 2 < s.numParts) (hsize : sizeAllowed s b = true)
    (hg : bits (c.dw 5) 0 7 ≤ b.res.grants) (hn : bits (c.dw 5) 16 9 ≤ b.res.bindings)
    (hgs : records grantOf 16 (bits (c.dw 5) 0 7) bs = some gs)
    (hbd : records bindingOf 8 (bits (c.dw 5) 16 9) (bs.drop (16 * bits (c.dw 5) 0 7)) = some bd)
    (hallowed : gs.all (grantAllowed s b) = true) (hcover : grantsCover b gs = true) (hslots : noDup (bd.map (·.slot)) = true)
    (hshadow : bit (c.dw 4) 25 = true → b.hasShadow = true) (r : CmdRef) :
    startJob c r bs s = s.withJobQueued (queuedJob c r gs bd) := by
  have hpart : ¬ (s.numParts ≤ bits (c.dw 4) 0 2 ∨ sizeAllowed s b = false) := by simp [hsize, hp]
  rw [startJob, hb]
  dsimp only
  rw [if_neg (by simp [hnew]), if_neg hpart, if_neg (by omega), hgs, hbd]
  dsimp only
  rw [if_neg (by simp [hallowed, hcover, hslots]), if_neg (by simpa using hshadow)]
  rfl

end

/-- A JOB_START whose records can be read is decided by them. -/
theorem exec_jobStart {s : State} {h : HostCmd} {c : Cmd} {b0 : List Byte} (hb : Begun s h 0x60 c)
    (hlen : 16 * bits (c.dw 5) 0 7 + 8 * bits (c.dw 5) 16 9 ≤ c.len 0)
    (hbuf : bits (c.dw 5) 0 7 + bits (c.dw 5) 16 9 ≠ 0 → h.buf 0 = some b0)
    (hb0 : 16 * bits (c.dw 5) 0 7 + 8 * bits (c.dw 5) 16 9 ≤ b0.length) :
    exec (.jobStart h) s = .next (settle (startJob c h.ref (b0.take (16 * bits (c.dw 5) 0 7 + 8 * bits (c.dw 5) 16 9)) (s.mark h))) := by
  have hrow : exec (.jobStart h) s = .next (settle (readBuf h c 0 (16 * bits (c.dw 5) 0 7 + 8 * bits (c.dw 5) 16 9) (s.mark h)
      (startJob c h.ref))) :=
    withCmd_of_begun hb fun c s => readBuf h c 0 (16 * bits (c.dw 5) 0 7 + 8 * bits (c.dw 5) 16 9) s (startJob c h.ref)
  rw [hrow, readBuf_enough hlen (fun hne => hbuf (by omega)) hb0]

/-! ## JOB_END and JOB_PARK (07 R204, R205) -/

section
variable {i : Instr} {s : State} {h : HostCmd} {c : Cmd} {f : Nat → State}
  (hrow : exec i s = .next (settle (onJob c h.ref (s.mark h) f)))
include hrow

/-- The command began when no job bore its number: JOB_NOT_FOUND. -/
theorem exec_onJob_none (hnone : c.job = none) : exec i s = .next (settle ((s.mark h).reply h.ref 0x0528 0)) := by
  rw [hrow, onJob, hnone]
  rfl

/-- The job that bore the number when the command began has ended since: JOB_ALREADY_ENDED. -/
theorem exec_onJob_ended (hsome : c.job ≠ none) (hend : s.jobSeq (bits c.handle 0 8) ≠ c.job) :
    exec i s = .next (settle ((s.mark h).reply h.ref 0x052A 0)) := by
  have hend' : (s.mark h).jobSeq (bits c.handle 0 8) ≠ c.job := hend
  rw [hrow, onJob, if_neg (by simpa using hsome), if_pos hend']

/-- The job that bore the number when the command began still bears it: the row acts on it. -/
theorem exec_onJob_live (hsome : c.job ≠ none) (hlive : s.jobSeq (bits c.handle 0 8) = c.job) :
    exec i s = .next (settle (f (bits c.handle 0 8))) := by
  have hlive' : ¬ (s.mark h).jobSeq (bits c.handle 0 8) ≠ c.job := not_not_intro hlive
  rw [hrow, onJob, if_neg (by simpa using hsome), if_neg hlive']

end

/-- The job of partition `p` with one pending command more, which it has not acted on yet (07 R204). -/
theorem addPending_waits {s : State} {p : Nat} {r : Run} (hr : s.run p = some r) (park : Bool) (ref : CmdRef) :
    let t := settle (s.addPending p park ref)
    t.run p = some { r with pendings := r.pendings ++ [⟨park, ref⟩] } ∧ (∀ k, k ≠ p → t.run k = s.run k) ∧
      t.hostOut = s.hostOut ∧ t.cores = s.cores ∧ t.mem = s.mem := by
  refine ⟨?_, fun k hk => ?_, rfl, rfl, rfl⟩
  · exact (s.run_setRun p p _).trans (by rw [if_pos rfl, hr]; rfl)
  · exact (s.run_setRun p k _).trans (if_neg hk.symm)

/-- A JOB_END on the job of a number: pending, where a partition holds the job. -/
def State.pendEnd (s : State) (ref : CmdRef) (number : Nat) : State :=
  match s.partOfJob number with
  | none => s.reply ref 0x0529 0
  | some p => s.addPending p false ref

/-- A JOB_PARK on the job of a number: pending, where a partition holds the job and no other JOB_PARK is pending. -/
def State.pendPark (s : State) (ref : CmdRef) (number : Nat) : State :=
  match s.partOfJob number with
  | none => s.reply ref 0x0529 0
  | some p => match s.run p with
    | none => s
    | some r =>
      if r.state ≠ .faulted ∧ (r.parkCmd.isSome ∨ r.pendings.any (·.park)) then s.reply ref 0x052D 0
      else s.addPending p true ref

section
variable {s : State} {n : Nat} (ref : CmdRef)

theorem pendEnd_queued (h : s.partOfJob n = none) : s.pendEnd ref n = s.reply ref 0x0529 0 := by
  rw [State.pendEnd, h]

theorem pendPark_queued (h : s.partOfJob n = none) : s.pendPark ref n = s.reply ref 0x0529 0 := by
  rw [State.pendPark, h]

variable {p : Nat} (hp : s.partOfJob n = some p)
include hp

theorem pendEnd_running : s.pendEnd ref n = s.addPending p false ref := by
  rw [State.pendEnd, hp]

variable {r : Run} (hr : s.run p = some r)
include hr

theorem pendPark_running (hfirst : r.state = .faulted ∨ (r.parkCmd = none ∧ ∀ x ∈ r.pendings, x.park = false)) :
    s.pendPark ref n = s.addPending p true ref := by
  have hmay : ¬ (r.state ≠ .faulted ∧ (r.parkCmd.isSome ∨ r.pendings.any (·.park))) := by
    rintro ⟨hstate, hpark⟩
    obtain ⟨hcmd, hpend⟩ := hfirst.resolve_left hstate
    have hany : r.pendings.any (·.park) = false := by simpa using hpend
    simp [hcmd, hany] at hpark
  rw [State.pendPark, hp]
  dsimp only
  rw [hr]
  exact if_neg hmay

theorem pendPark_twice (hstate : r.state ≠ .faulted) (hpark : r.parkCmd ≠ none ∨ ∃ x ∈ r.pendings, x.park = true) :
    s.pendPark ref n = s.reply ref 0x052D 0 := by
  have hmany : r.state ≠ .faulted ∧ (r.parkCmd.isSome ∨ r.pendings.any (·.park)) :=
    ⟨hstate, hpark.imp (by simp [Option.isSome_iff_ne_none]) (by simp)⟩
  rw [State.pendPark, hp]
  dsimp only
  rw [hr]
  exact if_pos hmany

end

theorem exec_jobEnd {s : State} {h : HostCmd} {c : Cmd} (hb : Begun s h 0x61 c) :
    exec (.jobEnd h) s = .next (settle (onJob c h.ref (s.mark h) ((s.mark h).pendEnd h.ref))) :=
  withCmd_of_begun hb fun c s => onJob c h.ref s (s.pendEnd h.ref)

theorem exec_jobPark {s : State} {h : HostCmd} {c : Cmd} (hb : Begun s h 0x62 c) :
    exec (.jobPark h) s = .next (settle (onJob c h.ref (s.mark h) ((s.mark h).pendPark h.ref))) :=
  withCmd_of_begun hb fun c s => onJob c h.ref s (s.pendPark h.ref)

/-! ## JOB_ABORT (07 R204) -/

section
variable {s : State} {n : Nat} (ref : CmdRef) (reads : List HostRead)

theorem abortJob_queued {q : QueuedJob} (hq : s.jobs.queue.find? (fun q => q.number == n) = some q) :
    s.abortJob n ref reads = some ((s.dropQueued q 0x0527).ok ref 0) := by
  rw [State.abortJob, hq]

variable {p : Nat} {r : Run} (hq : ∀ q ∈ s.jobs.queue, q.number ≠ n) (hp : s.partOfJob n = some p) (hr : s.run p = some r)
include hq hp hr

theorem abortJob_faulted (hstate : r.state = .faulted) : s.abortJob n ref reads = some (s.addPending p false ref) := by
  simp only [State.abortJob, find?_number_none hq, hp, hr, if_pos hstate]

theorem abortJob_running (hstate : r.state ≠ .faulted) : s.abortJob n ref reads = some ((s.abortRun p r reads).ok ref 0) := by
  simp only [State.abortJob, find?_number_none hq, hp, hr, if_neg hstate]

end

theorem exec_jobAbort {s : State} {h : HostCmd} {c : Cmd} (hb : Begun s h 0x63 c) (reads : List HostRead) :
    exec (.jobAbort h reads) s = .next (settle (onJob c h.ref (s.mark h) fun n => ((s.mark h).abortJob n h.ref reads).getD (s.mark h))) :=
  withCmd_of_begun hb fun c s => onJob c h.ref s fun n => (s.abortJob n h.ref reads).getD s

/-- A job that is aborted, up to the stop of its cores: its sequences, its commands and its queries have ended (07 R204; 08 R237). -/
def State.abortReplies (s : State) (p : Nat) (r : Run) (reads : List HostRead) : State :=
  let s := ((s.endSeqs p endAborted reads).endSeqCmds p 0x0606 0 none).endQueries r.number false 0x0527 0 none
  let s := if r.state = .parking then s.freeOwner (.cocoon r.cocoon) else s
  replyAll (r.parkCmd.toList ++ r.pendings.map (·.cmd)) 0x0527 0 none s

theorem abortRun_eq (s : State) (p : Nat) (r : Run) (reads : List HostRead) :
    s.abortRun p r reads = (s.abortReplies p r reads).finishJob p r 0x0527 r.steps none false := rfl

theorem abortReplies_steady (s : State) (p : Nat) (r : Run) (reads : List HostRead) : (s.abortReplies p r reads).steady = s.steady := by
  simp only [State.abortReplies, replyAll_steady]
  apply ite_steady <;> simp

theorem abortRun_steady (s : State) (p : Nat) (r : Run) (reads : List HostRead) :
    (s.abortRun p r reads).steady = { s.steady with
      cores := quiesced (s.coresOf p) s.cores, flags := modifyAt s.evc.part p (PartFlags.ended r.number false) } := by
  have hkept := abortReplies_steady s p r reads
  have hcores : (s.abortReplies p r reads).cores = s.cores := congrArg Steady.cores hkept
  have hflags : (s.abortReplies p r reads).evc.part = s.evc.part := congrArg Steady.flags hkept
  have hof : (s.abortReplies p r reads).coresOf p = s.coresOf p := coresOf_layout (congrArg Steady.layout hkept) p
  rw [abortRun_eq, finishJob_steady, hkept, hcores, hflags, hof]

/-- An abort makes the cores of the job's partition idle, and leaves every other core as it is (04 R122). -/
theorem abortRun_cores (s : State) (p : Nat) (r : Run) (reads : List HostRead) :
    (s.abortRun p r reads).cores = quiesced (s.coresOf p) s.cores := by
  have hsteady := abortRun_steady s p r reads
  generalize s.abortRun p r reads = t at hsteady ⊢
  exact congrArg Steady.cores hsteady

theorem abortRun_run (s : State) (p : Nat) (r : Run) (reads : List HostRead) : (s.abortRun p r reads).run p = none := by
  rw [abortRun_eq, finishJob_run]

theorem quiesced_other {cs : List Nat} {k : Nat} (hk : k ∉ cs) (l : List Core) : (quiesced cs l).getD k {} = l.getD k {} := by
  by_cases hl : k < l.length <;> simp [quiesced, List.getD_eq_getElem?_getD, hl, hk]

/-! ## COCOON_DISCARD (07 R207) -/

/-- Cocoon `n` is gone, its board pages not yet. -/
def State.withoutCocoon (s : State) (n : Nat) : State :=
  { s with jobs := { s.jobs with cocoons := s.jobs.cocoons.filter fun k => k.handle != n } }

/-- The KV pages of cocoon `n`. -/
def State.kvOfCocoon (s : State) (n : Nat) : List Nat := (s.mem.kvMap.filter fun e => e.2 == .cocoon n).map (·.1)

/-- Cocoon `n` is gone, with its KV pages and its board pages (07 R207). -/
def State.discardCocoon (s : State) (n : Nat) : State :=
  ((s.freeKvPages (s.kvOfCocoon n)).withoutCocoon n).freeOwner (.cocoon n)

/-- What a begun COCOON_DISCARD of cocoon `n` does to the state `s` in which it is marked. -/
def State.askDiscard (s : State) (h : HostCmd) (n : Nat) : State :=
  if !(s.jobs.cocoons.any fun k => k.handle == n) then s.reply h.ref 0x052C 0
  else if (s.jobs.queue.any fun q => q.resume && q.handle == n) || s.resuming n then s.reply h.ref 0x0529 0
  else (s.discardCocoon n).ok h.ref 0

theorem exec_cocoonDiscard {s : State} {h : HostCmd} {c : Cmd} (hb : Begun s h 0x64 c) :
    exec (.cocoonDiscard h) s = .next (settle ((s.mark h).askDiscard h (bits c.handle 0 6))) :=
  withCmd_of_begun hb fun c s => s.askDiscard h (bits c.handle 0 6)

section
variable {s : State} {n : Nat}

theorem askDiscard_unknown (hnone : ∀ k ∈ s.jobs.cocoons, k.handle ≠ n) (h : HostCmd) : s.askDiscard h n = s.reply h.ref 0x052C 0 := by
  have hany : (!(s.jobs.cocoons.any fun k => k.handle == n)) = true := by simpa using hnone
  rw [State.askDiscard, if_pos hany]

variable (hsome : ∃ k ∈ s.jobs.cocoons, k.handle = n)
include hsome

theorem askDiscard_resumed (hres : (∃ q ∈ s.jobs.queue, q.resume = true ∧ q.handle = n) ∨ s.resuming n = true) (h : HostCmd) :
    s.askDiscard h n = s.reply h.ref 0x0529 0 := by
  have hany : ¬ (!(s.jobs.cocoons.any fun k => k.handle == n)) = true := by simpa using hsome
  have hheld : ((s.jobs.queue.any fun q => q.resume && q.handle == n) || s.resuming n) = true := by simpa using hres
  rw [State.askDiscard, if_neg hany, if_pos hheld]

theorem askDiscard_free (hqueue : ∀ q ∈ s.jobs.queue, q.resume = true → q.handle ≠ n) (hres : s.resuming n = false) (h : HostCmd) :
    s.askDiscard h n = (s.discardCocoon n).ok h.ref 0 := by
  have hany : ¬ (!(s.jobs.cocoons.any fun k => k.handle == n)) = true := by simpa using hsome
  have hheld : ¬ ((s.jobs.queue.any fun q => q.resume && q.handle == n) || s.resuming n) = true := by simpa [hres] using hqueue
  rw [State.askDiscard, if_neg hany, if_neg hheld]

end

/-- A cocoon discarded: its pages are wiped, and of the jobs only the cocoon goes (07 R207). -/
theorem discardCocoon_frame (s : State) (n : Nat) :
    s.discardCocoon n = { s.withoutCocoon n with mem := { (s.discardCocoon n).mem with
      allocs := (s.withoutOwner (.cocoon n)).mem.allocs } } := by
  have hwipe := freeOwner_wipes ((s.freeKvPages (s.kvOfCocoon n)).withoutCocoon n) (.cocoon n)
  have hkv := freeKvPages_wipes s (s.kvOfCocoon n)
  rw [State.discardCocoon, hwipe, hkv]
  rfl

/-! ## The obligation -/

/-- The row of JOB_END or JOB_PARK where a partition holds the job: pending until a step boundary (07 R204). -/
theorem exec_onJob_pends {i : Instr} {s : State} {h : HostCmd} {c : Cmd} {f : Nat → State} {p : Nat} {r : Run} {park : Bool}
    (hrow : exec i s = .next (settle (onJob c h.ref (s.mark h) f))) (hsome : c.job ≠ none)
    (hlive : s.jobSeq (bits c.handle 0 8) = c.job) (hr : s.run p = some r)
    (hpend : f (bits c.handle 0 8) = (s.mark h).addPending p park h.ref) :
    ∃ t, exec i s = .next t ∧ t.run p = some { r with pendings := r.pendings ++ [⟨park, h.ref⟩] } ∧
      (∀ k, k ≠ p → t.run k = s.run k) ∧ t.hostOut = s.hostOut ∧ t.cores = s.cores ∧ t.mem = s.mem := by
  refine ⟨_, exec_onJob_live hrow hsome hlive, ?_⟩
  rw [hpend]
  exact addPending_waits (s := s.mark h) hr park h.ref

/-- A running job aborted leaves its partition, whose cores are idle; every other core is as it was (07 R204; 04 R122). -/
theorem abortRun_ok_frees {s : State} (hcores : s.cores.length = 96) (p : Nat) (r : Run) (reads : List HostRead) (ref : CmdRef) :
    let t := settle ((s.abortRun p r reads).ok ref 0)
    t.run p = none ∧ (∀ k ∈ s.coresOf p, k < 96 → (t.core k).run = .idle) ∧ ∀ k, k ∉ s.coresOf p → t.core k = s.core k := by
  have hrun := abortRun_run s p r reads
  have hquiet := abortRun_cores s p r reads
  generalize s.abortRun p r reads = u at hrun hquiet ⊢
  have hreply := ok_replies u ref 0
  have hidle : (settle (u.ok ref 0)).cores = quiesced (s.coresOf p) s.cores := by
    rw [settle_cores, hreply]
    exact hquiet
  refine ⟨(run_of_repliesTo hreply p).trans hrun, fun k hk hk96 => ?_, fun k hk => ?_⟩
  · rw [State.core, hidle]
    exact quiesced_run hk (hcores ▸ hk96)
  · rw [State.core, hidle, quiesced_other hk]
    rfl

/-- A queued job aborted leaves the queue of jobs, and no partition's job changes (07 R204). -/
theorem dropQueued_ok_jobs (s : State) (q : QueuedJob) (st : Nat) (ref : CmdRef) :
    (settle ((s.dropQueued q st).ok ref 0)).jobs.queue = s.jobs.queue.erase q ∧
      (settle ((s.dropQueued q st).ok ref 0)).jobs.parts = s.jobs.parts := by
  rw [settle_jobs, ok_replies, dropQueued_closes]
  exact ⟨rfl, rfl⟩

/-- Settles O42: each row by its branches; the abort by what the end of a job leaves as it is. -/
theorem jobCommands : Obligations.JobCommands := by
  intro s h c
  refine ⟨?_, ?_, ?_, fun hb reads => ?_, fun hb => ?_⟩
  · rintro hb p n ng nb b0 bs rfl rfl rfl rfl hlen hbuf hb0 rfl
    rw [exec_jobStart hb hlen hbuf hb0]
    refine ⟨fun e he => ?_, fun b hbundle => ⟨fun hlive => ?_, fun hnew hpart => ?_, fun gs bd hnew hp hsize hg hn hgs hbd hall hcover
      hslots hshadow => ⟨_, rfl, ?_⟩⟩⟩
    · rw [startJob_noBundle (s := s.mark h) he]
    · rw [startJob_numberLive (s := s.mark h) hbundle hlive]
    · rw [startJob_badPartition (s := s.mark h) hbundle hnew hpart]
    · rw [startJob_accepts (s := s.mark h) hbundle hnew hp hsize hg hn hgs hbd hall hcover hslots hshadow]
      exact ⟨rfl, rfl, rfl, rfl, rfl⟩
  · rintro i (⟨rfl, hb⟩ | ⟨rfl, hb⟩)
    · have hrow := exec_jobEnd hb
      refine ⟨exec_onJob_none hrow, exec_onJob_ended hrow, fun hsome hlive => ⟨fun hp => ?_, fun p r hp hr _ => ?_⟩⟩
      · rw [exec_onJob_live hrow hsome hlive, pendEnd_queued (s := s.mark h) _ hp]
      · rw [decide_eq_false nofun]
        exact exec_onJob_pends hrow hsome hlive hr (pendEnd_running (s := s.mark h) _ hp)
    · have hrow := exec_jobPark hb
      refine ⟨exec_onJob_none hrow, exec_onJob_ended hrow, fun hsome hlive => ⟨fun hp => ?_, fun p r hp hr hfirst => ?_⟩⟩
      · rw [exec_onJob_live hrow hsome hlive, pendPark_queued (s := s.mark h) _ hp]
      · rw [decide_eq_true rfl]
        exact exec_onJob_pends hrow hsome hlive hr (pendPark_running (s := s.mark h) _ hp hr (hfirst.resolve_left nofun))
  · intro hb p r hsome hlive hp hr hstate hpark
    rw [exec_onJob_live (exec_jobPark hb) hsome hlive, pendPark_twice (s := s.mark h) _ hp hr hstate hpark]
  · have hrow := exec_jobAbort hb reads
    refine ⟨exec_onJob_none hrow, exec_onJob_ended hrow, fun q hjob hq => ?_, fun hq p r hsized hp hr hjob => ?_⟩
    · have hlive : s.jobSeq (bits c.handle 0 8) = c.job := (jobSeq_queued hq).trans hjob.symm
      obtain ⟨hqueue, hparts⟩ := dropQueued_ok_jobs (s.mark h) q 0x0527 h.ref
      rw [exec_onJob_live hrow (by simp [hjob]) hlive, abortJob_queued (s := s.mark h) _ _ hq, Option.getD_some]
      exact ⟨_, rfl, hqueue, hparts, rfl⟩
    · have hlive : s.jobSeq (bits c.handle 0 8) = c.job := (jobSeq_running hq hp hr).trans hjob.symm
      rw [exec_onJob_live hrow (by simp [hjob]) hlive]
      refine ⟨fun hstate => ⟨_, rfl, ?_⟩, fun hstate => ⟨_, rfl, ?_⟩⟩
      · rw [abortJob_faulted (s := s.mark h) _ _ hq hp hr hstate, Option.getD_some]
        obtain ⟨hrun, -, hout, -⟩ := addPending_waits (s := s.mark h) hr false h.ref
        exact ⟨hout, hrun⟩
      · rw [abortJob_running (s := s.mark h) _ _ hq hp hr hstate, Option.getD_some]
        exact abortRun_ok_frees (s := s.mark h) hsized.1 p r reads h.ref
  · rw [exec_cocoonDiscard hb]
    refine ⟨fun hnone => ?_, fun hsome hheld => ?_, fun hsome hqueue hres => ⟨_, rfl, ?_⟩⟩
    · rw [askDiscard_unknown (s := s.mark h) hnone]
    · rw [askDiscard_resumed (s := s.mark h) hsome hheld]
    · rw [askDiscard_free (s := s.mark h) hsome hqueue hres, ok_replies, discardCocoon_frame]
      exact ⟨rfl, fun a ha => (mem_withoutOwner.mp ha).2, rfl, rfl, rfl⟩

end Sys2Proof.Machine
end

section
/-!
SEQ_JOIN, SEQ_FEED, SEQ_LEAVE, SEQ_STEP, SEQ_QUERY and SEQ_POLICY (08 R215-R223; 16 R478-R483): the record that a row reads, what each row
does by the sequence that it names, what the fresh scale pairs of a joined sequence leave as they are, and O43.
-/
namespace Sys2Proof.Machine

/-! ## Findings and replies

SEQ_JOIN alone of these rows runs with findings of its own (10 R280). Neither a reply nor the end of a command reads them, so that a refused
SEQ_JOIN ends in the state in which the command replies. -/

section
variable (s : State) (fs : List Finding)

@[simp] theorem withFound_time : (s.withFound fs).time = s.time := rfl
@[simp] theorem withFound_q : (s.withFound fs).q = s.q := rfl
@[simp] theorem withFound_evc : (s.withFound fs).evc = s.evc := rfl
@[simp] theorem withFound_msix : (s.withFound fs).msix = s.msix := rfl
@[simp] theorem withFound_sig : (s.withFound fs).sig = s.sig := rfl
@[simp] theorem withFound_flt : (s.withFound fs).flt = s.flt := rfl
@[simp] theorem withFound_mig : (s.withFound fs).mig = s.mig := rfl
@[simp] theorem withFound_ecc : (s.withFound fs).ecc = s.ecc := rfl
@[simp] theorem withFound_wlk : (s.withFound fs).wlk = s.wlk := rfl
@[simp] theorem withFound_pwr : (s.withFound fs).pwr = s.pwr := rfl
@[simp] theorem withFound_entriesPer : (s.withFound fs).entriesPer = s.entriesPer := rfl
@[simp] theorem withFound_src (n : Nat) : (s.withFound fs).src n = s.src n := rfl
@[simp] theorem withFound_queue (k : Nat) : (s.withFound fs).queue k = s.queue k := rfl
@[simp] theorem withFound_cmd (r : CmdRef) : (s.withFound fs).cmd r = s.cmd r := rfl
@[simp] theorem withFound_inUse (k : Nat) (q : Queue) : (s.withFound fs).inUse k q = s.inUse k q := rfl
@[simp] theorem withFound_errEntry (c : Cmd) (q : Queue) (st res : Nat) (rec_ : Option Nat) :
    errEntry (s.withFound fs) c q st res rec_ = errEntry s c q st res rec_ := rfl

/-! ### The parts of a reply, with findings and without -/

theorem setQueue_withFound (k : Nat) (f : Queue → Queue) : (s.withFound fs).setQueue k f = (s.setQueue k f).withFound fs := rfl
theorem aerLog_withFound (e : AerEvent) : (s.withFound fs).aerLog e = (s.aerLog e).withFound fs := rfl
theorem logError_withFound (e : ErrEntry) : (s.withFound fs).logError e = (s.logError e).withFound fs := rfl
theorem markDrained_withFound (k : Nat) : (s.withFound fs).markDrained k = (s.markDrained k).withFound fs := rfl
theorem freeze_withFound (k i : Nat) (head : Option Nat) : (s.withFound fs).freeze k i head = (s.freeze k i head).withFound fs := rfl

theorem ite_withFound (b : Prop) [Decidable b] (t : State) :
    (if b then s.withFound fs else t.withFound fs) = (if b then s else t).withFound fs := by
  split <;> rfl

theorem commandTime_withFound (c : Cmd) : (s.withFound fs).commandTime c = (s.commandTime c).withFound fs := by
  unfold State.commandTime
  dsimp only
  repeat' split
  all_goals rfl

theorem writeReply_withFound (qid cid st res : Nat) :
    (s.withFound fs).writeReply qid cid st res = (s.writeReply qid cid st res).withFound fs := by
  rw [State.writeReply, State.writeReply, withFound_queue]
  split <;> rfl

theorem replyTo_withFound (c : Cmd) (st res : Nat) (rec_ : Option Nat) :
    (s.withFound fs).replyTo c st res rec_ = (s.replyTo c st res rec_).withFound fs := by
  unfold State.replyTo
  dsimp only
  generalize hv : State.commandTime _ c = v
  generalize hu : State.commandTime _ c = u
  have huv : v = u.withFound fs := by
    rw [← hv, ← hu]
    exact commandTime_withFound
      { s with q := { s.q with cmds := s.q.cmds.erase c }, pwr := { s.pwr with idleSince := s.time } } fs c
  rw [huv, aerLog_withFound, ite_withFound, withFound_queue]
  clear hv hu huv
  split
  · rfl
  · rw [withFound_errEntry, freeze_withFound, ite_withFound, logError_withFound, ite_withFound, writeReply_withFound,
      markDrained_withFound]

theorem reply1_withFound (r : CmdRef) (st res : Nat) (rec_ : Option Nat) :
    (s.withFound fs).reply1 r st res rec_ = (s.reply1 r st res rec_).withFound fs := by
  rw [State.reply1, State.reply1, withFound_cmd]
  split
  · rfl
  · exact replyTo_withFound _ _ _ _ _ _

theorem discardLoop_withFound (n : Nat) (p : PendingRestart) (tail : Nat) :
    discardLoop n p tail (s.withFound fs) = ((discardLoop n p tail s).1.withFound fs, (discardLoop n p tail s).2) := by
  induction n generalizing s with
  | zero => rfl
  | succ n ih =>
    rw [discardLoop, discardLoop, withFound_queue]
    split
    · rfl
    · rename_i q _
      dsimp only
      rw [withFound_inUse]
      split
      · rfl
      · split
        · rfl
        · cases p.cids.find? fun e => e.1 == q.sqHead with
          | none => dsimp only; rw [aerLog_withFound, setQueue_withFound, writeReply_withFound, ih]
          | some e => dsimp only; rw [setQueue_withFound, writeReply_withFound, ih]

theorem tryRestart_withFound (p : PendingRestart) : (s.withFound fs).tryRestart p = (s.tryRestart p).withFound fs := by
  have hloop (tail : Nat) : (if p.discard then discardLoop 65536 p tail (s.withFound fs) else (s.withFound fs, true)) =
      ((if p.discard then discardLoop 65536 p tail s else (s, true)).1.withFound fs,
        (if p.discard then discardLoop 65536 p tail s else (s, true)).2) := by
    split
    · exact discardLoop_withFound _ _ _ _ _
    · rfl
  rw [State.tryRestart, State.tryRestart, withFound_queue]
  split
  · rfl
  · dsimp only
    rw [hloop]
    split
    · split
      · exact reply1_withFound _ _ _ _ _ _
      · rfl
    · split
      · rfl
      · generalize (if p.discard = true then discardLoop 65536 p _ s else (s, true)) = x
        dsimp only
        split
        · rw [setQueue_withFound]
          split
          · exact reply1_withFound _ _ _ _ _ _
          · rfl
        · rfl

theorem restarts_withFound : (s.withFound fs).restarts = s.restarts.withFound fs := by
  have hfold (l : List PendingRestart) (u : State) :
      l.foldl State.tryRestart (u.withFound fs) = (l.foldl State.tryRestart u).withFound fs := by
    induction l generalizing u with
    | nil => rfl
    | cons p l ih => rw [List.foldl_cons, List.foldl_cons, tryRestart_withFound, ih]
  exact hfold s.q.restarts { s with q := { s.q with restarts := [] } }

theorem reply_withFound (r : CmdRef) (st res : Nat) : (s.withFound fs).reply r st res = (s.reply r st res).withFound fs := by
  simp only [State.reply, State.replyRec, reply1_withFound, withFound_cmd]
  split <;> exact restarts_withFound _ _

/-! ### The end of a command -/

@[simp] theorem withFound_cause (n : Nat) : (s.withFound fs).cause n = s.cause n := by
  simp only [State.cause, withFound_evc, withFound_q, withFound_time, withFound_flt, withFound_mig, withFound_wlk, withFound_ecc,
    withFound_pwr, withFound_sig, withFound_entriesPer]

@[simp] theorem withFound_level (n : Nat) : (s.withFound fs).level n = s.level n := by
  have hm : (s.withFound fs).sourceMoves n = s.sourceMoves n := sourceMoves_of_pwr (withFound_pwr s fs) n
  simp only [State.level, withFound_cause, withFound_evc, hm]

@[simp] theorem withFound_pendingSrc : (s.withFound fs).pendingSrc = s.pendingSrc := by
  funext n
  simp only [State.pendingSrc, withFound_level, withFound_src, withFound_evc]

@[simp] theorem withFound_pbaBits : (s.withFound fs).pbaBits = s.pbaBits := by
  simp only [State.pbaBits, State.vectorHeld, withFound_pendingSrc, withFound_src, withFound_evc, withFound_msix]
  rfl

theorem settle_withFound : settle (s.withFound fs) = (settle s).withFound fs := by
  have hpba := withFound_pbaBits { s with evc := (settle s).evc } fs
  rw [settle_evc] at hpba
  unfold settle
  simp only [withFound_evc, withFound_src, withFound_level]
  dsimp only [State.withFound] at hpba ⊢
  rw [hpba]

theorem withFound_found {s : State} {fs : List Finding} (h : s.mem.found = fs) : s.withFound fs = s := by
  rw [← h]
  rfl

/-- A command that replies and writes nothing ends as if it had no findings. -/
theorem leaves_reply (h : HostCmd) (r : CmdRef) (st res : Nat) :
    State.leaves ((s.enters h).reply r st res) s = settle ((s.mark h).reply r st res) := by
  have hfound : (settle ((s.mark h).reply r st res)).mem.found = s.mem.found := by
    rw [settle_mem, reply_replies]
    rfl
  rw [State.leaves, State.enters, reply_withFound, settle_withFound]
  exact withFound_found hfound

end

/-! ## The record (16 R478, R479) -/

theorem recSegs_take (b : List Byte) (n : Nat) (hn : 4 ≤ n) : recSegs (b.take n) = recSegs b := by
  simp [recSegs, dwordAt, List.take_take, hn]

/-- A row whose record is long enough and can be read acts on it. -/
theorem withRecord_reads {h : HostCmd} {c : Cmd} {b : List Byte} (hbuf : h.buf 0 = some b) (hb : 128 + 16 * recSegs b ≤ b.length)
    (hlen : 128 + 16 * recSegs b ≤ c.len 0) (s : State) (f : List Byte → State → State) :
    withRecord h c s f = f (b.take (128 + 16 * recSegs b)) s := by
  rw [withRecord, readBuf_enough (by omega) (fun _ => hbuf) (by omega), recSegs_take b 128 (by decide),
    readBuf_enough hlen (fun _ => hbuf) hb]

section
variable {s : State} {h : HostCmd} {c : Cmd} {b bs : List Byte} (hbuf : h.buf 0 = some b) (hbs : bs = b.take (128 + 16 * recSegs b))
  (hb : 128 + 16 * recSegs b ≤ b.length) (hlen : 128 + 16 * recSegs b ≤ c.len 0)
include hbuf hbs hb hlen

theorem exec_seqJoin (hc : Begun s h 0x68 c) :
    exec (.seqJoin h) s = .next (State.leaves (joinSeq h c bs (s.enters h)) s) := by
  have hrow : exec (.seqJoin h) s = .next (State.leaves (withRecord h c (s.enters h) (joinSeq h c)) s) := by
    have hcmd := withCmd_of_begun (s := s.withFound h.found) hc fun c s => withRecord h c s (joinSeq h c)
    change execSeqJoin h s = _
    rw [execSeqJoin, findingOut, hcmd]
    rfl
  rw [hrow, withRecord_reads hbuf hb hlen, ← hbs]

theorem exec_seqFeed (hc : Begun s h 0x69 c) :
    exec (.seqFeed h) s = .next (settle (feedSeq h c bs (s.mark h))) := by
  have hrow : exec (.seqFeed h) s = .next (settle (withRecord h c (s.mark h) (feedSeq h c))) :=
    withCmd_of_begun hc fun c s => withRecord h c s (feedSeq h c)
  rw [hrow, withRecord_reads hbuf hb hlen, ← hbs]

end

/-! ## The prompt (08 R218, R219) -/

/-- The record's prompt is `l'`: well formed, read in full, within the vocabulary, and it fits the context after `position`. -/
structure HasPrompt (h : HostCmd) (c : Cmd) (bs : List Byte) (kv : KvRecord) (position : Nat) (l' : List Seg) : Prop where
  fields : (recReserved bs && recSampling bs) = true
  read : ∃ l, segsOf c bs = some l ∧ readToks h c l = some l'
  vocab : ∀ x ∈ hostToks l', x < kv.vocab
  fits : position + (hostToks l').length < kv.contextLimit

theorem withPrompt_accepts {h : HostCmd} {c : Cmd} {bs : List Byte} {kv : KvRecord} {position : Nat} {l' : List Seg}
    (hp : HasPrompt h c bs kv position l') (s : State) (f : List Seg → State) : withPrompt h c bs kv position s f = f l' := by
  obtain ⟨l, hl, hl'⟩ := hp.read
  have hvocab : ¬ ((hostToks l').any fun t => decide (kv.vocab ≤ t)) = true := by simpa using hp.vocab
  rw [withPrompt, if_pos hp.fields, hl]
  dsimp only
  rw [hl']
  dsimp only
  rw [if_neg hvocab, if_neg (Nat.not_le.mpr hp.fits)]

/-! ## The fresh scale pairs of a joined sequence (03 R88; 10 R285) -/

theorem readGranule_data (s : State) (g : Nat) (found : List Finding) (wb : Bool) :
    (s.readGranule g found wb).2.fl.data = s.fl.data := by
  unfold State.readGranule State.readZoneGranule
  dsimp only
  repeat' split
  all_goals rfl

theorem writeGranule_data (s : State) (g off : Nat) (bs : List Byte) (found : List Finding) :
    (s.writeGranule g off bs found).fl.data = s.fl.data := by
  have hread := readGranule_data (s.dirty (g * 64 / pageBytes)) g found true
  unfold State.writeGranule
  dsimp only
  split
  · rfl
  · split <;> exact hread

theorem poke_data (s : State) (a : Nat) (bs : List Byte) : (s.poke a bs).fl.data = s.fl.data :=
  List.foldlRecOn _ _ (motive := fun u : State => u.fl.data = s.fl.data) rfl fun _ hu _ _ => (writeGranule_data _ _ _ _ _).trans hu

/-- `t` differs from `s` at most in jobs, in memory with its error counters, and in which zone blocks are suspect. -/
def State.PairsTo (s t : State) : Prop :=
  t = { s with jobs := t.jobs, mem := t.mem, ecc := t.ecc, life := t.life, fl := t.fl, evc := t.evc } ∧ t.fl.data = s.fl.data

theorem PairsTo.trans {s t u : State} (h : s.PairsTo t) (k : t.PairsTo u) : s.PairsTo u := by
  obtain ⟨h, hdata⟩ := h
  obtain ⟨k, kdata⟩ := k
  exact ⟨by rw [k, h], kdata.trans hdata⟩

theorem putPair_pairs (s : State) (p : Nat) (b : Bundle) (n t : Nat) (q : ScalePair) : s.PairsTo (s.putPair p b n t q) := by
  unfold State.putPair
  split
  · exact ⟨rfl, rfl⟩
  · exact ⟨by rw [poke_accesses]; rfl, poke_data _ _ _⟩

theorem freshPairs_pairs (s : State) (p : Nat) (b : Bundle) (n : Nat) : s.PairsTo (s.freshPairs p b n) :=
  List.foldlRecOn _ _ (motive := s.PairsTo) ⟨rfl, rfl⟩ fun _ hu _ _ => PairsTo.trans hu (putPair_pairs _ _ _ _ _ _)

/-! ## The entry that a row writes (08 R215, R219, R220) -/

/-- Entry `n` holds `e`, and the partition's arrival counter has advanced. -/
def State.withArrival (s : State) (p n : Nat) (e : SeqEntry) : State := (s.putEntry n e).nextArrival p

theorem entry_withArrival_self (s : State) (p n : Nat) (e : SeqEntry) : (s.withArrival p n e).entry n = some e :=
  Sparse.find_put_self _ _ _

theorem entry_withArrival_other (s : State) (p : Nat) {n m : Nat} (e : SeqEntry) (h : m ≠ n) :
    (s.withArrival p n e).entry m = s.entry m := Sparse.find_put_other _ _ h

/-- The fields of entry `e` that a feed with the record `bs` leaves or, with UPDATE, replaces (16 R481). -/
def SeqEntry.updated (e : SeqEntry) (bs : List Byte) : SeqEntry := if bit (dwordAt bs 0) 10 then e.withFields bs else e

/-- Entry `e` waits again, with a new prompt (08 R220). -/
def SeqEntry.fed (e : SeqEntry) (arrival : Nat) (segs : List Seg) : SeqEntry :=
  { e with
    state := .waiting, arrival := arrival, generated := 0, stop := 0, ended := false, reason := 0, segs := segs, toks := []
    pending := (hostToks segs).length }

/-- A feed changes neither whose entry it is, nor the position, nor the KV addresses. -/
theorem updated_keeps (e : SeqEntry) (bs : List Byte) :
    (e.updated bs).handle = e.handle ∧ (e.updated bs).position = e.position ∧ (e.updated bs).kv = e.kv := by
  unfold SeqEntry.updated
  split <;> exact ⟨rfl, rfl, rfl⟩

theorem updated_off (e : SeqEntry) {bs : List Byte} (hbit : bit (dwordAt bs 0) 10 = false) : e.updated bs = e :=
  if_neg (by simp [hbit])

theorem updated_on (e : SeqEntry) {bs : List Byte} (hbit : bit (dwordAt bs 0) 10 = true) : e.updated bs = e.withFields bs := if_pos hbit

/-! ## SEQ_JOIN (08 R218, R219) -/

section
variable {s : State} {h : HostCmd} {c : Cmd} {bs : List Byte}

theorem joinSeq_noJob (hjob : s.genJob c.seqPart = none) : joinSeq h c bs s = s.reply h.ref 0x0606 0 := by
  rw [joinSeq, hjob]

variable {r : Run} {kv : KvRecord} {k : Nat} (hjob : s.genJob c.seqPart = some (r, kv))
  (hfree : lowestFree s.entriesPer (fun j => (s.entry (c.seqPart * s.entriesPer + j)).isSome) = some k)
include hjob hfree

theorem joinSeq_exists (hseq : (s.seqOf c.seqPart c.handle).isSome = true) : joinSeq h c bs s = s.reply h.ref 0x0602 0 := by
  rw [joinSeq, hjob]
  dsimp only
  rw [hfree]
  exact if_pos hseq

variable (hseq : s.seqOf c.seqPart c.handle = none)
include hseq

theorem joinSeq_badRing (hring : joinRing r bs = false) : joinSeq h c bs s = s.reply h.ref 0x0609 0 := by
  rw [joinSeq, hjob]
  dsimp only
  rw [hfree]
  exact (if_neg (by simp [hseq])).trans (if_pos hring)

/-- A sequence that passes every check takes the free entry, and its scale pairs are laid before the reply. -/
theorem joinSeq_accepts (hring : joinRing r bs = true) {l' : List Seg} (hp : HasPrompt h c bs kv 0 l') :
    ∃ u res, joinSeq h c bs s = (u.callPass c.seqPart).ok h.ref res ∧
      (s.withArrival c.seqPart (c.seqPart * s.entriesPer + k)
        (newEntry c.handle (s.seqs.arrival.getD c.seqPart 0) bs l')).PairsTo u := by
  rw [joinSeq, hjob]
  dsimp only
  rw [hfree]
  dsimp only
  rw [if_neg (by simp [hseq]), if_neg (by simp [hring]), withPrompt_accepts hp]
  refine ⟨_, _, rfl, ?_⟩
  split
  · exact freshPairs_pairs _ _ _ _
  · exact ⟨rfl, rfl⟩

end

/-! ## SEQ_FEED (08 R220) -/

section
variable {s : State} {h : HostCmd} {c : Cmd} {bs : List Byte}

theorem feedSeq_noJob (hjob : s.genJob c.seqPart = none) : feedSeq h c bs s = s.reply h.ref 0x0606 0 := by
  rw [feedSeq, hjob]

variable {r : Run} {kv : KvRecord} (hjob : s.genJob c.seqPart = some (r, kv))
include hjob

theorem feedSeq_unknown (hseq : s.seqOf c.seqPart c.handle = none) : feedSeq h c bs s = s.reply h.ref 0x0603 0 := by
  rw [feedSeq, hjob]
  dsimp only
  rw [hseq]

variable {n : Nat} {e : SeqEntry} (hseq : s.seqOf c.seqPart c.handle = some (n, e))
include hseq

theorem feedSeq_leaving (hleave : e.leaving = true) : feedSeq h c bs s = s.reply h.ref 0x0603 0 := by
  rw [feedSeq, hjob]
  dsimp only
  rw [hseq]
  exact if_pos hleave

variable (hstay : e.leaving = false)
include hstay

theorem feedSeq_dropped (hstate : e.state = .dropped) : feedSeq h c bs s = s.reply h.ref 0x0608 0 := by
  rw [feedSeq, hjob]
  dsimp only
  rw [hseq]
  dsimp only
  rw [if_neg (by simp [hstay]), hstate]

theorem feedSeq_busy (hstate : e.state = .waiting ∨ e.state = .running) : feedSeq h c bs s = s.reply h.ref 0x0604 0 := by
  rw [feedSeq, hjob]
  dsimp only
  rw [hseq]
  dsimp only
  rw [if_neg (by simp [hstay])]
  obtain hstate | hstate := hstate <;> rw [hstate]

/-- An idle or parked sequence waits again with its new prompt. -/
theorem feedSeq_accepts (hstate : e.state = .idle ∨ e.state = .parked) (hgate : bit (dwordAt bs 0) 9 = false) {l' : List Seg}
    (hp : HasPrompt h c bs kv e.position l') :
    ∃ res, feedSeq h c bs s = ((s.withArrival c.seqPart n
      ((e.updated bs).fed (s.seqs.arrival.getD c.seqPart 0) l')).callPass c.seqPart).ok h.ref res := by
  rw [feedSeq, hjob]
  dsimp only
  rw [hseq]
  dsimp only
  rw [if_neg (by simp [hstay])]
  have hprompt (f : List Seg → State) :
      (if bit (dwordAt bs 0) 9 = true then s.reply h.ref 0x060A 0 else withPrompt h c bs kv e.position s f) = f l' := by
    rw [if_neg (by simp [hgate]), withPrompt_accepts hp]
  obtain hstate | hstate := hstate
  · rw [hstate]
    exact ⟨_, hprompt _⟩
  · rw [hstate]
    exact ⟨_, hprompt _⟩

end

/-! ## SEQ_LEAVE, SEQ_STEP, SEQ_QUERY and SEQ_POLICY (08 R221-R223; 16 R482, R483) -/

/-- What the row of a begun SEQ_LEAVE does to the state in which it is marked, where its sequence is entry `n`. -/
def State.leaveSeq (s : State) (ref : CmdRef) (p n : Nat) : State :=
  let s := (s.setEntry n fun e => { e with leaving := true }).callPass p
  { s with seqs := { s.seqs with leaves := s.seqs.leaves ++ [⟨ref, p, n⟩] } }

theorem entry_leaveSeq_self (s : State) (ref : CmdRef) (p n : Nat) :
    (s.leaveSeq ref p n).entry n = (s.entry n).map fun e => { e with leaving := true } :=
  Sparse.find_adjust_self s.seqs.entries n fun e => { e with leaving := true }

theorem entry_leaveSeq_other (s : State) (ref : CmdRef) (p : Nat) {n m : Nat} (h : m ≠ n) :
    (s.leaveSeq ref p n).entry m = s.entry m :=
  Sparse.find_adjust_other s.seqs.entries (fun e => { e with leaving := true }) h

/-- The policy of the next pass of partition `p` is `m`. -/
def State.withNextPolicy (s : State) (p : Nat) (m : Policy) : State :=
  { s with seqs := { s.seqs with next := modifyAt s.seqs.next p fun _ => some m } }

section
variable {s : State} {h : HostCmd} {c : Cmd} {g : Run × KvRecord} (hjob : s.genJob c.seqPart = some g)
include hjob

theorem exec_seqLeave_unknown (hc : Begun s h 0x6A c) (hseq : s.seqOf c.seqPart c.handle = none) :
    exec (.seqLeave h) s = .next (settle ((s.mark h).reply h.ref 0x0603 0)) := by
  have hjob' : (s.mark h).genJob c.seqPart = some g := hjob
  have hseq' : (s.mark h).seqOf c.seqPart c.handle = none := hseq
  change execSeqLeave h s = _
  rw [execSeqLeave, withCmd_of_begun hc]
  dsimp only
  rw [hjob', hseq']
  rfl

theorem exec_seqLeave (hc : Begun s h 0x6A c) {n : Nat} {e : SeqEntry} (hseq : s.seqOf c.seqPart c.handle = some (n, e)) :
    exec (.seqLeave h) s = .next (settle ((s.mark h).leaveSeq h.ref c.seqPart n)) := by
  have hjob' : (s.mark h).genJob c.seqPart = some g := hjob
  have hseq' : (s.mark h).seqOf c.seqPart c.handle = some (n, e) := hseq
  change execSeqLeave h s = _
  rw [execSeqLeave, withCmd_of_begun hc]
  dsimp only
  rw [hjob', hseq']
  rfl

theorem exec_seqStep (hc : Begun s h 0x6B c) :
    exec (.seqStep h) s = .next (settle (if (s.seqs.policy.getD c.seqPart {}).hostStepped then
      State.callPass { s.mark h with seqs := { s.seqs with steps := s.seqs.steps ++ [(h.ref, c.seqPart)] } } c.seqPart
      else ((s.mark h).callPass c.seqPart).ok h.ref (2 ^ 32))) := by
  have hjob' : (s.mark h).genJob c.seqPart = some g := hjob
  change execSeqStep h s = _
  rw [execSeqStep, withCmd_of_begun hc]
  dsimp only
  rw [hjob']
  rfl

theorem exec_seqQuery (hc : Begun s h 0x6C c) (hlen : 128 ≤ c.len 0) {n : Nat} {e : SeqEntry}
    (hseq : s.seqOf c.seqPart c.handle = some (n, e)) :
    exec (.seqQuery h) s = .next (settle (((s.mark h).hostData h.ref 0 (s.snapOf n e).bytes).ok h.ref
      ((s.snapOf n e).state.code + 2 ^ 8 * (s.snapOf n e).reason + 2 ^ 32 * (s.snapOf n e).position))) := by
  have hjob' : (s.mark h).genJob c.seqPart = some g := hjob
  have hseq' : (s.mark h).seqOf c.seqPart c.handle = some (n, e) := hseq
  change execSeqQuery h s = _
  rw [execSeqQuery, withCmd_of_begun hc]
  dsimp only
  rw [writeBuf, if_neg (Nat.not_lt.mpr hlen), hjob', hseq']
  rfl

end

theorem numParts_le {s : State} (h : s.gen.layout ≤ 2) : s.numParts ≤ 4 := Nat.pow_le_pow_right (by decide) h

theorem exec_seqPolicy {s : State} {h : HostCmd} {c : Cmd} (hc : Begun s h 0x6D c) :
    exec (.seqPolicy h) s = .next (settle (if s.numParts ≤ c.seqPart then (s.mark h).reply h.ref 0x0522 0
      else if bits (c.dw 5) 0 11 < 1 ∨ 1024 < bits (c.dw 5) 0 11 ∨ bits (c.dw 6) 0 17 < 1 ∨ 65536 < bits (c.dw 6) 0 17 then
        (s.mark h).reply h.ref 0x0102 0
      else (((s.mark h).withNextPolicy c.seqPart ⟨bits (c.dw 5) 0 11, bits (c.dw 6) 0 17, bit (c.dw 7) 0⟩).callPass
        c.seqPart).ok h.ref 0)) := by
  change execSeqPolicy h s = _
  rw [execSeqPolicy, withCmd_of_begun hc]
  rfl

/-! ## The obligation -/

theorem entry_of_seqs {s t : State} (h : t.seqs = s.seqs) (m : Nat) : t.entry m = s.entry m := by
  rw [State.entry, h]
  rfl

/-- A reply of SUCCESS to a row that has called the pass leaves sequences, cores, memory and flash store as the row left them. -/
theorem passed_keeps (s : State) (p : Nat) (r : CmdRef) (res : Nat) :
    let t := settle ((s.callPass p).ok r res)
    t.seqs = s.seqs ∧ t.cores = s.cores ∧ t.mem = s.mem ∧ t.fl = s.fl := by
  rw [ok_replies]
  exact ⟨rfl, rfl, rfl, rfl⟩

/-- What a join leaves where its scale pairs are laid in `u`: the sequences as written, the cores, the bytes of the flash store. -/
theorem joined_keeps {v u : State} (hu : v.PairsTo u) (s : State) (p : Nat) (r : CmdRef) (res : Nat) :
    let t := State.leaves ((u.callPass p).ok r res) s
    t.seqs = v.seqs ∧ t.cores = v.cores ∧ t.fl.data = v.fl.data := by
  obtain ⟨hframe, hdata⟩ := hu
  obtain ⟨hseqs, hcores, -, hfl⟩ := passed_keeps u p r res
  refine ⟨hseqs.trans ?_, hcores.trans ?_, (congrArg Flash.data hfl).trans hdata⟩
  · rw [hframe]
  · rw [hframe]

/-- Settles O43: each row by its branches; a join by what the scale pairs of its sequence leave as it is. -/
theorem sequenceCommands : Obligations.SequenceCommands := by
  rintro s h c p rfl
  refine ⟨?_, ?_, ?_, ?_, ?_⟩
  · rintro i hi b bs hbuf - hbs hb hlen
    refine ⟨fun hjob => ?_, ?_, ?_⟩
    · obtain ⟨rfl, hc⟩ | ⟨rfl, hc⟩ := hi
      · rw [exec_seqJoin hbuf hbs hb hlen hc, joinSeq_noJob (s := s.enters h) hjob, leaves_reply]
      · rw [exec_seqFeed hbuf hbs hb hlen hc, feedSeq_noJob (s := s.mark h) hjob]
    · rintro r kv k l l' a hjob rfl rfl hfree
      have hc : Begun s h 0x68 c := by simpa using hi
      rw [exec_seqJoin hbuf hbs hb hlen hc]
      refine ⟨fun hseq => ?_, fun hseq hring => ?_, fun hseq hring hfields hsegs htoks hvocab hfits => ⟨_, rfl, ?_⟩⟩
      · rw [joinSeq_exists (s := s.enters h) hjob hfree hseq, leaves_reply]
      · rw [joinSeq_badRing (s := s.enters h) hjob hfree hseq hring, leaves_reply]
      · have hprompt : HasPrompt h c _ kv 0 l' := ⟨hfields, ⟨l, hsegs, htoks⟩, hvocab, by omega⟩
        obtain ⟨u, res, hjoin, hu⟩ := joinSeq_accepts (s := s.enters h) hjob hfree hseq hring hprompt
        obtain ⟨hseqs, hcores, hdata⟩ := joined_keeps hu s c.seqPart h.ref res
        rw [hjoin]
        exact ⟨(entry_of_seqs hseqs _).trans (entry_withArrival_self _ _ _ _),
          fun m hm => (entry_of_seqs hseqs m).trans (entry_withArrival_other _ _ _ hm), by rw [hseqs]; rfl, hcores, hdata⟩
    · rintro r kv n e hjob rfl
      have hc : Begun s h 0x69 c := by simpa using hi
      rw [exec_seqFeed hbuf hbs hb hlen hc]
      refine ⟨fun hseq => ?_, fun hseq hleave => ?_, fun hseq hstay => ⟨fun hstate => ?_, fun hstate => ?_,
        fun l l' hstate hgate hfields hsegs htoks hvocab hfits => ?_⟩⟩
      · rw [feedSeq_unknown (s := s.mark h) hjob hseq]
      · rw [feedSeq_leaving (s := s.mark h) hjob hseq hleave]
      · rw [feedSeq_dropped (s := s.mark h) hjob hseq hstay hstate]
      · rw [feedSeq_busy (s := s.mark h) hjob hseq hstay hstate]
      · have hprompt : HasPrompt h c _ kv e.position l' := ⟨hfields, ⟨l, hsegs, htoks⟩, hvocab, hfits⟩
        obtain ⟨res, hfeed⟩ := feedSeq_accepts (s := s.mark h) hjob hseq hstay hstate hgate hprompt
        obtain ⟨hhandle, hposition, hkv⟩ := updated_keeps e bs
        obtain ⟨hseqs, hcores, hmem, -⟩ := passed_keeps ((s.mark h).withArrival c.seqPart n
          ((e.updated bs).fed (s.seqs.arrival.getD c.seqPart 0) l')) c.seqPart h.ref res
        rw [hfeed]
        refine ⟨_, _, rfl, (entry_of_seqs hseqs n).trans (entry_withArrival_self _ _ _ _), rfl, hhandle, hposition, hkv, rfl, rfl, rfl,
          fun hbit => ?_, fun hbit => ?_, fun m hm => (entry_of_seqs hseqs m).trans (entry_withArrival_other _ _ _ hm), hcores, hmem⟩
        · rw [updated_off e hbit]
          exact ⟨rfl, rfl, rfl⟩
        · rw [updated_on e hbit]
          exact ⟨rfl, rfl⟩
  · intro hc g n e hjob
    exact ⟨exec_seqLeave_unknown hjob hc, fun hseq => ⟨_, exec_seqLeave hjob hc hseq, entry_leaveSeq_self (s.mark h) _ _ _,
      fun m hm => entry_leaveSeq_other (s.mark h) _ _ hm, rfl, rfl, rfl⟩⟩
  · intro hc g hjob
    rw [exec_seqStep hjob hc]
    refine ⟨fun hhost => ⟨_, rfl, ?_⟩, fun hfree => ?_⟩
    · rw [if_pos hhost]
      exact ⟨rfl, rfl⟩
    · rw [if_neg (Bool.eq_false_iff.mp hfree)]
  · rintro hc hlen g n e x hjob hseq rfl
    exact exec_seqQuery hjob hc hlen hseq
  · rintro hc m b rfl rfl
    rw [exec_seqPolicy hc]
    refine ⟨fun hp => ?_, fun hp hrange => ?_, fun hp hm0 hm1 hb0 hb1 hnext hlayout => ⟨_, rfl, ?_⟩⟩
    · rw [if_pos hp]
    · rw [if_neg (by omega), if_pos hrange]
    · have hp4 := numParts_le hlayout
      have hlt : c.seqPart < s.seqs.next.length := by omega
      rw [if_neg (by omega), if_neg (by omega)]
      obtain ⟨hseqs, hcores, -⟩ := passed_keeps ((s.mark h).withNextPolicy c.seqPart
        ⟨bits (c.dw 5) 0 11, bits (c.dw 6) 0 17, bit (c.dw 7) 0⟩) c.seqPart h.ref 0
      rw [hseqs, hcores]
      refine ⟨?_, rfl, fun k hk => ?_, rfl⟩
      · exact (getD_modifyAt _ _ _ _ _).trans (if_pos ⟨rfl, hlt⟩)
      · exact (getD_modifyAt _ _ _ _ _).trans (if_neg fun h => hk h.1.symm)

end Sys2Proof.Machine
end

section
/-!
MEM_ALLOC, MEM_FREE, MEM_MAP_ZONE, MEM_UNMAP and MEM_QUERY (09 R250-R253; 16 R471, R472): each row as one equation, what the bytes read as
after a range of them is cleared, and O21 and O22.
-/
namespace Sys2Proof.Machine

/-! ## Sparse data without a range of its keys -/

theorem Sparse.get_filter {α : Type} [DecidableEq α] {d : α} {lo : Option Nat} {m : Sparse α} (keep : Nat → Bool)
    (h : Sparse.wfFrom d lo m = true) (i : Nat) :
    Sparse.get d (m.filter fun e => keep e.1) i = if keep i then Sparse.get d m i else d := by
  induction m generalizing lo with
  | nil => simp
  | cons e t ih =>
    obtain ⟨k, v⟩ := e
    obtain ⟨-, -, ht⟩ := Sparse.wfFrom_cons.mp h
    have htail := ih ht
    by_cases hle : i ≤ k
    · rw [Sparse.get_below ht hle, ite_self] at htail
      by_cases hik : i = k
      · subst hik
        by_cases hi : keep i <;> simp [hi, Sparse.get, htail]
      · by_cases hk : keep k <;> simp [hk, Sparse.get, hik, Nat.lt_of_le_of_ne hle hik, htail]
    · have hne : i ≠ k := by omega
      have hlt : ¬ i < k := by omega
      by_cases hk : keep k <;> simp [hk, Sparse.get, hne, hlt, htail]

theorem Sparse.get_clear {α : Type} [DecidableEq α] {d : α} {m : Sparse α} (h : Sparse.wf d m = true) (lo hi i : Nat) :
    Sparse.get d (Sparse.clear m lo hi) i = if lo ≤ i ∧ i < hi then d else Sparse.get d m i := by
  rw [Sparse.clear, Sparse.get_filter (fun k => k < lo || hi ≤ k) h]
  by_cases hin : lo ≤ i ∧ i < hi
  · rw [if_pos hin, if_neg (by simpa using hin)]
  · rw [if_neg hin, if_pos (by simp; omega)]

/-! ## MEM_ALLOC and MEM_FREE (09 R250; 16 R471) -/

/-- The state in which pages `[p, p + n)` are allocated for the host, and zeroed. -/
def State.allocHost (s : State) (p n : Nat) : State :=
  State.zeroPages { s with mem := { s.mem with allocs := s.mem.allocs ++ [⟨p, n, .host⟩] } } p n

theorem addr_of_generalRange {c : Cmd} {n : Nat} (h : generalRange c.addr n = true) : c.addr / pageBytes * pageBytes = c.addr := by
  simp only [generalRange, Bool.and_eq_true, beq_iff_eq] at h
  exact Nat.div_mul_cancel (Nat.dvd_of_mod_eq_zero h.1.2)

/-- After MEM_ALLOC its pages read as zero, and every other byte as before. -/
theorem allocHost_get {s : State} {c : Cmd} {n : Nat} (hs : s.memWf) (hrange : generalRange c.addr n = true) (a : Nat) :
    Sparse.get 0 (s.allocHost (c.addr / pageBytes) n).mem.bytes a =
      if c.addr ≤ a ∧ a < c.addr + n * pageBytes then 0 else Sparse.get 0 s.mem.bytes a := by
  have hget := Sparse.get_clear hs (c.addr / pageBytes * pageBytes) ((c.addr / pageBytes + n) * pageBytes) a
  rw [Nat.add_mul, addr_of_generalRange hrange] at hget
  refine Eq.trans ?_ hget
  rw [State.allocHost, State.zeroPages, Nat.add_mul, addr_of_generalRange hrange]

section
variable {s : State} {h : HostCmd} {c : Cmd}

theorem exec_memAlloc (hb : Begun s h 0x40 c) : exec (.memAlloc h) s = .next (settle (
    if generalRange c.addr (c.dw 6) = false ∨ s.mem.allocs.any (fun a => decide (0 < heldPages (c.addr / pageBytes) (c.dw 6) a)) = true
    then (s.mark h).reply h.ref 0x0402 0
    else if s.boardFree < c.dw 6 then (s.mark h).reply h.ref 0x0401 0
    else ((s.mark h).allocHost (c.addr / pageBytes) (c.dw 6)).ok h.ref 0)) := by
  change execMemAlloc h s = _
  rw [execMemAlloc, withCmd_of_begun hb]
  rfl

theorem exec_memFree (hb : Begun s h 0x41 c) : exec (.memFree h) s = .next (settle (
    if generalRange c.addr (c.dw 6) = false then (s.mark h).reply h.ref 0x0402 0
    else if s.pagesInUse (c.addr / pageBytes) (c.dw 6) = true then (s.mark h).reply h.ref 0x0404 0
    else if s.mem.allocs.foldl (fun k a => k + heldPages (c.addr / pageBytes) (c.dw 6) a) 0 < c.dw 6
    then (s.mark h).reply h.ref 0x0403 0
    else ((s.mark h).freePages (c.addr / pageBytes) (c.dw 6)).ok h.ref 0)) := by
  change execMemFree h s = _
  rw [execMemFree, withCmd_of_begun hb]
  rfl

theorem exec_memAlloc_refused (hb : Begun s h 0x40 c)
    (hbad : generalRange c.addr (c.dw 6) = false ∨ ∃ a ∈ s.mem.allocs, 0 < heldPages (c.addr / pageBytes) (c.dw 6) a) :
    exec (.memAlloc h) s = .next (settle ((s.mark h).reply h.ref 0x0402 0)) := by
  rw [exec_memAlloc hb, if_pos (by simpa using hbad)]

theorem exec_memAlloc_full (hb : Begun s h 0x40 c) (hrange : generalRange c.addr (c.dw 6) = true)
    (hclear : ∀ a ∈ s.mem.allocs, heldPages (c.addr / pageBytes) (c.dw 6) a = 0) (hfew : s.boardFree < c.dw 6) :
    exec (.memAlloc h) s = .next (settle ((s.mark h).reply h.ref 0x0401 0)) := by
  rw [exec_memAlloc hb, if_neg (by simpa [hrange] using hclear), if_pos hfew]

theorem exec_memAlloc_accepted (hb : Begun s h 0x40 c) (hrange : generalRange c.addr (c.dw 6) = true)
    (hclear : ∀ a ∈ s.mem.allocs, heldPages (c.addr / pageBytes) (c.dw 6) a = 0) (henough : c.dw 6 ≤ s.boardFree) :
    exec (.memAlloc h) s = .next (settle (((s.mark h).allocHost (c.addr / pageBytes) (c.dw 6)).ok h.ref 0)) := by
  rw [exec_memAlloc hb, if_neg (by simpa [hrange] using hclear), if_neg (Nat.not_lt.mpr henough)]

end

/-! ## MEM_MAP_ZONE, MEM_UNMAP and MEM_QUERY (09 R251-R253; 16 R471, R472) -/

section
variable {s : State} {h : HostCmd} {c : Cmd}

/-- A MEM_MAP_ZONE whose ranges are in order and meet no mapping, where mapping `i` is the lowest that is free. -/
theorem exec_memMapZone (hb : Begun s h 0x42 c) (hrange : flashRange c.addr (c.dw 6) = true) (hlba : c.qw 7 % 512 = 0)
    (hend : c.qw 7 + 512 * c.dw 6 ≤ numZones * zoneBlocks)
    (hclear : ∀ m ∈ s.mem.maps, overlap (c.addr / pageBytes) (c.addr / pageBytes + c.dw 6) m.2.page (m.2.page + m.2.pages) = false)
    {i : Nat} (hfree : lowestFree 4096 (fun i => (Sparse.find s.mem.maps i).isSome) = some i) :
    exec (.memMapZone h) s = .next (settle (if mapBlocks s (c.qw 7) (512 * c.dw 6) = false then (s.mark h).reply h.ref 0x0405 0
      else ({ (s.mark h) with mem := { s.mem with
        maps := Sparse.put s.mem.maps i ⟨c.addr / pageBytes, c.dw 6, c.qw 7, none⟩ } } : State).ok h.ref i)) := by
  have hok : ¬ (flashRange c.addr (c.dw 6) = false ∨ c.qw 7 % 512 ≠ 0 ∨ numZones * zoneBlocks < c.qw 7 + 512 * c.dw 6 ∨
      (s.mark h).mem.maps.any (fun m =>
        overlap (c.addr / pageBytes) (c.addr / pageBytes + c.dw 6) m.2.page (m.2.page + m.2.pages)) = true) := by
    simpa [hrange, hlba, hend] using hclear
  have hfree' : lowestFree 4096 (fun i => (Sparse.find (s.mark h).mem.maps i).isSome) = some i := hfree
  change execMemMapZone h s = _
  rw [execMemMapZone, withCmd_of_begun hb]
  dsimp only
  rw [if_neg hok, hfree']
  rfl

theorem exec_memUnmap_unmapped (hb : Begun s h 0x43 c) (hnone : Sparse.find s.mem.maps (bits c.handle 0 12) = none) :
    exec (.memUnmap h) s = .next (settle ((s.mark h).reply h.ref 0x0403 0)) := by
  have hnone' : Sparse.find (s.mark h).mem.maps (bits c.handle 0 12) = none := hnone
  change execMemUnmap h s = _
  rw [execMemUnmap, withCmd_of_begun hb]
  dsimp only
  rw [hnone']
  rfl

theorem exec_memUnmap_mapped (hb : Begun s h 0x43 c) {m : Mapping} (hmap : Sparse.find s.mem.maps (bits c.handle 0 12) = some m) :
    exec (.memUnmap h) s = .next (settle (if mapInUse s (bits c.handle 0 12) m = true then (s.mark h).reply h.ref 0x0404 0
      else ((s.mark h).unmap (bits c.handle 0 12) m).ok h.ref 0)) := by
  have hmap' : Sparse.find (s.mark h).mem.maps (bits c.handle 0 12) = some m := hmap
  change execMemUnmap h s = _
  rw [execMemUnmap, withCmd_of_begun hb]
  dsimp only
  rw [hmap']
  rfl

theorem exec_memQuery (hb : Begun s h 0x44 c) (hlen : 4 * bits (c.dw 6) 0 17 ≤ c.len 0) (hcount : bits (c.dw 6) 0 17 ≤ 65536)
    (hrange : generalRange c.addr (bits (c.dw 6) 0 17) = true ∨ flashRange c.addr (bits (c.dw 6) 0 17) = true) :
    exec (.memQuery h) s = .next (settle (((s.mark h).hostData h.ref 0 ((List.range (bits (c.dw 6) 0 17)).flatMap fun i =>
      leBytes 4 (pageState s (c.addr / pageBytes + i)))).ok h.ref (bits (c.dw 6) 0 17))) := by
  have hok : ¬ (65536 < bits (c.dw 6) 0 17 ∨
      (!generalRange c.addr (bits (c.dw 6) 0 17) && !flashRange c.addr (bits (c.dw 6) 0 17)) = true) := by
    rintro (hbig | hbad)
    · omega
    · simp only [Bool.and_eq_true, Bool.not_eq_true'] at hbad
      obtain ⟨hgen, hflash⟩ := hbad
      simp [hgen, hflash] at hrange
  change execMemQuery h s = _
  rw [execMemQuery, withCmd_of_begun hb]
  dsimp only
  rw [writeBuf, if_neg (Nat.not_lt.mpr hlen), if_neg hok]
  rfl

end

/-! ## The obligations -/

/-- Settles O21: each branch of the two rows, and the bytes after the pages are cleared. -/
theorem allocationCommands : Obligations.AllocationCommands := by
  intro s h c hs
  refine ⟨fun hb => ⟨fun hbad => exec_memAlloc_refused hb (.inl hbad), fun _ hheld => exec_memAlloc_refused hb (.inr hheld),
    fun hrange hclear => ⟨exec_memAlloc_full hb hrange hclear, fun henough => ?_⟩⟩, fun hb hbad => ?_,
    fun hb hrange => ⟨fun huse hheld => ?_, fun huse => ?_, fun huse hheld => ?_⟩⟩
  · refine ⟨_, exec_memAlloc_accepted hb hrange hclear henough, ?_⟩
    rw [settle_mem, ok_replies]
    exact ⟨rfl, allocHost_get (s := s.mark h) hs hrange⟩
  · rw [exec_memFree hb, if_pos hbad]
  · rw [exec_memFree hb, if_neg (by simp [hrange]), if_neg (by simp [huse]), if_pos hheld]
  · rw [exec_memFree hb, if_neg (by simp [hrange]), if_pos huse]
  · rw [exec_memFree hb, if_neg (by simp [hrange]), if_neg (by simp [huse]), if_neg (Nat.not_lt.mpr hheld)]

/-- Settles O22: each branch of the three rows. -/
theorem mappingCommands : Obligations.MappingCommands := by
  intro s h c
  refine ⟨fun hb hrange hlba hend hclear i hfree => ⟨fun hblocks => ?_, fun hblocks => ?_⟩,
    fun hb => ⟨exec_memUnmap_unmapped hb, fun m hmap => ⟨fun huse => ?_, fun huse => ?_⟩⟩, ?_⟩
  · rw [exec_memMapZone hb hrange hlba hend hclear hfree, if_pos hblocks]
  · rw [exec_memMapZone hb hrange hlba hend hclear hfree, if_neg (by simp [hblocks])]
  · rw [exec_memUnmap_mapped hb hmap, if_pos huse]
  · rw [exec_memUnmap_mapped hb hmap, if_neg (by simp [huse])]
  · rintro hb n rfl hcount hlen hrange
    exact exec_memQuery hb hlen hcount hrange

end Sys2Proof.Machine
end

section
/-!
BAR2_READ and BAR2_WRITE (09 R244; 10 R281, R282; 17 R507; 19 R556): when an access waits, what a read of sound granules returns and
leaves as it is, what a write of whole granules stores, and O20.
-/
namespace Sys2Proof.Machine

/-! ## Activity (19 R552-R556) -/

theorem activity_mem (s : State) : s.activity.mem = s.mem := by rw [activity_powers s]
theorem activity_mig (s : State) : s.activity.mig = s.mig := by rw [activity_powers s]
theorem activity_cores (s : State) : s.activity.cores = s.cores := by rw [activity_powers s]

/-- Without an entry under way, activity begins an exit from PS2 or PS3 (19 R554). -/
theorem activity_pwr {s : State} (hent : s.pwr.entering = none) :
    s.activity.pwr = { s.pwr with idleSince := s.time, exiting := decide (2 ≤ s.pwr.ps) || s.pwr.exiting } := by
  by_cases hps : 2 ≤ s.pwr.ps
  · have hpos : 0 < s.pwr.ps := by omega
    simp [State.activity, State.wake, hent, hps, hpos]
  · simp [State.activity, State.wake, hent, hps]

/-- Requests that memory holds are held whether or not they are activity: the exit that it begins comes first (19 R556). -/
theorem activity_holdsRequests (s : State) : s.activity.holdsRequests = s.holdsRequests := by
  cases hent : s.pwr.entering with
  | none => cases hps : decide (2 ≤ s.pwr.ps) <;> simp [State.holdsRequests, activity_pwr hent, hent, hps]
  | some e => by_cases htarget : 2 ≤ e.target <;> simp [State.activity, State.wake, State.holdsRequests, hent, htarget]

theorem activity_bar2Stuck (s : State) (h : HeldBar2) : s.activity.bar2Stuck h = s.bar2Stuck h := by
  rw [State.bar2Stuck, activity_holdsRequests, activity_powers s]
  rfl

/-! ## Accesses that arrive (09 R244) -/

theorem bar2Arrive_waits {s : State} {h : HeldBar2} (hwait : s.mem.bar2Held ≠ [] ∨ s.bar2Stuck h = true) :
    s.bar2Arrive h = { s with mem := { s.mem with bar2Held := s.mem.bar2Held ++ [h] } } := by
  refine if_neg fun ⟨hempty, hfree⟩ => ?_
  rcases hwait with hheld | hstuck
  · exact hheld hempty
  · exact Bool.false_ne_true (hfree.symm.trans hstuck)

/-- An access that waits stands behind those that wait, and brings the wake that it waits for. -/
theorem activity_bar2Arrive_waits {s : State} {h : HeldBar2} (hwait : s.mem.bar2Held ≠ [] ∨ s.bar2Stuck h = true) :
    let t := settle (s.activity.bar2Arrive h)
    t.mem = { s.mem with bar2Held := s.mem.bar2Held ++ [h] } ∧ t.mig = s.mig ∧ t.cores = s.cores ∧
      (s.pwr.entering = none → 2 ≤ s.pwr.ps → t.pwr.exiting = true) := by
  rw [bar2Arrive_waits (by rwa [activity_mem, activity_bar2Stuck])]
  refine ⟨by rw [settle_mem, activity_mem], activity_mig s, activity_cores s, fun hent hps => ?_⟩
  rw [settle_pwr, activity_pwr hent]
  simp [hps]

theorem activity_bar2Arrive_passes {s : State} {h : HeldBar2} (hempty : s.mem.bar2Held = []) (hfree : s.bar2Stuck h = false) :
    s.activity.bar2Arrive h = s.activity.bar2Access h :=
  if_pos ⟨by rw [activity_mem, hempty], by rw [activity_bar2Stuck, hfree]⟩

section
variable {s : State} {off : Nat}

theorem exec_bar2Read_misfit {n : Nat} (hmis : bar2Fits off n = false) (found : List Finding) :
    exec (.bar2Read off n found) s = .next (settle s) := if_pos hmis

theorem exec_bar2Read {n : Nat} (hfits : bar2Fits off n = true) (found : List Finding) :
    exec (.bar2Read off n found) s =
      .next (settle (s.activity.bar2Arrive ⟨s.bar2Addr off, s.aperture (s.bar2Addr off), n, none, found⟩)) :=
  if_neg (by simp [hfits])

theorem exec_bar2Write {bs : List Byte} (hfits : bar2Fits off bs.length = true) (found : List Finding) :
    exec (.bar2Write off bs found) s =
      .next (settle (s.activity.bar2Arrive ⟨s.bar2Addr off, s.aperture (s.bar2Addr off), bs.length, some bs, found⟩)) :=
  if_neg (by simp [hfits])

end

/-! ## Reads of sound granules (10 R280; 13 R376) -/

/-- A read of granule `g` finds neither an error nor poison. -/
def State.soundAt (s : State) (g : Nat) (found : List Finding) : Prop :=
  if s.fromZone g then blockLost g found = false ∧ ∀ b, s.blockOf (g * 64) = some b → s.wordBad b = false
  else s.decode g found = .clean

theorem activity_soundAt (s : State) (g : Nat) (found : List Finding) : s.activity.soundAt g found ↔ s.soundAt g found := by
  rw [activity_powers s]
  rfl

theorem activity_devBytes (s : State) (a n : Nat) : s.activity.devBytes a n = s.devBytes a n := by
  rw [activity_powers s]
  rfl

/-- A block that a read has not lost is not lost at its first granule either. -/
theorem found_none_of_blockLost {g : Nat} {found : List Finding} (h : blockLost g found = false) :
    (found.any fun f => f.ue && f.granule == g) = false := by
  simp only [blockLost, List.any_eq_false, Bool.and_eq_true, beq_iff_eq, not_and] at h ⊢
  exact fun f hf hue hg => h f hf hue (by rw [hg])

theorem readGranule_sound {s : State} {g : Nat} {found : List Finding} (h : s.soundAt g found) (wb : Bool) :
    s.readGranule g found wb = ((s.devBytes (g * 64) 64, false), s) := by
  rw [State.soundAt] at h
  rw [State.readGranule]
  split at h
  · rename_i hzone
    obtain ⟨hlost, hword⟩ := h
    rw [if_pos hzone, State.readZoneGranule, found_none_of_blockLost hlost, hlost]
    cases hblock : s.blockOf (g * 64) with
    | none => rfl
    | some b => simp [hword b hblock]
  · rename_i hzone
    rw [if_neg hzone]
    dsimp only
    rw [h]

@[simp] theorem length_devBytes (s : State) (a n : Nat) : (s.devBytes a n).length = n := by simp [State.devBytes]

theorem devBytes_add (s : State) (a m n : Nat) : s.devBytes a (m + n) = s.devBytes a m ++ s.devBytes (a + m) n := by
  simp [State.devBytes, List.range_add, Nat.add_assoc, Function.comp_def]

theorem drop_take_devBytes (s : State) (a m : Nat) {k n : Nat} (h : k + n ≤ m) :
    ((s.devBytes a m).drop k).take n = s.devBytes (a + k) n := by
  obtain ⟨r, rfl⟩ := Nat.exists_eq_add_of_le h
  rw [devBytes_add, devBytes_add, List.append_assoc, List.drop_left' (length_devBytes s a k), List.take_left' (length_devBytes s (a + k) n)]

theorem readRun_sound {s : State} {found : List Finding} (wb : Bool) (n g : Nat)
    (h : ∀ k, g ≤ k → k < g + n → s.soundAt k found) :
    readRun n g found wb s = ((s.devBytes (g * 64) (n * 64), List.replicate n false), s) := by
  induction n generalizing g with
  | zero => simp [readRun, State.devBytes]
  | succ n ih =>
    have hfirst := readGranule_sound (h g (Nat.le_refl _) (by omega)) wb
    have hrest := ih (g + 1) fun k hlo hhi => h k (by omega) (by omega)
    rw [readRun, hfirst]
    dsimp only
    rw [hrest, Nat.add_mul n, Nat.add_comm (n * 64), devBytes_add, Nat.add_mul g]
    rfl

/-- A read of sound granules returns their bytes and leaves the state as it is. -/
theorem devRead_sound {s : State} {a n : Nat} {found : List Finding} (hn : 1 ≤ n)
    (h : ∀ g, a / 64 ≤ g → g ≤ (a + n - 1) / 64 → s.soundAt g found) : s.devRead a n found = ((s.devBytes a n, false), s) := by
  have hrun := readRun_sound (s := s) (found := found) false ((a + n - 1) / 64 - a / 64 + 1) (a / 64) fun g hlo hhi => h g hlo (by omega)
  have hcut := drop_take_devBytes s (a / 64 * 64) (((a + n - 1) / 64 - a / 64 + 1) * 64) (k := a % 64) (n := n) (by omega)
  rw [State.devRead]
  dsimp only
  rw [if_neg (by omega), hrun]
  dsimp only
  rw [hcut, Nat.div_add_mod']
  simp

/-! ## Writes (10 R285) -/

theorem readGranule_allocs (s : State) (g : Nat) (found : List Finding) (wb : Bool) :
    (s.readGranule g found wb).2.mem.allocs = s.mem.allocs := by
  unfold State.readGranule State.readZoneGranule
  dsimp only
  repeat' split
  all_goals rfl

theorem writeGranule_allocs (s : State) (g off : Nat) (bs : List Byte) (found : List Finding) :
    (s.writeGranule g off bs found).mem.allocs = s.mem.allocs := by
  have hread := readGranule_allocs (s.dirty (g * 64 / pageBytes)) g found true
  unfold State.writeGranule
  dsimp only
  split
  · rfl
  · split <;> exact hread

theorem devWrite_allocs (s : State) (a : Nat) (bs : List Byte) (found : List Finding) :
    (s.devWrite a bs found).mem.allocs = s.mem.allocs :=
  List.foldlRecOn _ _ (motive := fun u : State => u.mem.allocs = s.mem.allocs) rfl fun _ hu _ _ =>
    (writeGranule_allocs _ _ _ _ _).trans hu

theorem writeGranule_whole (s : State) (g : Nat) {bs : List Byte} (h : bs.length = 64) (found : List Finding) :
    (s.writeGranule g 0 bs found).mem.bytes = Sparse.setList 0 s.mem.bytes (g * 64) bs := by
  rw [State.writeGranule, if_pos ⟨rfl, h⟩]
  rfl

theorem Sparse.setList_append {α : Type} [DecidableEq α] (d : α) (m : Sparse α) (i : Nat) (vs ws : List α) :
    Sparse.setList d m i (vs ++ ws) = Sparse.setList d (Sparse.setList d m i vs) (i + vs.length) ws := by
  induction vs generalizing m i with
  | nil => rfl
  | cons v vs ih => rw [List.cons_append, Sparse.setList, ih, Sparse.setList, List.length_cons, Nat.add_assoc, Nat.add_comm 1]

/-- The granules of an aligned write store its bytes in order. -/
theorem foldl_cuts_aligned (found : List Finding) (n a : Nat) (bs : List Byte) (s : State) (ha : a % 64 = 0)
    (hwhole : bs.length % 64 = 0) (hfuel : bs.length ≤ n * 64) :
    ((cuts n a bs).foldl (fun s c => s.writeGranule c.1 c.2.1 c.2.2 found) s).mem.bytes = Sparse.setList 0 s.mem.bytes a bs := by
  induction n generalizing a bs s with
  | zero =>
    obtain rfl : bs = [] := List.length_eq_zero_iff.mp (by omega)
    rfl
  | succ n ih =>
    by_cases hempty : bs = []
    · subst hempty
      rfl
    · have hpos : 0 < bs.length := List.length_pos_iff.mpr hempty
      have htake : (bs.take 64).length = 64 := by rw [List.length_take]; omega
      have hat : a / 64 * 64 = a := by omega
      have hfirst := writeGranule_whole s (a / 64) htake found
      have hrest := ih (a + 64) (bs.drop 64) (s.writeGranule (a / 64) 0 (bs.take 64) found) (by omega)
        (by rw [List.length_drop]; omega) (by rw [List.length_drop]; omega)
      have happ := Sparse.setList_append 0 s.mem.bytes a (bs.take 64) (bs.drop 64)
      rw [List.take_append_drop, htake] at happ
      rw [cuts, if_neg (by simpa using hempty), ha]
      rw [hat] at hfirst
      rw [happ, ← hfirst]
      exact hrest

/-- A write of whole granules stores its bytes, and only those. -/
theorem devWrite_whole {s : State} {a : Nat} {bs : List Byte} (ha : a % 64 = 0) (hwhole : bs.length % 64 = 0) (found : List Finding) :
    (s.devWrite a bs found).mem.bytes = Sparse.setList 0 s.mem.bytes a bs :=
  foldl_cuts_aligned found _ a bs s ha hwhole (by omega)

/-! ## Accesses that pass (09 R244; 10 R282) -/

theorem activity_served (s : State) (a : Nat) : s.activity.served a = s.served a := by
  rw [activity_powers s]
  rfl

theorem activity_writable (s : State) (a : Nat) :
    (s.activity.allocated a && !s.activity.inRegion a) = (s.allocated a && !s.inRegion a) := by
  rw [activity_powers s]
  rfl

/-- An access that is dropped is counted, and raises its event (09 R244, R276). -/
theorem bar2Drop_counts (s : State) : s.bar2Drop.mig.bar2Drop = sat64 (s.mig.bar2Drop + 1) ∧ bit s.bar2Drop.mig.evt 12 = true :=
  ⟨rfl, bit_setBit _ _⟩

theorem activity_bar2Drop (s : State) : s.activity.bar2Drop.mig = s.bar2Drop.mig := by
  rw [activity_powers s]
  rfl

section
variable {s : State} {off : Nat} {win : Option Aperture} {found : List Finding} (hwin : s.aperture (s.bar2Addr off) = win)
  (hempty : s.mem.bar2Held = [])
include hwin hempty

theorem exec_bar2Read_passes {n : Nat} (hfits : bar2Fits off n = true)
    (hfree : s.bar2Stuck ⟨s.bar2Addr off, win, n, none, found⟩ = false) :
    exec (.bar2Read off n found) s = .next (settle (s.activity.bar2Read (s.bar2Addr off) win n found)) := by
  rw [exec_bar2Read hfits, hwin, activity_bar2Arrive_passes hempty hfree]
  rfl

theorem exec_bar2Write_passes {bs : List Byte} (hfits : bar2Fits off bs.length = true)
    (hfree : s.bar2Stuck ⟨s.bar2Addr off, win, bs.length, some bs, found⟩ = false) :
    exec (.bar2Write off bs found) s = .next (settle (s.activity.bar2Write (s.bar2Addr off) win bs found)) := by
  rw [exec_bar2Write hfits, hwin, activity_bar2Arrive_passes hempty hfree]
  rfl

end

section
variable {s u : State} {a n : Nat} {bs : List Byte} {bad : Bool} {found : List Finding}

theorem bar2Read_served (hserved : s.served a = true) (hread : s.devRead a n found = ((bs, bad), u)) :
    s.bar2Read a none n found =
      { (if bad then u.aerLog .poisoned else u) with mem := { u.mem with completion := some ⟨bs, bad⟩ } } := by
  rw [State.bar2Read, if_pos hserved, hread]
  cases bad <;> rfl

theorem bar2Read_dropped (hserved : s.served a = false) :
    (s.bar2Read a none n found).mem = { s.mem with completion := some ⟨List.replicate n 0xFF, false⟩ } ∧
      (s.bar2Read a none n found).mig = s.bar2Drop.mig := by
  rw [State.bar2Read, if_neg (by simp [hserved])]
  exact ⟨rfl, rfl⟩

theorem bar2Write_stores (hok : (s.allocated a && !s.inRegion a) = true) : s.bar2Write a none bs found = s.devWrite a bs found :=
  if_pos hok

theorem bar2Write_dropped (hbad : (s.allocated a && !s.inRegion a) = false) : s.bar2Write a none bs found = s.bar2Drop :=
  if_neg (Bool.eq_false_iff.mp hbad)

end

/-! ## The obligation -/

/-- Settles O20: an access waits or passes; a read that passes by `devRead_sound`, a write by `devWrite_whole`. -/
theorem bar2Accesses : Obligations.Bar2Accesses := by
  intro s off a ha hs
  obtain rfl : a = s.bar2Addr off := ha
  refine ⟨fun n found hmis => exec_bar2Read_misfit hmis found, ?_, fun hempty => ⟨?_, ?_, ?_, ?_, ?_, ?_⟩⟩
  · rintro n bytes found i h hfits hi rfl hwait
    obtain ⟨rfl, rfl⟩ | ⟨bs, rfl, rfl, rfl⟩ := hi
    · exact ⟨_, exec_bar2Read hfits found, activity_bar2Arrive_waits hwait⟩
    · exact ⟨_, exec_bar2Write hfits found, activity_bar2Arrive_waits hwait⟩
  · exact fun n found w hfits hwin hfree => exec_bar2Read_passes hwin hempty hfits hfree
  · exact fun bs found w hfits hwin hfree => exec_bar2Write_passes hwin hempty hfits hfree
  · intro n found bs bad u hfits hwin hfree hserved hread
    refine ⟨?_, fun hsound => ?_⟩
    · rw [exec_bar2Read_passes hwin hempty hfits hfree, bar2Read_served ((activity_served s _).trans hserved) hread.symm]
    · have hn : 1 ≤ n := (of_decide_eq_true hfits).1
      have hclean := devRead_sound (s := s.activity) hn fun g hlo hhi => (activity_soundAt s g found).mpr (hsound g hlo hhi)
      rw [activity_devBytes, ← hread] at hclean
      simp only [Prod.mk.injEq] at hclean
      obtain ⟨⟨rfl, rfl⟩, rfl⟩ := hclean
      exact ⟨rfl, rfl, activity_mem s, activity_mig s⟩
  · intro n found hfits hwin hfree hserved
    obtain ⟨hmem, hmig⟩ := bar2Read_dropped (n := n) (found := found) ((activity_served s _).trans hserved)
    refine ⟨_, exec_bar2Read_passes hwin hempty hfits hfree, ?_⟩
    rw [settle_mem, settle_mig, hmem, hmig, activity_mem, activity_bar2Drop]
    exact ⟨rfl, bar2Drop_counts s⟩
  · rintro bs found u hfits hwin hfree hok rfl
    have hframe := devWrite_accesses s.activity (s.bar2Addr off) bs found
    refine ⟨?_, ?_, ?_, ?_, fun haligned hwhole => ?_⟩
    · rw [exec_bar2Write_passes hwin hempty hfits hfree, bar2Write_stores ((activity_writable s _).trans hok)]
    · rw [devWrite_allocs, activity_mem]
    · rw [hframe, ← activity_mig s]
    · rw [hframe, ← activity_cores s]
    · rw [devWrite_whole haligned hwhole, activity_mem]
      exact ⟨fun i hi => Sparse.get_setList_inside bs hi hs, fun x hx => Sparse.get_setList_outside bs hx hs⟩
  · intro bs found hfits hwin hfree hbad
    refine ⟨_, exec_bar2Write_passes hwin hempty hfits hfree, ?_⟩
    rw [settle_mem, settle_mig, bar2Write_dropped ((activity_writable s _).trans hbad), activity_bar2Drop]
    exact ⟨activity_mem s, bar2Drop_counts s⟩

end Sys2Proof.Machine
end

section
/-!
Range scrubs, the background scrubber and the sweep of module-reserved memory (10 R283, R288-R293): how many scrubs run, what the scrub of
a granule can change, each command as one equation, and O23.
-/
namespace Sys2Proof.Machine

/-! ## Range scrubs (10 R288-R291) -/

/-- Waiting scrubs start in the free ones of four places. -/
theorem countP_runScrubs (l : List Scrub) (n : Nat) :
    (runScrubs l n).countP (·.running) ≤ l.countP (·.running) + (4 - n) := by
  induction l generalizing n with
  | nil => simp [runScrubs]
  | cons c t ih =>
    rw [runScrubs]
    split
    · next hrun =>
      have := ih n
      simp only [List.countP_cons, hrun, if_true]
      omega
    · split
      · next hwait hfree =>
        have := ih (n + 1)
        simp only [List.countP_cons, if_true]
        omega
      · next hwait hfull =>
        have := ih n
        simp only [List.countP_cons, hwait]
        omega

section
variable {s : State} {h : HostCmd} {c : Cmd}

/-- A MEM_SCRUB of a range in one window, with room for its record where it wants one. -/
theorem exec_memScrub {unit : Nat} (hb : Begun s h 0x45 c) (hcount : 1 ≤ c.dw 6) (halign : c.addr % unit = 0)
    (hrange : (unit = pageBytes ∧
        (c.addr + c.dw 6 * pageBytes ≤ kvBase ∨ flashBase ≤ c.addr ∧ c.addr + c.dw 6 * pageBytes ≤ 2 ^ 48)) ∨
      (unit = 65536 ∧ kvBase ≤ c.addr ∧ c.addr + c.dw 6 * 65536 ≤ kvEnd))
    (hroom : c.has 0 = true → 32 ≤ c.len 0) :
    exec (.memScrub h) s = .next (settle ((({ (s.mark h) with ecc := { s.ecc with scrubs := s.ecc.scrubs ++
      [{ cmd := h.ref, addr := c.addr, pages := c.dw 6, unit := unit, repair := bit (c.dw 7) 0, running := false,
         record := c.has 0 }] } } : State).startScrubs).wake 1)) := by
  have hbuf : (c.has 0 && decide (c.len 0 < 32)) = false := by
    by_cases hrec : c.has 0 = true
    · simpa [hrec] using hroom hrec
    · simp [hrec]
  change execMemScrub h s = _
  rw [execMemScrub, withCmd_of_begun hb]
  dsimp only
  rw [hbuf, if_neg Bool.false_ne_true]
  rcases hrange with ⟨rfl, hin⟩ | ⟨rfl, hlow, hhigh⟩
  · have hkv : ¬ (kvBase ≤ c.addr ∧ c.addr < kvEnd) := by
      simp only [pageBytes, kvBase, kvEnd, flashBase] at hin ⊢
      omega
    rw [decide_eq_false hkv, if_neg Bool.false_ne_true, if_neg]
    · rfl
    · simp only [hcount, halign, decide_true, beq_self_eq_true, Bool.and_true, Bool.true_and, Bool.false_and, Bool.or_false,
        Bool.not_eq_true', Bool.not_eq_false, Bool.or_eq_true, Bool.and_eq_true, decide_eq_true_eq]
      exact hin
  · have hkv : kvBase ≤ c.addr ∧ c.addr < kvEnd := ⟨hlow, by omega⟩
    rw [decide_eq_true hkv, if_pos rfl, if_neg]
    · rfl
    · simp only [hcount, halign, hhigh, decide_true, beq_self_eq_true, Bool.and_true, Bool.true_or, Bool.or_true, Bool.not_true,
        Bool.false_eq_true, not_false_eq_true]

theorem exec_scrubComplete {qid cid : Nat} {sc : Scrub} {found : List Finding} {k : ScrubCount} {u : State}
    (hsc : s.ecc.scrubs.find? (fun c => c.cmd == ⟨qid, cid⟩ && c.running) = some sc)
    (hread : scrubRange s sc (scrubSize s sc + 1) found = (k, u)) :
    exec (.scrubComplete qid cid found) s = .next (settle ((if sc.record then
      (u.endScrub sc.cmd).hostData sc.cmd 0 (scrubRecord k) else u.endScrub sc.cmd).ok sc.cmd
        (sat32 k.corrected + 2 ^ 32 * sat32 (k.bad + k.poisoned)))) := by
  change execScrubComplete qid cid found s = _
  rw [execScrubComplete, hsc]
  dsimp only
  rw [hread]
  rfl

end

/-! ## What the scrub of a granule can change (10 R288, R298) -/

/-- `t` differs from `s` at most in bytes, poison and check symbols, and in the counters and events of errors. -/
abbrev State.ScrubsTo (s t : State) : Prop :=
  t = { s with
    mem := { s.mem with bytes := t.mem.bytes, poison := t.mem.poison, check := t.mem.check }
    ecc := { s.ecc with ce := t.ecc.ce, ue := t.ecc.ue, lastUe := t.ecc.lastUe, evt := t.ecc.evt }
    life := { s.life with eccCe := t.life.eccCe, eccUe := t.life.eccUe } }

theorem ScrubsTo.trans {s t u : State} (h : s.ScrubsTo t) (k : t.ScrubsTo u) : s.ScrubsTo u := by
  rw [State.ScrubsTo] at h k ⊢
  rw [k, h]

theorem scrubGranule_scrubs (repair : Bool) (found : List Finding) (a : ScrubCount × State) (key : Nat) :
    a.2.ScrubsTo (scrubGranule repair found a key).2 := by
  unfold scrubGranule
  dsimp only
  repeat' split
  all_goals rfl

theorem foldl_scrubGranule_scrubs (repair : Bool) (found : List Finding) (l : List Nat) (a : ScrubCount × State) :
    a.2.ScrubsTo (l.foldl (scrubGranule repair found) a).2 := by
  induction l generalizing a with
  | nil => rfl
  | cons key l ih => exact ScrubsTo.trans (scrubGranule_scrubs repair found a key) (ih _)

/-! ## The background scrubber (10 R292, R293) -/

/-- The walk depends on which frames are allocated, not on what they hold. -/
theorem scbWalk_of_scrubsTo {s t : State} (h : s.ScrubsTo t) : scbWalk t = scbWalk s := by
  rw [h]; rfl

theorem exec_backgroundScrubFrame_idle {s : State}
    (h : s.ecc.scbEn = false ∨ (s.ecc.scrubs.any (·.running)) = true ∨ 2 ≤ s.pwr.ps ∨ scbNext s = none) (found : List Finding) :
    exec (.backgroundScrubFrame found) s = .next (settle s) := by
  change execBackgroundScrubFrame found s = _
  unfold execBackgroundScrubFrame
  split
  · rfl
  · next hgo =>
    have hnone : scbNext s = none := by
      rcases h with h | h | h | h
      · exact absurd (.inl h) hgo
      · exact absurd (.inr (.inl h)) hgo
      · exact absurd (.inr (.inr h)) hgo
      · exact h
    rw [hnone]
    rfl

/-- The state in which the scrubber begins its next frame: the walk that ended before, where it did not count yet, counts (10 R292). -/
def State.scbBegin (s : State) (again : Bool) : State := if again && !s.ecc.scbWalked then s.scbPass else s

/-- The state in which the scrubber stands at a frame whose granules it has read with counts `k`. -/
def State.scbStand (s : State) (at_ : Nat × Nat) (k : ScrubCount) (last : Bool) : State :=
  { s with ecc := { s.ecc with
    scbAt := some at_, scbWalked := last, scbCe := sat64 (s.ecc.scbCe + k.corrected), scbUe := sat64 (s.ecc.scbUe + k.bad) } }

theorem scbBegin_passes (s : State) (again : Bool) : (s.scbBegin again).ecc.scbPasses =
    if again && !s.ecc.scbWalked then sat64 (s.ecc.scbPasses + 1) else s.ecc.scbPasses := by
  unfold State.scbBegin
  split <;> rfl

/-- To begin a frame touches the ECC block only. -/
theorem scbBegin_frame (s : State) (again : Bool) : s.scbBegin again = { s with ecc := (s.scbBegin again).ecc } := by
  unfold State.scbBegin
  split <;> rfl

/-- The scrubber reads a frame: the scrub of its granules counts `k` and leaves `u`, in which the scrubber stands at the frame. -/
theorem exec_backgroundScrubFrame {s : State} {tier a n pl : Nat} {again last : Bool} (hen : s.ecc.scbEn = true)
    (hrange : (s.ecc.scrubs.any (·.running)) = false) (hps : s.pwr.ps < 2) (hnext : scbNext s = some ((tier, a, n, pl), again))
    (hlast : last = !((scbWalk s).any (scbPast (some (tier, a))))) (found : List Finding) :
    ∃ k u, (s.scbBegin again).ScrubsTo u ∧ exec (.backgroundScrubFrame found) s =
      .next (settle (if last then (u.scbStand (tier, a) k last).scbPass else u.scbStand (tier, a) k last)) := by
  have hgo : ¬ (s.ecc.scbEn = false ∨ (s.ecc.scrubs.any (·.running)) = true ∨ 2 ≤ s.pwr.ps) := by
    simp [hen, hrange, hps]
  have hscrub := foldl_scrubGranule_scrubs true found (suspects (s.scbBegin again) pl a n found) ({}, s.scbBegin again)
  have hwalk : scbWalk (s.scbBegin again) = scbWalk s := by rw [scbBegin_frame]; rfl
  refine ⟨((suspects (s.scbBegin again) pl a n found).foldl (scrubGranule true found) ({}, s.scbBegin again)).1, _, hscrub, ?_⟩
  rw [hlast, ← hwalk, ← scbWalk_of_scrubsTo hscrub]
  change execBackgroundScrubFrame found s = _
  rw [execBackgroundScrubFrame, if_neg hgo, hnext]
  rfl

/-! ## Module-reserved memory (10 R283) -/

theorem readReserved_corrected {k : Nat} (hk : 0 < k) (hle : k ≤ reservedStrength) (s : State) (ps : List Nat) :
    readReserved s (k, ps) = s.countCe 4 := by
  rw [readReserved, if_neg (Nat.ne_of_gt hk), if_pos hle]

/-- The state in which a granule of module-reserved memory beyond correction is counted, and the partitions that it describes await its
rebuilding. -/
def State.loseReserved (s : State) (ps : List Nat) : State :=
  let u := s.draw.2.countUe 4 s.draw.1 0
  { u with mem := { u.mem with reservedBad := u.mem.reservedBad ++ ps } }

theorem readReserved_lost {k : Nat} (hk : reservedStrength < k) (s : State) (ps : List Nat) :
    readReserved s (k, ps) = ps.foldl (fun s p => s.latch (.job p) { status := 0x0F02 }) (s.loseReserved ps) := by
  rw [readReserved, if_neg (Nat.ne_of_gt (Nat.zero_lt_of_lt hk)), if_neg (Nat.not_le.mpr hk)]
  rfl

/-- What earlier sweeps found is rebuilt. -/
def State.rebuilt (s : State) : State := { s with mem := { s.mem with reservedBad := [] } }

theorem exec_reservedMemorySweep_one (s : State) (e : Nat × List Nat) :
    exec (.reservedMemorySweep [] [e]) s = .next (settle (readReserved s.rebuilt e)) := rfl

/-- A fault latched for a job that is not faulted yet: it becomes FAULTED, its detection waits, and memory stays. -/
theorem latch_job_faults {s : State} {p : Nat} {r : Run} (info : FaultInfo) (h : s.run p = some r) (hr : r.state ≠ .faulted) :
    (s.latch (.job p) info).mem = s.mem ∧ (s.latch (.job p) info).run p = some { r with state := .faulted } ∧
      ⟨s.flt.nextRecord, .job p, r.number, info, s.time, 0⟩ ∈ (s.latch (.job p) info).flt.detections := by
  refine ⟨by rw [latch_frame], ?_, ?_⟩
  · rw [latch_job info h hr, State.run_setRun, if_pos rfl, wake_frame]
    exact congrArg (Option.map _) h
  · rw [latch_job info h hr, State.setRun_flt, wake_frame]
    exact List.mem_append_right _ (List.mem_singleton_self _)

/-! ## The obligation -/

/-- Settles O23: each command's equation; the scrub of a frame's granules keeps the walk and all that O23 reads. -/
theorem scrubs : Obligations.Scrubs := by
  intro s
  refine ⟨fun h c unit hb hcount halign hrange hroom => exec_memScrub hb hcount halign hrange hroom, ?_,
    fun qid cid sc found k u hsc hread => exec_scrubComplete hsc hread, fun found h => exec_backgroundScrubFrame_idle h found,
    fun found tier a n pl again one last hen hrange hps hnext hlast hone => ?_, fun k ps hk hle => ?_,
    fun p r k hsized hrun hstate hk => ?_⟩
  · rw [← List.countP_eq_length_filter, ← List.countP_eq_length_filter]
    have := countP_runScrubs s.ecc.scrubs (s.ecc.scrubs.countP (·.running))
    omega
  · obtain ⟨k, u, hscrub, hexec⟩ := exec_backgroundScrubFrame hen hrange hps hnext hlast found
    have hpasses : u.ecc.scbPasses = one := by
      rw [hscrub, hone]
      exact scbBegin_passes s again
    have hkept : u.cores = s.cores ∧ u.jobs = s.jobs ∧ u.mem.allocs = s.mem.allocs := by
      rw [hscrub, scbBegin_frame]
      exact ⟨rfl, rfl, rfl⟩
    refine ⟨_, hexec, ?_⟩
    cases last
    · exact ⟨rfl, rfl, hpasses, hkept⟩
    · exact ⟨rfl, rfl, congrArg (fun n => sat64 (n + 1)) hpasses, hkept⟩
  · rw [exec_reservedMemorySweep_one, readReserved_corrected hk hle, State.rebuilt]
  · have hlost : (s.rebuilt.loseReserved [p]).run p = some r := hrun
    have hexec : exec (.reservedMemorySweep [] [(k, [p])]) s =
        .next (settle ((s.rebuilt.loseReserved [p]).latch (.job p) { status := 0x0F02 })) := by
      rw [exec_reservedMemorySweep_one, readReserved_lost hk, List.foldl_cons, List.foldl_nil]
    obtain ⟨hmem, hfaulted, hdet⟩ := latch_job_faults { status := 0x0F02 } hlost hstate
    exact ⟨_, _, hexec, congrArg Mem.reservedBad hmem, (congrArg Mem.bytes hmem).trans rfl, hfaulted, rfl, _, hdet, rfl, rfl, rfl⟩

end Sys2Proof.Machine
end

section
/-!
Checker test mode (10 R294-R299; 19 R552): when a test command acts, what planted granules and read ones leave, and O24.
-/
namespace Sys2Proof.Machine

/-! ## When a test command acts (10 R295, R299) -/

theorem activity_ecc (s : State) : s.activity.ecc = s.ecc := by rw [activity_powers s]

theorem testError_activity (s : State) : testError s.activity = testError s := by
  rw [activity_powers s]; rfl

theorem testError_protected {s : State} (h : s.gen.pl ≠ 0) : testError s = 1 := if_pos h

/-- The target of a command that may act is a whole number of granules (10 R295). -/
theorem target_aligned {s : State} (h : testError s = 0) : s.ecc.target % 64 = 0 := by
  refine Decidable.byContradiction fun hbad => ?_
  unfold testError at h
  dsimp only at h
  split at h
  · cases h
  · split at h
    · cases h
    · rw [if_pos (.inr (.inr hbad))] at h
      cases h

/-- The granules of the target, each with its entry of the buffers. -/
def Ecc.granules (e : Ecc) : List (Nat × Nat) := (List.range e.count).map fun i => (i, e.target / 64 + i)

theorem testCommand_acts {s : State} (h : testError s = 0) (f : List (Nat × Nat) → State → State) :
    testCommand s f = .next (settle (((f s.ecc.granules s).testFlags 2).eccEvt 14)) := by
  rw [testCommand, h]; rfl

theorem testCommand_refused {s : State} (h : testError s ≠ 0) (f : List (Nat × Nat) → State → State) :
    testCommand s f = .next (settle (s.testFlags (4 * testError s))) := by
  unfold testCommand
  split
  · next h0 => exact absurd h0 h
  · rfl

/-- A test command on the state that its activity leaves. -/
theorem testCommand_activity_refused {s : State} (h : testError s ≠ 0) (f : List (Nat × Nat) → State → State) :
    testCommand s.activity f = .next (settle (s.activity.testFlags (4 * testError s))) := by
  rw [testCommand_refused (by rwa [testError_activity]), testError_activity]

theorem testCommand_activity_acts {s : State} (h : testError s = 0) (f : List (Nat × Nat) → State → State) :
    testCommand s.activity f = .next (settle (((f s.ecc.granules s.activity).testFlags 2).eccEvt 14)) := by
  rw [testCommand_acts (by rwa [testError_activity]), activity_ecc]

/-- ECC_TEST_RESULT takes the flags and keeps its counts (10 R299). -/
theorem testFlags_result (s : State) {v : Nat} (hv : v < 2 ^ 16) : bits (s.testFlags v).ecc.testResult 0 16 = v ∧
    bits (s.testFlags v).ecc.testResult 16 32 = bits s.ecc.testResult 16 32 := by
  simp only [State.testFlags, bits]
  omega

theorem exec_readRaw (s : State) : exec .readRaw s = testCommand s.activity fun gs s =>
    gs.foldl (fun (t : State) (g : Nat × Nat) => readRaw t g.1 g.2) s := rfl

theorem exec_readChecked (found : List Finding) (s : State) : exec (.readChecked found) s = testCommand s.activity fun gs s =>
    gs.foldl (fun (t : State) (g : Nat × Nat) => readChecked found t g.1 g.2) { s with ecc := { s.ecc with testResult := 0 } } := rfl

/-! ## Consecutive values of a sparse map -/

theorem Sparse.length_getList {α : Type} (d : α) (m : Sparse α) (i n : Nat) : (Sparse.getList d m i n).length = n := by
  simp [Sparse.getList]

theorem Sparse.getD_getList {α : Type} (d : α) (m : Sparse α) (i : Nat) {j n : Nat} (h : j < n) :
    (Sparse.getList d m i n).getD j d = Sparse.get d m (i + j) := by
  simp [Sparse.getList, List.getD_eq_getElem?_getD, h]

theorem Sparse.getList_add {α : Type} (d : α) (m : Sparse α) (i a b : Nat) :
    Sparse.getList d m i (a + b) = Sparse.getList d m i a ++ Sparse.getList d m (i + a) b := by
  simp [Sparse.getList, List.range_add, Nat.add_assoc]

/-! ## WRITE_RAW (10 R294) -/

/-- Granule `g.2` planted with entry `g.1` of the buffers. -/
def plantEntry (s : State) (g : Nat × Nat) : State :=
  writeRaw s g.2 (Sparse.getList 0 s.ecc.testData (64 * g.1) 64) (Sparse.getList 0 s.ecc.testCheck (8 * g.1) 8)

theorem exec_writeRaw (s : State) : exec .writeRaw s = testCommand s.activity fun gs s => gs.foldl plantEntry s := rfl

/-- `t` differs from `s` at most in the memories that WRITE_RAW plants, and in the list of what it wrote. -/
abbrev State.PlantsTo (s t : State) : Prop :=
  t = { s with mem := t.mem, cores := t.cores, ecc := { s.ecc with rawWritten := t.ecc.rawWritten } }

theorem PlantsTo.trans {s t u : State} (h : s.PlantsTo t) (k : t.PlantsTo u) : s.PlantsTo u := by
  rw [State.PlantsTo] at h k ⊢
  rw [k, h]

theorem plantEntry_plants (s : State) (g : Nat × Nat) : s.PlantsTo (plantEntry s g) := by
  unfold plantEntry writeRaw
  dsimp only
  split
  · rfl
  · split
    · rw [State.storeGranule, State.cleanKey, State.storeBytes]
    · rw [State.setCore]

theorem foldl_plantEntry_plants (l : List (Nat × Nat)) (s : State) : s.PlantsTo (l.foldl plantEntry s) := by
  induction l generalizing s with
  | nil => rfl
  | cons g l ih => exact PlantsTo.trans (plantEntry_plants s g) (ih _)

theorem activity_plants_keeps {s t : State} (h : s.activity.PlantsTo t) : t.jobs = s.jobs ∧ t.fl = s.fl := by
  rw [h, activity_powers s]
  exact ⟨rfl, rfl⟩

/-- On the board tier an entry's bytes are stored, and no core changes. -/
theorem plantEntry_board {s : State} (h : s.ecc.tier = 4) (g : Nat × Nat) :
    (plantEntry s g).mem.bytes = Sparse.setList 0 s.mem.bytes (64 * g.2) (Sparse.getList 0 s.ecc.testData (64 * g.1) 64) ∧
      (plantEntry s g).cores = s.cores := by
  have hraw : ¬ s.ecc.tier < 4 := by omega
  rw [Nat.mul_comm 64 g.2, plantEntry, writeRaw]
  dsimp only
  rw [if_neg hraw, if_pos h]
  exact ⟨rfl, rfl⟩

/-- The first `n` entries planted from board granule `k` on are one write of the data buffer's first `64 * n` bytes. -/
theorem foldl_plantEntry_board {s : State} (h : s.ecc.tier = 4) (k n : Nat) :
    let u := ((List.range n).map fun i => (i, k + i)).foldl plantEntry s
    u.mem.bytes = Sparse.setList 0 s.mem.bytes (64 * k) (Sparse.getList 0 s.ecc.testData 0 (64 * n)) ∧ u.cores = s.cores := by
  induction n with
  | zero => exact ⟨rfl, rfl⟩
  | succ n ih =>
    obtain ⟨hbytes, hcores⟩ := ih
    have hplants := foldl_plantEntry_plants ((List.range n).map fun i => (i, k + i)) s
    rw [List.range_succ, List.map_append, List.foldl_append]
    generalize ((List.range n).map fun i => (i, k + i)).foldl plantEntry s = u at hbytes hcores hplants
    have hecc : u.ecc.tier = s.ecc.tier ∧ u.ecc.testData = s.ecc.testData := by rw [hplants]; exact ⟨rfl, rfl⟩
    obtain ⟨hnext, hsame⟩ := plantEntry_board (hecc.1.trans h) (n, k + n)
    refine ⟨hnext.trans ?_, hsame.trans hcores⟩
    rw [hbytes, hecc.2, Nat.mul_succ, Sparse.getList_add, Sparse.setList_append, Sparse.length_getList, Nat.mul_add, Nat.zero_add]

/-! ## READ_RAW and READ_CHECKED (10 R294) -/

/-- `t` differs from `s` in the ECC block at most, and keeps the target and the tier of the test commands. -/
abbrev State.TestsTo (s t : State) : Prop :=
  t = { s with ecc := { s.ecc with
    testData := t.ecc.testData, testCheck := t.ecc.testCheck, testResult := t.ecc.testResult, evt := t.ecc.evt } }

theorem TestsTo.trans {s t u : State} (h : s.TestsTo t) (k : t.TestsTo u) : s.TestsTo u := by
  rw [State.TestsTo] at h k ⊢
  rw [k, h]

theorem foldl_tests {α : Type} {f : State → α → State} (hf : ∀ (s : State) a, s.TestsTo (f s a)) (l : List α) (s : State) :
    s.TestsTo (l.foldl f s) := by
  induction l generalizing s with
  | nil => rfl
  | cons a l ih => exact TestsTo.trans (hf s a) (ih _)

theorem foldl_readRaw_tests (l : List (Nat × Nat)) (s : State) :
    s.TestsTo (l.foldl (fun (t : State) (g : Nat × Nat) => readRaw t g.1 g.2) s) := foldl_tests (fun _ _ => rfl) l s

theorem testEvents_tests (s : State) (ce ue : Bool) : s.TestsTo (s.testEvents ce ue) := by
  unfold State.testEvents
  dsimp only
  repeat' split
  all_goals rfl

theorem readChecked_tests (found : List Finding) (s : State) (i g : Nat) : s.TestsTo (readChecked found s i g) :=
  TestsTo.trans (t := s.testEntry i (checkedRead s g found).1) rfl (TestsTo.trans (testEvents_tests _ _ _) rfl)

theorem foldl_readChecked_tests (found : List Finding) (l : List (Nat × Nat)) (s : State) :
    s.TestsTo (l.foldl (fun (t : State) (g : Nat × Nat) => readChecked found t g.1 g.2) s) := by
  refine foldl_tests (fun s g => ?_) l s
  exact readChecked_tests found s g.1 g.2

/-- The state in which READ_CHECKED begins to count (10 R299). -/
def State.countsCleared (s : State) : State := { s with ecc := { s.ecc with testResult := 0 } }

theorem countsCleared_tests (s : State) : s.TestsTo s.countsCleared := rfl

theorem activity_tests_keeps {s t : State} (h : s.activity.TestsTo t) :
    t.jobs = s.jobs ∧ t.fl = s.fl ∧ t.cores = s.cores ∧ t.mem = s.mem := by
  rw [h, activity_powers s]
  exact ⟨rfl, rfl, rfl, rfl⟩

theorem rawData_of_testsTo {s t : State} (h : s.TestsTo t) (g : Nat) : rawData t g = rawData s g := by
  rw [h]; rfl

theorem rawData_activity (s : State) (g : Nat) : rawData s.activity g = rawData s g := by
  rw [activity_powers s]; rfl

theorem length_rawData (s : State) (g : Nat) : (rawData s g).length = 64 := by
  unfold rawData
  dsimp only
  repeat' split
  · exact Sparse.length_getList _ _ _ _
  · exact length_devBytes _ _ _
  · simp [spadBytes]

/-- The first `n` entries read from granule `k` on hold the granules' bytes. -/
theorem foldl_readRaw_data {s : State} (h : Memory.wf 0 s.ecc.testData = true) (k n : Nat) :
    let u := ((List.range n).map fun i => (i, k + i)).foldl (fun (t : State) (g : Nat × Nat) => readRaw t g.1 g.2) s
    Memory.wf 0 u.ecc.testData = true ∧
      ∀ i j, i < n → j < 64 → Sparse.get 0 u.ecc.testData (64 * i + j) = (rawData s (k + i)).getD j 0 := by
  induction n with
  | zero => exact ⟨h, fun i j hi => absurd hi (Nat.not_lt_zero i)⟩
  | succ n ih =>
    obtain ⟨hwf, hread⟩ := ih
    have htests := foldl_readRaw_tests ((List.range n).map fun i => (i, k + i)) s
    rw [List.range_succ, List.map_append, List.foldl_append]
    generalize ((List.range n).map fun i => (i, k + i)).foldl (fun (t : State) (g : Nat × Nat) => readRaw t g.1 g.2) s = u
      at hwf hread htests
    have hnext : (readRaw u n (k + n)).ecc.testData = Sparse.setList 0 u.ecc.testData (64 * n) (rawData s (k + n)) := by
      rw [← rawData_of_testsTo htests]; rfl
    change Memory.wf 0 (readRaw u n (k + n)).ecc.testData = true ∧ ∀ i j, i < n + 1 → j < 64 →
      Sparse.get 0 (readRaw u n (k + n)).ecc.testData (64 * i + j) = _
    rw [hnext]
    refine ⟨Sparse.wf_setList _ _ hwf, fun i j hi hj => ?_⟩
    rcases Nat.lt_succ_iff_lt_or_eq.mp hi with hlt | rfl
    · rw [Sparse.get_setList_outside _ (.inl (by omega)) hwf, hread i j hlt hj]
    · exact Sparse.get_setList_inside _ (by rwa [length_rawData]) hwf

/-! ## The end of test mode (10 R296) -/

theorem bit_clearBits_one (x : Nat) : bit (clearBits x 1) 0 = false := by
  simp only [bit, clearBits, Nat.and_one_is_mod, Nat.testBit_zero, decide_eq_false_iff_not]
  omega

/-! ## The obligation -/

/-- Settles O24: a command that may not act is refused by `testCommand`; the others fold their granules over the state. -/
theorem checkerTestMode : Obligations.CheckerTestMode := by
  intro s gs hgs
  have hgranules : gs = s.ecc.granules := hgs
  refine ⟨testError_protected, fun herr => ⟨(exec_writeRaw s).trans (testCommand_activity_refused herr _),
    (exec_readRaw s).trans (testCommand_activity_refused herr _),
    fun found => (exec_readChecked found s).trans (testCommand_activity_refused herr _)⟩, fun v hv => testFlags_result s hv,
    fun hok u hu => ?_, fun hok u hu => ?_, fun hok found u hu => ?_, rfl, bit_clearBits_one _, rfl, rfl, rfl, rfl⟩
  · obtain ⟨hjobs, hfl⟩ := activity_plants_keeps (hu ▸ foldl_plantEntry_plants gs s.activity)
    refine ⟨?_, hjobs, hfl, fun htier hwf => ?_⟩
    · rw [exec_writeRaw, testCommand_activity_acts hok, ← hgranules, hu]
      rfl
    · have hboard := foldl_plantEntry_board (s := s.activity) (by rwa [activity_ecc]) (s.ecc.target / 64) s.ecc.count
      rw [activity_mem, activity_ecc, activity_cores, Nat.mul_div_cancel' (Nat.dvd_of_mod_eq_zero (target_aligned hok)), ← hgs] at hboard
      obtain ⟨hbytes, hcores⟩ : u.mem.bytes = _ ∧ u.cores = _ := hu ▸ hboard
      rw [hbytes]
      refine ⟨hcores, fun a ha => Sparse.get_setList_outside _ (by rwa [Sparse.length_getList]) hwf, fun i hi => ?_⟩
      rw [Sparse.get_setList_inside _ (by rwa [Sparse.length_getList]) hwf, Sparse.getD_getList _ _ _ hi, Nat.zero_add]
  · obtain ⟨hjobs, hfl, hcores, hmem⟩ := activity_tests_keeps (hu ▸ foldl_readRaw_tests gs s.activity)
    refine ⟨?_, hjobs, hfl, hcores, hmem, fun hwf i j hi hj => ?_⟩
    · rw [exec_readRaw, testCommand_activity_acts hok, ← hgranules, hu]
    · obtain ⟨-, hdata⟩ := foldl_readRaw_data (s := s.activity) (by rwa [activity_ecc]) (s.ecc.target / 64) s.ecc.count
      rw [hu, hgs, hdata i j hi hj, rawData_activity]
  · rw [← activity_ecc s] at hu
    have htests : s.activity.TestsTo u := by
      rw [hu]
      exact TestsTo.trans (countsCleared_tests s.activity) (foldl_readChecked_tests found gs s.activity.countsCleared)
    refine ⟨?_, activity_tests_keeps htests⟩
    rw [exec_readChecked, testCommand_activity_acts hok, ← hgranules, hu]

end Sys2Proof.Machine
end

section
/-!
QUERY, QUERY_MERGE, FILTER_LOAD and FILTER_FREE (12 R330-R333, R350, R351, R357; 16 R488, R489): each row as one equation, what the pages of
a filter leave as it is, and O46.
-/
namespace Sys2Proof.Machine

/-! ## A key dropped from sparse data -/

/-- A listed value is what a read gives that answers none where nothing is listed. -/
theorem Sparse.find_eq_get {α : Type} (m : Sparse α) (i : Nat) :
    Sparse.find m i = Sparse.get none (m.map fun e => (e.1, some e.2)) i := by
  induction m with
  | nil => rfl
  | cons e t ih => simp only [Sparse.find, List.map_cons, Sparse.get, ih]

theorem Sparse.map_drop {α β : Type} (f : α → β) (m : Sparse α) (i : Nat) :
    (Sparse.drop m i).map (fun e => (e.1, f e.2)) = Sparse.drop (m.map fun e => (e.1, f e.2)) i := by
  induction m with
  | nil => rfl
  | cons e t ih =>
    simp only [Sparse.drop, List.map_cons]
    split
    · rfl
    · split
      · rfl
      · rw [List.map_cons, ih]

/-- In a map whose keys rise, a dropped key is not listed, and every other key is listed as before. -/
theorem Sparse.find_drop_rising {α : Type} {m : Sparse α} (h : m.Pairwise fun a b => a.1 < b.1) (i j : Nat) :
    Sparse.find (Sparse.drop m i) j = if j = i then none else Sparse.find m j := by
  have hrising : (m.map fun e => (e.1, some e.2)).Pairwise fun a b => a.1 < b.1 := List.pairwise_map.mpr h
  rw [Sparse.find_eq_get, Sparse.map_drop, Sparse.get_drop_rising _ hrising, ← Sparse.find_eq_get]

/-! ## QUERY (12 R330-R333) -/

/-- What a query whose record is `bs` does to the state `s` in which it is marked, where index `x` and serving job `j` take it. -/
def State.acceptQuery (s : State) (h : HostCmd) (c : Cmd) (x : Index) (j : Nat) (bs : List Byte) : State :=
  let st := queryStatus s c x.defn (queryOf x.defn bs) bs
  if st ≠ 0 then s.reply h.ref st 0 else s.joinQuery h.ref j x.cur (queryOf x.defn bs)

/-- What a query whose record begins with `bs` does to the state `s` in which it is marked, by its index and by its serving job. -/
def State.askQuery (s : State) (h : HostCmd) (c : Cmd) (bs : List Byte) : Option Index → Option Nat → State
  | none, _ => s.reply h.ref 0x0702 0
  | some _, none => s.reply h.ref 0x0711 0
  | some x, some j =>
    if queryHeaderOk x.defn bs = false then s.reply h.ref 0x0712 0
    else readBuf h c 0 (queryParts x.defn bs).2.2.2 s fun bs s => s.acceptQuery h c x j bs

theorem exec_query {s : State} {h : HostCmd} {c : Cmd} {b : List Byte} (hbuf : h.buf 0 = some b) (hc : Begun s h 0x90 c)
    (hb : 64 ≤ b.length) (hlen : 64 ≤ c.len 0) {n : Nat} (hn : n = bits (dwordAt (b.take 64) 0) 0 6) :
    exec (.query h) s = .next (settle ((s.mark h).askQuery h c (b.take 64) (s.index n) (s.serverFor n))) := by
  change execQuery h s = _
  rw [execQuery, withCmd_of_begun hc, readBuf_enough hlen (fun _ => hbuf) hb]
  dsimp only
  have hindex : (s.mark h).index n = s.index n := rfl
  have hserver : (s.mark h).serverFor n = s.serverFor n := rfl
  rw [← hn, hindex, hserver]
  cases s.index n with
  | none => rfl
  | some x => cases s.serverFor n <;> rfl

@[simp] theorem queryStatus_mark (s : State) (h : HostCmd) (c : Cmd) (d : IndexDef) (r : QueryRec) (bs : List Byte) :
    queryStatus (s.mark h) c d r bs = queryStatus s c d r bs := rfl

theorem acceptQuery_refused {s : State} {c : Cmd} {x : Index} {bs : List Byte} (hst : queryStatus s c x.defn (queryOf x.defn bs) bs ≠ 0)
    (h : HostCmd) (j : Nat) :
    s.acceptQuery h c x j bs = s.reply h.ref (queryStatus s c x.defn (queryOf x.defn bs) bs) 0 := if_pos hst

theorem acceptQuery_joins {s : State} {c : Cmd} {x : Index} {bs : List Byte} (hst : queryStatus s c x.defn (queryOf x.defn bs) bs = 0)
    (h : HostCmd) (j : Nat) : s.acceptQuery h c x j bs = s.joinQuery h.ref j x.cur (queryOf x.defn bs) := if_neg (not_not.mpr hst)

theorem askQuery_reads {h : HostCmd} {c : Cmd} {b : List Byte} {x : Index} (hbuf : h.buf 0 = some b)
    (hok : queryHeaderOk x.defn (b.take 64) = true) (hlen : (queryParts x.defn (b.take 64)).2.2.2 ≤ c.len 0)
    (hb : (queryParts x.defn (b.take 64)).2.2.2 ≤ b.length) (s : State) (j : Nat) :
    s.askQuery h c (b.take 64) (some x) (some j) =
      s.acceptQuery h c x j (b.take (queryParts x.defn (b.take 64)).2.2.2) := by
  rw [State.askQuery, if_neg (by simp [hok]), readBuf_enough hlen (fun _ => hbuf) hb]

/-! ## QUERY_MERGE (12 R357; 16 R489) -/

/-- The `nl` hit lists of a merge, read from the first one's CHAIN_ID on; none where one of them breaks a rule. -/
def hitListsOf (nl k : Nat) (bs : List Byte) : Option (List HitList) :=
  (List.range nl).mapM fun i => hitListOf k (dwordAt (bs.drop 32) 1) ((bs.drop (i * (64 + 16 * k))).take (64 + 16 * k))

/-- The merge of the hit lists `a :: rest`. -/
def mergedList (k : Nat) (a : HitList) (rest : List HitList) : HitList :=
  rest.foldl HitList.merge { a with entries := mergeEntries k [] a.entries, thresh := 0 }

/-- What a merge of the lists read does to the state `s` in which it is marked. -/
def State.replyMerge (s : State) (h : HostCmd) (k : Nat) : Option (List HitList) → State
  | some (a :: rest) => (s.hostData h.ref 1 (mergedList k a rest).bytes).ok h.ref (mergedList k a rest).result
  | _ => s.reply h.ref 0x0719 0

theorem exec_queryMerge {s : State} {h : HostCmd} {c : Cmd} {b : List Byte} (hbuf : h.buf 0 = some b) (hc : Begun s h 0x91 c)
    {nl k size : Nat} (hnl : nl = bits (c.dw 4) 0 9) (hk : k = bits (c.dw 5) 0 11) (hsize : size = 64 + 16 * k)
    (hrange : (2 ≤ nl ∧ nl ≤ 256) ∧ 1 ≤ k ∧ k ≤ 1024) (hout : size ≤ c.len 1) (hlen : nl * size ≤ c.len 0)
    (hb : nl * size ≤ b.length) :
    exec (.queryMerge h) s = .next (settle ((s.mark h).replyMerge h k (hitListsOf nl k (b.take (nl * size))))) := by
  have hin : ¬ (nl < 2 ∨ 256 < nl ∨ k = 0 ∨ 1024 < k) := by omega
  change execQueryMerge h s = _
  rw [execQueryMerge, withCmd_of_begun hc]
  dsimp only
  rw [← hnl, ← hk, ← hsize, if_neg hin, if_neg (Nat.not_lt.mpr hout), readBuf_enough hlen (fun _ => hbuf) hb, hsize]
  rfl

/-! ## FILTER_LOAD (12 R350; 16 R488) -/

/-- The chunks of a filter's form; none where a rule is broken. -/
def filterForm (maxItems : Nat) (bs : List Byte) : Option (List (Nat × ChunkKind)) :=
  if dwordAt bs 0 / 64 ≠ 0 ∨ qwordAt bs 2 ≠ 0 then none else chunksOf maxItems (dwordAt bs 1) 0 (bs.drop 16)

theorem filterForm_broken {maxItems : Nat} {bs : List Byte}
    (h : dwordAt bs 0 / 64 ≠ 0 ∨ qwordAt bs 2 ≠ 0 ∨ chunksOf maxItems (dwordAt bs 1) 0 (bs.drop 16) = none) :
    filterForm maxItems bs = none := by
  rw [filterForm]
  split
  · rfl
  · next hreserved => exact (or_assoc.mpr h).resolve_left hreserved

theorem filterForm_sound {maxItems : Nat} {bs : List Byte} (hindex : dwordAt bs 0 / 64 = 0) (hreserved : qwordAt bs 2 = 0) :
    filterForm maxItems bs = chunksOf maxItems (dwordAt bs 1) 0 (bs.drop 16) :=
  if_neg (by simp [hindex, hreserved])

/-- Board pages of a filter's bitmap over an index of `maxItems` items. -/
abbrev filterPages (maxItems : Nat) : Nat := ceilDiv (ceilDiv maxItems 8) pageBytes

/-- The state with filter `f` at handle `k`. -/
def State.addFilter (s : State) (k : Nat) (f : Filter) : State :=
  { s with idx := { s.idx with filters := Sparse.put s.idx.filters k f } }

/-- What a FILTER_LOAD for index `n` does to the state `s` in which it is marked, by its form and by the lowest free handle; its bitmap takes
`pages` board pages. -/
def State.askFilter (s : State) (h : HostCmd) (n pages : Nat) : Option (List (Nat × ChunkKind)) → Option Nat → State
  | none, _ => s.reply h.ref 0x0715 0
  | some _, none => s.reply h.ref 0x0717 0
  | some chunks, some k =>
    if s.boardFree < pages then s.reply h.ref 0x0401 0
    else match s.allocPages pages (.filter k) with
      | (page, t) => (t.addFilter k ⟨n, chunks, page, pages⟩).ok h.ref k

/-- A FILTER_LOAD whose form can be read is decided by it. The proof keeps its chunks, its pages and their place as variables, for the kernel
would otherwise divide by the size of a page to compare the two sides. -/
theorem exec_filterLoad {s : State} {h : HostCmd} {c : Cmd} {b : List Byte} (hbuf : h.buf 0 = some b) (hc : Begun s h 0x92 c)
    (hb : b.length = c.len 0) (hlen : 16 ≤ c.len 0) {n : Nat} (hn : n = bits (dwordAt b 0) 0 6) {x : Index}
    (hx : s.index n = some x) {free : Option Nat} (hfree : lowestFree 256 (fun i => (Sparse.find s.idx.filters i).isSome) = free) :
    exec (.filterLoad h) s = .next (settle ((s.mark h).askFilter h n (filterPages x.defn.maxItems) (filterForm x.defn.maxItems b)
      free)) := by
  have hfree' : lowestFree 256 (fun i => (Sparse.find (s.mark h).idx.filters i).isSome) = free := hfree
  change execFilterLoad h s = _
  rw [execFilterLoad, withCmd_of_begun hc, Nat.max_eq_right hlen,
    readBuf_enough (Nat.le_refl _) (fun _ => hbuf) (Nat.le_of_eq hb.symm), ← hb, List.take_length, hfree']
  subst hn
  extract_lets w n
  split
  next hnone => exact absurd (hx.symm.trans hnone) nofun
  next y hy =>
    obtain rfl : x = y := Option.some.inj (hx.symm.trans hy)
    extract_lets form pages
    have hform : filterForm x.defn.maxItems b = form := rfl
    have hpages : filterPages x.defn.maxItems = pages := rfl
    rw [hform, hpages]
    generalize form = form'
    generalize pages = pages'
    split
    · rfl
    · rfl
    · next chunks k =>
      rw [State.askFilter]
      generalize (s.mark h).allocPages pages' (.filter k) = alloc
      obtain ⟨page, t⟩ := alloc
      rfl

theorem askFilter_noRoom {s : State} {pages : Nat} (hfew : s.boardFree < pages) (h : HostCmd) (n k : Nat)
    (chunks : List (Nat × ChunkKind)) : s.askFilter h n pages (some chunks) (some k) = s.reply h.ref 0x0401 0 := if_pos hfew

/-- Pages that the module allocates for itself leave all but memory as it is. -/
theorem allocPages_frame (s : State) (n : Nat) (o : Owner) : (s.allocPages n o).2 = { s with mem := (s.allocPages n o).2.mem } := by
  unfold State.allocPages
  dsimp only
  split <;> rfl

/-- A filter that is loaded takes its handle; beside it, its pages and the reply, the state stays as it is. -/
theorem askFilter_loads {s : State} {pages : Nat} (henough : pages ≤ s.boardFree) (h : HostCmd) (n k : Nat)
    (chunks : List (Nat × ChunkKind)) :
    ∃ page mem, s.askFilter h n pages (some chunks) (some k) =
      (({ s with mem := mem } : State).addFilter k ⟨n, chunks, page, pages⟩).ok h.ref k := by
  have hframe := allocPages_frame s pages (.filter k)
  rw [State.askFilter, if_neg (Nat.not_lt.mpr henough)]
  generalize s.allocPages pages (.filter k) = alloc at hframe ⊢
  obtain ⟨page, t⟩ := alloc
  dsimp only at hframe ⊢
  rw [hframe]
  exact ⟨page, t.mem, rfl⟩

/-! ## FILTER_FREE (12 R351; 16 R488) -/

theorem exec_filterFree {s : State} {h : HostCmd} {c : Cmd} (hc : Begun s h 0x93 c) {k : Nat} (hk : k = bits c.handle 0 8) :
    exec (.filterFree h) s = .next (settle (
      if (Sparse.find s.idx.filters k).isNone then (s.mark h).reply h.ref 0x0714 0
      else if s.idx.queries.any fun q => q.rec_.filter == some k then (s.mark h).reply h.ref 0x0716 0
      else ((s.mark h).freeFilter k).ok h.ref 0)) := by
  change execFilterFree h s = _
  rw [execFilterFree, withCmd_of_begun hc, hk]
  rfl

/-- The state without filter `k`, before its pages are released. -/
def State.withoutFilter (s : State) (k : Nat) : State := { s with idx := { s.idx with filters := Sparse.drop s.idx.filters k } }

theorem freeFilter_wipes (s : State) (k : Nat) : ((s.withoutFilter k).withoutOwner (.filter k)).WipesTo (s.freeFilter k) :=
  freeOwner_wipes (s.withoutFilter k) (.filter k)

/-- What the end of a filter changes: its handle, and memory. -/
theorem freeFilter_frame (s : State) (k : Nat) :
    s.freeFilter k = { s.withoutFilter k with mem := (s.freeFilter k).mem } := by
  rw [freeFilter_wipes]
  rfl

/-- No page of a filter that has ended stays allocated. -/
theorem freeFilter_allocs {s : State} {k : Nat} {a : Alloc} (ha : a ∈ (s.freeFilter k).mem.allocs) : a.owner ≠ .filter k := by
  rw [freeFilter_wipes] at ha
  exact (mem_withoutOwner.mp ha).2

/-! ## The obligation -/

/-- Settles O46: each row by its branches; a filter's load and end by the handles of the filters, and by what its pages leave as it is. -/
theorem queriesAndFilters : Obligations.QueriesAndFilters := by
  intro s h c b hbuf
  refine ⟨fun hc n hb hlen hn => ?_, ?_, fun hc n x hb hlen hn hx => ?_, fun hc k hk => ?_⟩
  · rw [exec_query hbuf hc hb hlen hn]
    refine ⟨fun hx => ?_, fun x hx => ⟨fun hj => ?_, fun j hj => ⟨fun hbad => ?_, ?_⟩⟩⟩
    · rw [hx]; rfl
    · rw [hx, hj]; rfl
    · rw [hx, hj, State.askQuery, if_pos hbad]
    · rintro bs need hok rfl hneed hbneed rfl
      rw [hx, hj, askQuery_reads hbuf hok hneed hbneed]
      refine ⟨fun hst => ?_, fun hst => ?_⟩
      · rw [acceptQuery_refused (s := s.mark h) hst, queryStatus_mark]
      · rw [acceptQuery_joins (s := s.mark h) hst]
        exact ⟨_, _, rfl, rfl, rfl, rfl, rfl, rfl, rfl, rfl, rfl, rfl, rfl⟩
  · intro hc nl k size hnl hk hsize h2 h256 h1 h1024 hout hlen hb
    rw [exec_queryMerge hbuf hc hnl hk hsize ⟨⟨h2, h256⟩, h1, h1024⟩ hout hlen hb, hsize]
    refine ⟨fun hlists => ?_, fun a rest m hlists hm => ?_⟩
    · rw [hitListsOf, hlists]; rfl
    · rw [hitListsOf, hlists, hm]; rfl
  · refine ⟨fun hbad => ?_, ?_⟩
    · rw [exec_filterLoad hbuf hc hb hlen hn hx rfl, filterForm_broken hbad]; rfl
    · rintro chunks k pages hindex hreserved hchunks hfree rfl
      rw [exec_filterLoad hbuf hc hb hlen hn hx hfree, filterForm_sound hindex hreserved, hchunks]
      refine ⟨fun hfew => ?_, fun henough => ?_⟩
      · rw [askFilter_noRoom (s := s.mark h) hfew]
      · obtain ⟨page, mem, hload⟩ := askFilter_loads (s := s.mark h) henough h n k chunks
        refine ⟨_, page, rfl, ?_⟩
        rw [hload, ok_replies]
        exact ⟨Sparse.find_put_self _ _ _, fun i hi => Sparse.find_put_other _ _ hi, rfl, rfl⟩
  · rw [exec_filterFree hc hk]
    refine ⟨fun hnone => ?_, fun hsome hused => ?_, fun hsome hunused hrising => ⟨_, rfl, ?_⟩⟩
    · rw [if_pos (by simp [hnone])]
    · rw [if_neg (by simpa using hsome), if_pos (by simpa using hused)]
    · have hdrop := Sparse.find_drop_rising hrising k
      rw [if_neg (by simpa using hsome), if_neg (by simpa using hunused), ok_replies]
      have hframe := freeFilter_frame (s.mark h) k
      refine ⟨?_, fun i hi => ?_, fun a ha => freeFilter_allocs (s := s.mark h) ha, ?_⟩
      · rw [hframe]
        exact (hdrop k).trans (if_pos rfl)
      · rw [hframe]
        exact (hdrop i).trans (if_neg hi)
      · rw [hframe]
        exact ⟨rfl, rfl⟩

end Sys2Proof.Machine
end
